-- ==== Sys2Proof/Word.lean ====
section
/-! DEFINITION. The words of the machine: bytes, 32-bit words, and which string a thing belongs to
(00_scope.md R3, 01_architecture.md R19). -/

namespace Sys2Proof

/-- A byte of memory. -/
abbrev Byte := BitVec 8

/-- A word is 32 bits (R3). -/
abbrev Word := BitVec 32

/-- The two controller strings (R19). -/
inductive Str where
  | a
  | b
  deriving DecidableEq, Repr

/-- The partner of a string. -/
def Str.other : Str → Str
  | .a => .b
  | .b => .a

/-- CORE.STR, GEN_STRAP.STR: 0 string A, 1 string B. -/
def Str.idx : Str → Nat
  | .a => 0
  | .b => 1

@[simp] theorem Str.other_other (x : Str) : x.other.other = x := by cases x <;> rfl

theorem Str.other_ne (x : Str) : x.other ≠ x := by cases x <;> decide

/-- Who stores to a register by a command of its own: the host over PCIe, firmware, or the secure monitor (00_scope.md R8, R12;
02_quinli_isa.md R45). -/
inductive Writer where
  | host
  | firmware
  | monitor
  deriving DecidableEq, Repr

/-- What a read of a word of SRAM meets in its ECC (02_quinli_isa.md R70): nothing, a single-bit error, an uncorrectable one. -/
inductive Ecc where
  | clean
  | single
  | double
  deriving DecidableEq, Repr

/-- A load fault that a comparator or the bank sweep of a tile has seen for 1 us (05_actuator_drive.md R144): the channels
are tile-local, `g` is a tile-local return group. -/
inductive LoadFault where
  | short (a : Nat)
  | comp (a : Nat)
  | extv (a : Nat)
  | pair (a b : Nat)
  | reterr (g : Nat)
  deriving DecidableEq, Repr

/-- Channels below 2,048 and return groups below 256 (05_actuator_drive.md R126, R144). -/
def LoadFault.ok : LoadFault → Bool
  | .short a => decide (a < 2048)
  | .comp a => decide (a < 2048)
  | .extv a => decide (a < 2048)
  | .pair a b => decide (a < 2048) && decide (b < 2048)
  | .reterr g => decide (g < 256)

/-- One run of a self-test (12_redundancy.md R300): the scrub of a word of an SRAM bank, with what it met; the signature test of a core;
the known-answer tests of the hash and the signature; the comparison of state digests. -/
inductive SelfTest where
  | scrub (bank word : Nat) (corr bad : Bool)
  | signature (core : Nat) (good : Bool)
  | crypto (good : Bool)
  | digest
  deriving DecidableEq, Repr

/-- Sixteen banks of 524,288 words; four cores (01_architecture.md R32). -/
def SelfTest.ok : SelfTest → Bool
  | .scrub bank word _ _ => decide (bank < 16) && decide (word < 524288)
  | .signature core _ => decide (core < 4)
  | .crypto _ => true
  | .digest => true

/-- One conversion of a pickup (06_pickups_adc.md R151, R157): the tile-local pickup, the photocurrent in pA, the channel's
zero-current code, and whether the transimpedance amplifier is saturated. -/
structure Conv where
  m : Nat
  pA : Int
  zero : Nat
  sat : Bool
  deriving DecidableEq, Repr

/-- An edge on an input pin: rising or falling, and how long the shorter of the levels beside it lasts, in 2^-16 ns (14_time.md R338;
15_events_mailboxes.md R352). -/
structure Edge where
  rising : Bool
  held : Nat
  deriving DecidableEq, Repr

/-- A span of true time, from `t0` to `t`, when the command arrives. -/
structure Span where
  t0 : Nat
  t : Nat
  deriving DecidableEq, Repr

/-- A known-answer job that ran from `t0` to `t`, and whether its result is the known one (08_loops.md R203, R204). -/
structure KatRun where
  good : Bool
  t0 : Nat
  t : Nat
  deriving DecidableEq, Repr

/-- The PTP frame, if any, that firmware has handed to a port by `t` (14_time.md R333). -/
structure Pick where
  ptp : Option (List Byte)
  t : Nat
  deriving DecidableEq, Repr

/-- The source whose FORCE is stored, and the tiles whose condition reports fall in the same grant (16_faults.md R366, R368, R369). -/
structure Forced where
  src : Fin 160
  ns : List (Fin 8)
  deriving DecidableEq, Repr

/-- What the power stage reports, and by string whether the message came with a bad check (17_power_thermal_ageing.md R385). -/
structure StageReport where
  st : BitVec 16
  bad : BitVec 2
  deriving DecidableEq, Repr

/-- Tile `n`, judged at `t`; `fault`: its control domain has a fault (16_faults.md R364). -/
structure TileJudged where
  n : Fin 8
  fault : Bool
  t : Nat
  deriving DecidableEq, Repr

/-- A heartbeat over the bridge link at `t`, with the frames since the last one that had a bad check, and that were sent again
(12_redundancy.md R306). -/
structure Beat where
  crc : BitVec 16
  retry : BitVec 16
  t : Nat
  deriving DecidableEq, Repr

/-- A pickup of the tile, and a code of 16 bits (06_pickups_adc.md R150, R151). -/
def Conv.ok (v : Conv) : Bool := decide (v.m < 256) && decide (v.zero < 65536)

end Sys2Proof
end

