-- ==== Sys2Proof/Syntax.lean ====
section
/-! DEFINITION. The commands of the block: one constructor for each row of spec/opcode_table.json, in its order. `x` is a string, `i` one of
its cores, `n` a tile, a ring or a port, and `t` the time, in units of 2^-16 ns since the epoch of 00_scope.md R17, that has been reached
when the command arrives (notes/assumptions/12.md); the docstring of the command's meaning says what its other operands are. -/

namespace Sys2Proof

inductive Instr where
  | add (x : Str) (i : Fin 4) (gd ga gb : BitVec 5) (fe : Ecc)
  | sub (x : Str) (i : Fin 4) (gd ga gb : BitVec 5) (fe : Ecc)
  | and (x : Str) (i : Fin 4) (gd ga gb : BitVec 5) (fe : Ecc)
  | or (x : Str) (i : Fin 4) (gd ga gb : BitVec 5) (fe : Ecc)
  | xor (x : Str) (i : Fin 4) (gd ga gb : BitVec 5) (fe : Ecc)
  | sll (x : Str) (i : Fin 4) (gd ga gb : BitVec 5) (fe : Ecc)
  | srl (x : Str) (i : Fin 4) (gd ga gb : BitVec 5) (fe : Ecc)
  | sra (x : Str) (i : Fin 4) (gd ga gb : BitVec 5) (fe : Ecc)
  | slt (x : Str) (i : Fin 4) (gd ga gb : BitVec 5) (fe : Ecc)
  | sltu (x : Str) (i : Fin 4) (gd ga gb : BitVec 5) (fe : Ecc)
  | mul (x : Str) (i : Fin 4) (gd ga gb : BitVec 5) (fe : Ecc)
  | mulh (x : Str) (i : Fin 4) (gd ga gb : BitVec 5) (fe : Ecc)
  | mulhu (x : Str) (i : Fin 4) (gd ga gb : BitVec 5) (fe : Ecc)
  | div (x : Str) (i : Fin 4) (gd ga gb : BitVec 5) (fe : Ecc)
  | divu (x : Str) (i : Fin 4) (gd ga gb : BitVec 5) (fe : Ecc)
  | rem (x : Str) (i : Fin 4) (gd ga gb : BitVec 5) (fe : Ecc)
  | remu (x : Str) (i : Fin 4) (gd ga gb : BitVec 5) (fe : Ecc)
  | slli (x : Str) (i : Fin 4) (gd ga gb : BitVec 5) (fe : Ecc)
  | srli (x : Str) (i : Fin 4) (gd ga gb : BitVec 5) (fe : Ecc)
  | srai (x : Str) (i : Fin 4) (gd ga gb : BitVec 5) (fe : Ecc)
  | min (x : Str) (i : Fin 4) (gd ga gb : BitVec 5) (fe : Ecc)
  | max (x : Str) (i : Fin 4) (gd ga gb : BitVec 5) (fe : Ecc)
  | clz (x : Str) (i : Fin 4) (gd ga gb : BitVec 5) (fe : Ecc)
  | addi (x : Str) (i : Fin 4) (gd ga : BitVec 5) (imm : BitVec 16) (fe : Ecc)
  | andi (x : Str) (i : Fin 4) (gd ga : BitVec 5) (imm : BitVec 16) (fe : Ecc)
  | ori (x : Str) (i : Fin 4) (gd ga : BitVec 5) (imm : BitVec 16) (fe : Ecc)
  | xori (x : Str) (i : Fin 4) (gd ga : BitVec 5) (imm : BitVec 16) (fe : Ecc)
  | lui (x : Str) (i : Fin 4) (gd ga : BitVec 5) (imm : BitVec 16) (fe : Ecc)
  | slti (x : Str) (i : Fin 4) (gd ga : BitVec 5) (imm : BitVec 16) (fe : Ecc)
  | sltiu (x : Str) (i : Fin 4) (gd ga : BitVec 5) (imm : BitVec 16) (fe : Ecc)
  | lw (x : Str) (i : Fin 4) (gd ga : BitVec 5) (imm : BitVec 16) (fe de : Ecc)
  | lh (x : Str) (i : Fin 4) (gd ga : BitVec 5) (imm : BitVec 16) (fe de : Ecc)
  | lhu (x : Str) (i : Fin 4) (gd ga : BitVec 5) (imm : BitVec 16) (fe de : Ecc)
  | lb (x : Str) (i : Fin 4) (gd ga : BitVec 5) (imm : BitVec 16) (fe de : Ecc)
  | lbu (x : Str) (i : Fin 4) (gd ga : BitVec 5) (imm : BitVec 16) (fe de : Ecc)
  | sw (x : Str) (i : Fin 4) (gd ga : BitVec 5) (imm : BitVec 16) (fe : Ecc)
  | sh (x : Str) (i : Fin 4) (gd ga : BitVec 5) (imm : BitVec 16) (fe : Ecc)
  | sb (x : Str) (i : Fin 4) (gd ga : BitVec 5) (imm : BitVec 16) (fe : Ecc)
  | swap (x : Str) (i : Fin 4) (gd ga gb : BitVec 5) (fe de : Ecc)
  | aadd (x : Str) (i : Fin 4) (gd ga gb : BitVec 5) (fe de : Ecc)
  | cas (x : Str) (i : Fin 4) (gd ga gb : BitVec 5) (fe de : Ecc)
  | beq (x : Str) (i : Fin 4) (gd ga : BitVec 5) (imm : BitVec 16) (fe : Ecc)
  | bne (x : Str) (i : Fin 4) (gd ga : BitVec 5) (imm : BitVec 16) (fe : Ecc)
  | blt (x : Str) (i : Fin 4) (gd ga : BitVec 5) (imm : BitVec 16) (fe : Ecc)
  | bge (x : Str) (i : Fin 4) (gd ga : BitVec 5) (imm : BitVec 16) (fe : Ecc)
  | bltu (x : Str) (i : Fin 4) (gd ga : BitVec 5) (imm : BitVec 16) (fe : Ecc)
  | bgeu (x : Str) (i : Fin 4) (gd ga : BitVec 5) (imm : BitVec 16) (fe : Ecc)
  | j (x : Str) (i : Fin 4) (imm : BitVec 26) (fe : Ecc)
  | jal (x : Str) (i : Fin 4) (imm : BitVec 26) (fe : Ecc)
  | jalr (x : Str) (i : Fin 4) (gd ga : BitVec 5) (imm : BitVec 16) (fe : Ecc)
  | chrd (x : Str) (i : Fin 4) (gd ga : BitVec 5) (imm : BitVec 10) (fe : Ecc)
  | chwr (x : Str) (i : Fin 4) (gd ga : BitVec 5) (imm : BitVec 10) (fe : Ecc)
  | loopset (x : Str) (i : Fin 4) (gd ga : BitVec 5) (imm : BitVec 10) (fe : Ecc)
  | fretset (x : Str) (i : Fin 4) (gd ga : BitVec 5) (imm : BitVec 10) (fe : Ecc)
  | plbeg (x : Str) (i : Fin 4) (gd ga : BitVec 5) (imm : BitVec 10) (fe : Ecc)
  | pladd (x : Str) (i : Fin 4) (gd ga : BitVec 5) (imm : BitVec 10) (fe : Ecc)
  | plseal (x : Str) (i : Fin 4) (gd ga : BitVec 5) (imm : BitVec 10) (fe : Ecc)
  | plarm (x : Str) (i : Fin 4) (gd ga : BitVec 5) (imm : BitVec 10) (fe : Ecc)
  | plcancel (x : Str) (i : Fin 4) (gd ga : BitVec 5) (imm : BitVec 10) (fe : Ecc)
  | calset (x : Str) (i : Fin 4) (gd ga : BitVec 5) (imm : BitVec 10) (fe : Ecc)
  | evfire (x : Str) (i : Fin 4) (gd ga : BitVec 5) (imm : BitVec 10) (fe : Ecc)
  | evwait (x : Str) (i : Fin 4) (gd ga : BitVec 5) (imm : BitVec 10) (fe : Ecc)
  | evwaitTimeout (x : Str) (i : Fin 4) (t : Nat)
  | mbpost (x : Str) (i : Fin 4) (gd ga : BitVec 5) (imm : BitVec 10) (fe : Ecc)
  | mbtake (x : Str) (i : Fin 4) (gd ga : BitVec 5) (imm : BitVec 10) (fe : Ecc)
  | pegwr (x : Str) (i : Fin 4) (gd ga : BitVec 5) (imm : BitVec 10) (fe : Ecc)
  | pegrd (x : Str) (i : Fin 4) (gd ga : BitVec 5) (imm : BitVec 10) (fe : Ecc)
  | tsread (x : Str) (i : Fin 4) (gd ga : BitVec 5) (imm : BitVec 10) (fe : Ecc)
  | fence (x : Str) (i : Fin 4) (gd ga : BitVec 5) (imm : BitVec 10) (fe : Ecc)
  | yield (x : Str) (i : Fin 4) (gd ga : BitVec 5) (imm : BitVec 10) (fe : Ecc)
  | done (x : Str) (i : Fin 4) (gd ga : BitVec 5) (imm : BitVec 10) (fe : Ecc)
  | trap (x : Str) (i : Fin 4) (gd ga : BitVec 5) (imm : BitVec 9) (fe : Ecc)
  | mcall (x : Str) (i : Fin 4) (gd ga : BitVec 5) (imm : BitVec 9) (fe : Ecc)
  | halt (x : Str) (i : Fin 4) (gd ga : BitVec 5) (imm : BitVec 10) (fe : Ecc)
  | mfs (x : Str) (i : Fin 4) (gd ga : BitVec 5) (imm : BitVec 10) (fe : Ecc)
  | mts (x : Str) (i : Fin 4) (gd ga : BitVec 5) (imm : BitVec 10) (fe : Ecc)
  | eret (x : Str) (i : Fin 4) (gd ga : BitVec 5) (imm : BitVec 10) (fe : Ecc)
  | int (x : Str) (i : Fin 4)
  | dlbegin (x : Str) (i : Fin 4)
  | dldata (x : Str) (i : Fin 4)
  | dlend (x : Str) (i : Fin 4)
  | dlabort (x : Str) (i : Fin 4)
  | csetload (x : Str) (i : Fin 4)
  | rtsolve (x : Str) (i : Fin 4) (us : Nat)
  | rtbind (x : Str) (i : Fin 4)
  | rtset (x : Str) (i : Fin 4)
  | xtload (x : Str) (i : Fin 4)
  | xtprop (x : Str) (i : Fin 4)
  | calload (x : Str) (i : Fin 4)
  | fltinj (x : Str) (i : Fin 4)
  | fltclr (x : Str) (i : Fin 4)
  | ageprio (x : Str) (i : Fin 4)
  | flprog (x : Str) (i : Fin 4)
  | fwtry (x : Str) (i : Fin 4)
  | svncommit (x : Str) (i : Fin 4)
  | keyload (x : Str) (i : Fin 4)
  | dbgunlock (x : Str) (i : Fin 4)
  | attest (x : Str) (i : Fin 4)
  | evgrp (x : Str) (i : Fin 4)
  | ringDbPublish (x : Str) (n : Fin 16) (prod : BitVec 16) (host : Bool)
  | ringDbContinue (x : Str) (n : Fin 16) (prod : BitVec 16) (host : Bool)
  | ringDbFlush (x : Str) (n : Fin 16) (prod : BitVec 16) (host : Bool)
  | ringDbRefused (x : Str) (n : Fin 16) (prod : BitVec 16) (host : Bool)
  | doorbellMirror (x : Str)
  | phraseClaim (x : Str) (i : Fin 4) (t : Nat)
  | claimEntry (x : Str) (i : Fin 4)
  | retireEntry (x : Str)
  | phraseKilled (x : Str) (i : Fin 4) (t : Nat)
  | effectFrameApply (t : Nat)
  | completionPost (x : Str) (n : Fin 16) (err : Bool)
  | ringCqcfgEnable (x : Str) (n : Fin 16)
  | seqStartGo (x : Str) (v : Fin 16)
  | registerWrite (x : Str) (o : BitVec 18) (v : Word) (w : Writer)
  | rcRead (x : Str) (o : BitVec 18) (dbg : Bool)
  | errorRecordSend (n : Fin 8) (t : Nat)
  | errorRecordReceive (x : Str) (n : Fin 8) (hdr : BitVec 11) (check : Bool)
  | recordFetch (x : Str) (n : Fin 8) (f t : Nat)
  | engineJob (x : Str) (j : Fin 512) (f t0 : Nat) (ts : List Nat) (te : Nat) (bad : BitVec 32) (store : Bool)
  | codeRecord (n : Fin 8) (x : Str) (f t : Nat)
  | capoSample (n : Fin 8) (t : Nat)
  | missedCodesHold (n : Fin 8) (t : Nat)
  | codeDeadline (n : Fin 8) (t : Nat)
  | frameCodeLoad (n : Fin 8) (t : Nat)
  | shareStage (n : Fin 8) (x : Str) (t : Nat)
  | shareAck (x : Str) (n : Fin 8)
  | shareDigest (n : Fin 8) (x : Str)
  | withdrawRequest (n : Fin 8) (x : Str) (t : Nat)
  | withdrawCommit (n : Fin 8) (x : Str)
  | withdrawRestore (n : Fin 8) (x : Str)
  | strokeStart (n : Fin 8) (t : Nat)
  | bowStep (n : Fin 8) (t : Nat)
  | settleHoldEnd (n : Fin 8) (t : Nat)
  | strokeReport (x : Str) (n : Fin 8)
  | missedReport (x : Str) (n : Fin 8)
  | calendarOccurrenceStage (x : Str) (t : Nat)
  | calendarCycleBoundary (x : Str) (t : Nat)
  | xtSnapshot (x : Str) (t : Nat)
  | ffFrame (x : Str) (t : Nat)
  | xtAccumulate (x : Str) (t : Nat)
  | xtMselWrite (x : Str) (v : Word)
  | resSenseVisit (n : Fin 8) (bank : Fin 4) (r : BitVec 17) (t : Nat)
  | statusSweepReport (n : Fin 8) (t : Nat)
  | loadFaultDetect (n : Fin 8) (f : LoadFault) (on : Bool) (t : Nat)
  | tileModeWrite (x : Str) (n : Fin 8) (v : Word)
  | tilePbiasWrite (x : Str) (n : Fin 8) (b : Fin 2) (v : Word) (t : Nat)
  | biasSettleEnd (n : Fin 8) (b : Fin 2) (t : Nat)
  | sampleTrigger (n : Fin 8) (b : Fin 2) (t : Nat)
  | loadTrigger (n : Fin 8) (g : Fin 32) (t : Nat)
  | conversionDone (n : Fin 8) (vs : List Conv) (t : Nat)
  | pickupOpenTest (n : Fin 8) (b : Fin 2) (capq : Option Nat) (t : Nat)
  | cathodeLimitTrip (n : Fin 8) (m : Fin 256)
  | thmConversion (n : Fin 8) (r : Option Nat) (t : Nat)
  | ditherStep (n : Fin 8) (t : Nat)
  | nullSlotStart (n : Fin 8) (t : Nat)
  | nullSlotEnd (n : Fin 8) (t : Nat)
  | hkaScan (x : Str) (sums : List Int) (refBad : Bool) (t : Nat)
  | hkaSettled (x : Str)
  | engmapWrite (x : Str) (j : Fin 512) (v : Word) (t : Nat)
  | blockMoveRelease (x : Str) (j : Fin 512)
  | engineJobTimeout (x : Str) (e : Fin 36) (job : Span)
  | katJob (x : Str) (e : Fin 36) (mac : BitVec 16) (run : KatRun)
  | engRoleWrite (x : Str) (e : Fin 36) (v : Word)
  | calCommitClose (x : Str) (t : Nat)
  | calCommitApply (t : Nat)
  | calStrokeSample (x : Str) (t : Nat)
  | calTargetSample (x : Str) (t : Nat)
  | capoTake (x : Str) (t : Nat)
  | capoSeize (x : Str) (t : Nat)
  | transferRequest (x : Str) (t : Nat)
  | transferAccept (x : Str)
  | transferDeassert (x : Str) (t : Nat)
  | transferAssert (x : Str) (t : Nat)
  | transferReassertCheck (x : Str) (t : Nat)
  | transferComplete (x : Str) (t : Nat)
  | capoForceFall (t : Nat)
  | capoForceRise
  | redCtlReady (x : Str) (t : Nat)
  | redCtlJoin (x : Str)
  | redCtlTake (x : Str)
  | redCtlSwap (x : Str) (t : Nat)
  | redCtlDrop (x : Str)
  | joinreq (x : Str)
  | joinClaimDrain (x : Str)
  | joinBulkState (x : Str)
  | joinLoopCut (x : Str) (j : Fin 512)
  | joinBlockCurrent (x : Str) (t : Nat)
  | mismatchReport (n : Fin 8) (t : Nat)
  | verdictTimeout (x : Str) (t : Nat)
  | healthReport (x : Str) (t : Nat)
  | roleSwapDue (x : Str) (t : Nat)
  | partnerResetRequest (x : Str) (t : Nat)
  | bridgeLinkDown (t : Nat)
  | bridgeLinkUp (lanes : Fin 4)
  | selfTest (x : Str) (k : SelfTest)
  | telemetrySnapshot (x : Str) (i : Fin 16) (t : Nat)
  | telemetrySeqMirror (x : Str)
  | telemetrySeqTimeout (x : Str) (i : Fin 16) (t : Nat)
  | ethFrameReceive (x : Str) (n : Fin 2) (frame : List Byte) (t : Nat)
  | policerConfigWrite (x : Str) (n : Fin 2) (k : Fin 4) (sel : Fin 3) (v : Word)
  | arpRequest (x : Str)
  | ndSolicitation (x : Str)
  | echoRequest (x : Str)
  | phrase (x : Str) (t : Nat)
  | fenceCmd (x : Str) (t : Nat)
  | status (x : Str) (t : Nat)
  | resend (x : Str) (t : Nat)
  | egressPick (x : Str) (n : Fin 2) (p : Pick)
  | gclEnable (x : Str) (n : Fin 2) (nent : BitVec 7) (t : Nat)
  | gclDisable (x : Str) (n : Fin 2) (nent : BitVec 7)
  | gclSwitch (x : Str) (n : Fin 2) (t : Nat)
  | queueSample (x : Str) (n : Fin 2) (t : Nat)
  | ethLinkLoss (x : Str) (n : Fin 2) (t : Nat)
  | ethLinkUp (x : Str) (n : Fin 2) (t : Nat)
  | refclkLoss (x : Str) (t : Nat)
  | refclkReturn (x : Str) (t : Nat)
  | timeOffsWrite (x : Str) (v : Word) (t : Nat)
  | partnerTimeSample (x : Str) (t : Nat)
  | holdoverTimeout (x : Str) (t : Nat)
  | timeCtlMchg (x : Str) (t : Nat)
  | timeNsWrite (x : Str) (v : Word) (t : Nat)
  | timeNsRead (x : Str) (t : Nat)
  | ptpTxTimestamp (x : Str) (port : Fin 2) (ident : Fin 65535) (t : Nat)
  | timeTxidRead (x : Str) (port : Fin 2)
  | tileTimeUpdate (n : Fin 8) (t : Nat)
  | toutArm (x : Str) (i : Fin 4) (v : Word) (t : Nat)
  | toutPulse (x : Str) (i : Fin 4) (t : Nat)
  | toutPulseEnd (x : Str) (i : Fin 4) (t : Nat)
  | tcapEdge (x : Str) (j : Fin 2) (e : Edge) (t : Nat)
  | timeTcapnsRead (x : Str) (j : Fin 2)
  | evtInEdge (e : Edge)
  | relayLatchEmpty (x : Str) (r : Fin 64)
  | evtOutPulseEnd (x : Str) (t : Nat)
  | consumerDeferredAct (x : Str) (k : Fin 192)
  | evfFireWrite (x : Str) (ch : Fin 64)
  | evfCstatClear (x : Str) (v : Fin 16)
  | mbxHpost (x : Str) (k : Fin 16)
  | mbxHtake (x : Str) (k : Fin 16)
  | mbxK4HeaderRead (x : Str) (k : Fin 16) (e : Fin 5)
  | mbxEprstWrite (x : Str) (v : Fin 32) (host : Bool)
  | endpointReset (x : Str)
  | alvSrcForce (x : Str) (f : Forced)
  | alvHbeat (x : Str) (v : Word) (t : Nat)
  | heartbeatMiss (x : Str) (t : Nat)
  | aliveToggle (x : Str)
  | powerUp (t : Nat)
  | brownOut (t : Nat)
  | surgeShutdown (t : Nat)
  | vinOutOfRange (x : Str) (t : Nat)
  | railWindowFault (x : Str) (ch : Fin 16) (out : Bool)
  | powerStageFault (r : StageReport)
  | avsTick (t : Nat)
  | sensorConversion (x : Str) (i : Fin 64) (v : BitVec 16)
  | throttleTick (x : Str) (stg : BitVec 16) (t : Nat)
  | thermalTrip (stg : BitVec 16)
  | pwrCtlRailon (x : Str)
  | pwrReqWrite (x : Str) (i : Fin 4) (v : Word)
  | wake (t : Nat)
  | marginPlannerRun (x : Str) (t : Nat)
  | warmReset (x : Str) (flr : Bool) (t : Nat)
  | stringReset (x : Str) (t : Nat)
  | watchdogReset (x : Str) (t : Nat)
  | partnerRequestedReset (x : Str) (t : Nat)
  | tileReset (x : Str) (mask : BitVec 8)
  | engineReset (x : Str) (e : Fin 36)
  | bootImageCheck (x : Str) (faults : BitVec 2) (t : Nat)
  | hoursIncrement (x : Str)
  | epochRetry (x : Str) (t : Nat)
  | tileFailed (x : Str) (j : TileJudged)
  | dbgCtlHalt (x : Str) (i : Fin 4) (on : Bool)
  | dbgCtlStep (x : Str) (i : Fin 4) (host : Bool)
  | dbgDataRead (x : Str)
  | dbgDataWrite (x : Str) (v : Word)
  | bar2HostWrite (x : Str) (a : BitVec 25) (v : Word)
  | withdrawReply (x : Str) (n : Fin 8)
  | withdrawAck (x : Str) (n : Fin 8)
  | joinReply (x : Str)
  | joinRetry (x : Str) (t : Nat)
  | tileConditionReport (x : Str) (ns : List (Fin 8))
  | partnerRecordRequest (x : Str)
  | postedMark (x : Str)
  | bridgeHeartbeat (x : Str) (h : Beat)
  | engineDomainFault (x : Str) (e : Fin 36)
  | operationOutcome (x : Str)
  deriving DecidableEq, Repr

end Sys2Proof
end

