-- ==== Sys2Proof/Machine/Bits.lean ====
section
/-! DEFINITION. Sparse tables in one canonical form, bytes in little-endian order (00_scope.md R3), bit fields,
two's complement numbers, the exact rounding the spec names (rhe: round half to even), and bounded counters. -/

namespace Sys2Proof.Machine

/-- A table from numbers to values, as a list of the entries that differ from what an unlisted key reads as. -/
abbrev Tab (α : Type) := List (Nat × α)

/-- The value at key `k`; `d` is what an unlisted key reads as. -/
def Tab.get {α : Type} (d : Nat → α) : Tab α → Nat → α
  | [], k => d k
  | (i, v) :: m, k => if i = k then v else Tab.get d m k

/-- Puts an entry at its place in rising order of keys. -/
def Tab.insert {α : Type} : Tab α → Nat → α → Tab α
  | [], k, v => [(k, v)]
  | (i, w) :: m, k, v =>
    if k < i then (k, v) :: (i, w) :: m
    else if k = i then (k, v) :: m
    else (i, w) :: Tab.insert m k v

/-- Takes the entry of key `k` out. -/
def Tab.erase {α : Type} : Tab α → Nat → Tab α
  | [], _ => []
  | (i, w) :: m, k => if i = k then Tab.erase m k else (i, w) :: Tab.erase m k

/-- Writes `v` at key `k`; the value that an unlisted key reads as removes the entry. -/
def Tab.set {α : Type} [DecidableEq α] (d : Nat → α) (m : Tab α) (k : Nat) (v : α) : Tab α :=
  if v = d k then Tab.erase m k else Tab.insert m k v

/-- Every key of `m` is above `lo`, keys rise strictly, and no entry equals what its key reads as unlisted. -/
def Tab.wfAbove {α : Type} [DecidableEq α] (d : Nat → α) : Option Nat → Tab α → Bool
  | _, [] => true
  | none, (i, v) :: m => decide (v ≠ d i) && Tab.wfAbove d (some i) m
  | some lo, (i, v) :: m => decide (lo < i) && decide (v ≠ d i) && Tab.wfAbove d (some i) m

/-- The canonical form of a table. -/
def Tab.wf {α : Type} [DecidableEq α] (d : Nat → α) (m : Tab α) : Bool := Tab.wfAbove d none m

/-- A memory: bytes by address. -/
abbrev Mem := List Host.Cell

/-- What an unlisted byte of SRAM reads as: 0 (18_reset_boot_security.md R405 zeroes SRAM). -/
def zeroByte : Nat → Byte := fun _ => 0

/-- One byte of a memory whose unlisted bytes read 0. -/
def Mem.byte (m : Mem) (a : Nat) : Byte := Tab.get zeroByte m a

/-- `m` with the byte at `a` written. -/
def Mem.setByte (m : Mem) (a : Nat) (v : Byte) : Mem := Tab.set zeroByte m a v

/-- The number held in the `n` bytes from `a`, least significant byte first (R3). -/
def Mem.read (m : Mem) (a : Nat) : Nat → Nat
  | 0 => 0
  | n + 1 => (m.byte a).toNat + 256 * Mem.read m (a + 1) n

/-- `m` with the low `n` bytes of `v` written from `a`, least significant byte first (R3). -/
def Mem.write (m : Mem) (a : Nat) : Nat → Nat → Mem
  | 0, _ => m
  | n + 1, v => Mem.write (m.setByte a (BitVec.ofNat 8 v)) (a + 1) n (v / 256)

/-- The bytes from `a`, `n` of them. -/
def Mem.bytes (m : Mem) (a : Nat) : Nat → List Byte
  | 0 => []
  | n + 1 => m.byte a :: Mem.bytes m (a + 1) n

/-- `m` with a list of bytes written from `a`. -/
def Mem.writeBytes (m : Mem) (a : Nat) : List Byte → Mem
  | [] => m
  | v :: vs => Mem.writeBytes (m.setByte a v) (a + 1) vs

/-- The word at `a`. -/
def Mem.word (m : Mem) (a : Nat) : Nat := m.read a 4

/-- `m` with a word written at `a`. -/
def Mem.setWord (m : Mem) (a v : Nat) : Mem := m.write a 4 v

/-- The words from `a`, `n` of them. -/
def Mem.words (m : Mem) (a : Nat) : Nat → List Nat
  | 0 => []
  | n + 1 => m.word a :: Mem.words m (a + 4) n

/-- `m` with a list of words written from `a`. -/
def Mem.writeWords (m : Mem) (a : Nat) : List Nat → Mem
  | [] => m
  | v :: vs => Mem.writeWords (m.setWord a v) (a + 4) vs

/-- Bits [lo + w - 1 : lo] of a number. -/
def bits (v lo w : Nat) : Nat := v / 2 ^ lo % 2 ^ w

/-- One bit of a number. -/
def bit (v i : Nat) : Bool := v / 2 ^ i % 2 == 1

/-- `v` with bits [lo + w - 1 : lo] replaced by the low bits of `f`. -/
def putBits (v lo w f : Nat) : Nat :=
  v % 2 ^ lo + (f % 2 ^ w) * 2 ^ lo + v / 2 ^ (lo + w) * 2 ^ (lo + w)

/-- `v` with bit `i` set or cleared. -/
def putBit (v i : Nat) (b : Bool) : Nat := putBits v i 1 (if b then 1 else 0)

def b2n (b : Bool) : Nat := if b then 1 else 0

/-- The two's complement number in the low `w` bits of `v`. -/
def sx (w v : Nat) : Int := if 2 ^ (w - 1) ≤ v % 2 ^ w then ((v % 2 ^ w : Nat) : Int) - (2 ^ w : Nat) else ((v % 2 ^ w : Nat) : Int)

/-- The low `w` bits of an integer, two's complement. -/
def wrap (w : Nat) (i : Int) : Nat := (i % ((2 ^ w : Nat) : Int)).toNat

/-- An integer held to the range of `w`-bit two's complement numbers. -/
def satS (w : Nat) (i : Int) : Int :=
  if i < -((2 ^ (w - 1) : Nat) : Int) then -((2 ^ (w - 1) : Nat) : Int)
  else if ((2 ^ (w - 1) : Nat) : Int) - 1 < i then ((2 ^ (w - 1) : Nat) : Int) - 1
  else i

/-- An integer held to a range. -/
def clampI (lo hi i : Int) : Int := if i < lo then lo else if hi < i then hi else i

/-- A natural number held to a range. -/
def clampN (lo hi n : Nat) : Nat := if n < lo then lo else if hi < n then hi else n

/-- `n / d` rounded to the nearest integer, a half to the even one (`rhe`); `d` above 0. -/
def rheDiv (n : Int) (d : Nat) : Int :=
  let q := n / (d : Int)
  let r := n % (d : Int)
  if 2 * r < d then q else if (d : Int) < 2 * r then q + 1 else if q % 2 = 0 then q else q + 1

/-- `rhe(v, k)`: v / 2^k rounded half to even. -/
def rhe (v : Int) (k : Nat) : Int := rheDiv v (2 ^ k)

/-- `n / d` of natural numbers rounded half to even. -/
def rheN (n d : Nat) : Nat := (rheDiv (n : Int) d).toNat

/-- One more, saturating at `top`. -/
def satInc (top v : Nat) : Nat := if v < top then v + 1 else top

/-- `v + k`, saturating at `top`. -/
def satAdd (top v k : Nat) : Nat := min top (v + k)

/-- A list with its element `i` replaced. -/
def setAt {α : Type} : List α → Nat → α → List α
  | [], _, _ => []
  | _ :: l, 0, v => v :: l
  | w :: l, i + 1, v => w :: setAt l i v

/-- Puts an element into a list in rising order, after its equals. -/
def insertBy {α : Type} (le : α → α → Bool) (v : α) : List α → List α
  | [] => [v]
  | w :: l => if le w v then w :: insertBy le v l else v :: w :: l

/-- A list in rising order, equals in their own order. -/
def sortBy {α : Type} (le : α → α → Bool) (l : List α) : List α := l.foldl (fun m v => insertBy le v m) []

/-- The numbers lo, lo + 1, ..., `n` of them. -/
def upFrom (lo n : Nat) : List Nat := (List.range n).map (lo + ·)

/-- A set of numbers as a rising list without repeats: `k` put in. -/
def setIns : List Nat → Nat → List Nat
  | [], k => [k]
  | i :: l, k => if k < i then k :: i :: l else if k = i then i :: l else i :: setIns l k

/-- A set of numbers: `k` taken out. -/
def setDel (l : List Nat) (k : Nat) : List Nat := l.filter (fun i => i != k)

/-- The first element a test accepts, and the list without it. -/
def takeFirst {α β : Type} (p : α → Option β) : List α → Option (β × List α)
  | [] => none
  | a :: l =>
    match p a with
    | some v => some (v, l)
    | none => match takeFirst p l with
      | some (v, r) => some (v, a :: r)
      | none => none

/-- Repeats a state change over a list. -/
def forEach {α σ : Type} (l : List α) (f : α → σ → σ) (s : σ) : σ := l.foldl (fun t a => f a t) s

/-- The number of bits set in the low `n` bits. -/
def popCount (n v : Nat) : Nat := ((List.range n).filter (fun i => bit v i)).length

end Sys2Proof.Machine
end

