-- ==== Sys2Proof/Machine/Num.lean ====
section
/-! DEFINITION. The real functions the spec's formulas name, on exact integers: square root, sine, cosine, arc tangent,
base-2 logarithm and exponential, each to far more places than any result keeps (log entry 9). -/

namespace Sys2Proof.Machine

/-- One binary digit of a square root at a time, from bit `k` down. -/
def isqrtGo : Nat → Nat → Nat → Nat
  | 0, n, r => if (r + 1) * (r + 1) ≤ n then r + 1 else r
  | k + 1, n, r => isqrtGo k n (if (r + 2 ^ (k + 1)) * (r + 2 ^ (k + 1)) ≤ n then r + 2 ^ (k + 1) else r)

/-- The largest integer whose square is at most `n`. -/
def isqrt (n : Nat) : Nat := if n = 0 then 0 else isqrtGo (Nat.log2 n / 2 + 1) n 0

/-- The integer nearest to the square root of `y / d`, a value exactly halfway rounding up (05_actuator_drive.md R130). -/
def nearestSqrt (y d : Nat) : Nat := (isqrt (4 * y / d) + 1) / 2

/-- The scale of the fixed-point functions below: results are in units of 2^-40. -/
def fxOne : Int := 1099511627776

/-- 2 pi in units of 2^-40. -/
def fxTwoPi : Int := 6908435304715

/-- Product of two fixed-point numbers. -/
def fxMul (a b : Int) : Int := a * b / fxOne

/-- Taylor sum of the sine: `x` at most pi / 2. -/
def fxSinSmall (x : Int) : Int :=
  let x2 := fxMul x x
  let go := fun (acc : Int) (k : Int) => fxOne - fxMul x2 acc / (k * (k + 1))
  fxMul x ([20, 18, 16, 14, 12, 10, 8, 6, 4, 2].foldl go fxOne)

/-- sin(2 pi n / d) in units of 2^-40. -/
def sinTurn (n : Int) (d : Nat) : Int :=
  let m := 4 * (n % (d : Int))
  let q := m / (d : Int)
  let r := m % (d : Int)
  let ang := fun (r : Int) => fxTwoPi * r / (4 * (d : Int))
  if q = 0 then fxSinSmall (ang r)
  else if q = 1 then fxSinSmall (ang ((d : Int) - r))
  else if q = 2 then -fxSinSmall (ang r)
  else -fxSinSmall (ang ((d : Int) - r))

/-- cos(2 pi n / d) in units of 2^-40. -/
def cosTurn (n : Int) (d : Nat) : Int := sinTurn (4 * n + d) (4 * d)

/-- Arc tangent of `x` (units of 2^-40, at most 1 in size) by its series after two halvings of the angle. -/
def fxAtanHalf (x : Int) : Int :=
  -- tan(a / 2) = x / (1 + sqrt(1 + x^2))
  x * fxOne / (fxOne + (isqrt ((fxOne * fxOne + x * x).toNat) : Int))

def fxAtanSeries (x : Int) : Int :=
  let x2 := fxMul x x
  let go := fun (acc : Int) (k : Int) => fxOne / k - fxMul x2 acc
  fxMul x ([33, 31, 29, 27, 25, 23, 21, 19, 17, 15, 13, 11, 9, 7, 5, 3, 1].foldl go 0)

/-- The arc tangent of `y / x` in radians, units of 2^-40, in (-pi, pi]. -/
def fxAtan2 (y x : Int) : Int :=
  let base := fun (y x : Int) => 4 * fxAtanSeries (fxAtanHalf (fxAtanHalf (y * fxOne / x)))
  if x = 0 ∧ y = 0 then 0
  else if y.natAbs ≤ x.natAbs then
    let a := base y x
    if 0 < x then a else if 0 ≤ y then a + fxTwoPi / 2 else a - fxTwoPi / 2
  else
    let a := base x y
    if 0 < y then fxTwoPi / 4 - a else -(fxTwoPi / 4) - a

/-- Forty binary digits of the logarithm of `x` in [1, 2), by repeated squaring. -/
def log2Go : Nat → Int → Int → Int
  | 0, _, acc => acc
  | k + 1, x, acc =>
    let s := fxMul x x
    if 2 * fxOne ≤ s then log2Go k (s / 2) (2 * acc + 1) else log2Go k s (2 * acc)

/-- log2(n / d) in units of 2^-40, for n and d above 0. -/
def fxLog2 (n d : Nat) : Int :=
  let e : Int := (Nat.log2 n : Int) - (Nat.log2 d : Int)
  let x : Int := if 0 ≤ e then (n : Int) * fxOne / ((d * 2 ^ e.toNat : Nat) : Int)
    else ((n * 2 ^ (-e).toNat : Nat) : Int) * fxOne / (d : Int)
  let (x, e) := if x < fxOne then (2 * x, e - 1) else (x, e)
  e * fxOne + log2Go 40 x 0

/-- Product of two numbers in units of 2^-72. -/
def fxMulW (a b : Int) : Int := a * b / 4722366482869645213696

/-- exp(x) for x in units of 2^-40, by e^x = (e^(x / 2^8))^(2^8), carried in units of 2^-72. -/
def fxExp (x : Int) : Int :=
  let y := x * 16777216
  let e := ([12, 11, 10, 9, 8, 7, 6, 5, 4, 3, 2, 1] : List Int).foldl
    (fun acc k => 4722366482869645213696 + fxMulW y acc / k) 4722366482869645213696
  (List.range 8).foldl (fun v _ => fxMulW v v) e / 4294967296

/-- A fixed-point number rounded half to even. -/
def fxRound (x : Int) : Int := rhe x 40

end Sys2Proof.Machine
end

