-- ==== Sys2Proof/Config.lean ====
section
/-! DEFINITION. What an implementation fixes and the spec leaves open, and the free values: constants without a body,
so nothing proved can rest on what they are. -/

namespace Sys2Proof.Config

/-- A free value, by the agent that draws it (0 string A, 1 string B, 2 the tiles, 3 the ports of string A, 4 those of
string B) and the count of values it has drawn.
Used where the spec states that a result is known only within a bound, or states none (log entry 2). -/
opaque freeValue : Nat → Nat → BitVec 32

/-- The module serial, a fuse value equal in both strings (20_register_map.md R447; log entry 4). -/
opaque serial : BitVec 64

/-- Byte `i` of string `x`'s device secret, a fuse value (R417; log entry 4). -/
opaque deviceSecret : Nat → Nat → Byte

/-- Byte `i` of the module's transport key, a fuse value (R417; log entry 4). -/
opaque transportKey : Nat → Byte

/-- Byte `i` of the SHA-256 digest of root public key `k` that the boot ROM holds (R414; log entry 4). -/
opaque rootDigest : Nat → Nat → Byte

/-- Which of two equally good orientations of a loop the routing solver takes, by the lowest-indexed cell of the loop, where that cell
is UNSET (09_routing_crosstalk.md R222; log entry 20). -/
opaque freeOrient : Nat → Bool

/-- Byte `i` of the boot ROM, whose contents the spec does not give (18_reset_boot_security.md R412; log entry 4). -/
opaque romByte : Nat → Byte

/-- The identification of a string's QSPI flash (20_register_map.md R450; log entry 4). -/
opaque jedec : Nat → BitVec 24

end Sys2Proof.Config
end

