-- ==== Sys2Proof/Machine/RegNames.lean ====
section
/-! DEFINITION. The offset of every register and the place of every field, named as spec/ names them. A register of a string
is named by its BAR0 offset (20_register_map.md R443, R444), a register of a tile by its offset in block TILEn (R149, R169, R185, R259, R282). -/

namespace Sys2Proof.Machine

/-- A field of a 32-bit register: its lowest bit and its width. -/
structure Fld where
  lo : Nat
  w : Nat
  deriving DecidableEq, Repr

namespace Reg

abbrev SEQ_START : Nat := 0x2000
abbrev SEQ_CORESTAT (i : Nat) : Nat := 0x2010 + 4 * i
abbrev SEQ_TRAPLOG (i : Nat) : Nat := 0x2020 + 4 * i
abbrev SEQ_TRAPPC (i : Nat) : Nat := 0x2030 + 4 * i
abbrev RING_DB (i : Nat) : Nat := 0x1000 + 4 * i
abbrev RING_STAT (i : Nat) : Nat := 0x1040 + 4 * i
abbrev RING_FAULT (i : Nat) : Nat := 0x1080 + 4 * i
abbrev RING_LSEQ_L (i : Nat) : Nat := 0x10C0 + 8 * i
abbrev RING_LSEQ_H (i : Nat) : Nat := 0x10C4 + 8 * i
abbrev RING_CQBASE_L (i : Nat) : Nat := 0x1140 + 8 * i
abbrev RING_CQBASE_H (i : Nat) : Nat := 0x1144 + 8 * i
abbrev RING_CQCFG (i : Nat) : Nat := 0x11C0 + 4 * i
abbrev RING_GSEQ_L : Nat := 0x1200
abbrev RING_GSEQ_H : Nat := 0x1204
abbrev RING_COMMIT_L : Nat := 0x1208
abbrev RING_COMMIT_H : Nat := 0x120C
abbrev RING_CLAIM : Nat := 0x1210
abbrev RING_EN : Nat := 0x1214
abbrev RING_DISC : Nat := 0x1218
abbrev FAB_STAT : Nat := 0x21000
abbrev FAB_ERR : Nat := 0x21004
abbrev FAB_RXLEN : Nat := 0x21008
abbrev FAB_ERRIDX : Nat := 0x21018
abbrev FAB_SVN : Nat := 0x2100C
abbrev FAB_ID_L : Nat := 0x21010
abbrev FAB_ID_H : Nat := 0x21014
abbrev FAB_DIGEST (i : Nat) : Nat := 0x21020 + 4 * i
abbrev TILE_ACFG : Nat := 0x0
abbrev TILE_MODE : Nat := 0x4
abbrev TILE_VLIN : Nat := 0x8
abbrev TILE_PLIM : Nat := 0x10
abbrev TILE_ODBUD : Nat := 0x14
abbrev TILE_PLIMEFF : Nat := 0x18
abbrev TILE_PSUM : Nat := 0x1C
abbrev TILE_PPEAK : Nat := 0x20
abbrev TILE_PMEAS : Nat := 0x24
abbrev TILE_ASTAT : Nat := 0x28
abbrev TILE_AFLT : Nat := 0x2C
abbrev TILE_BANKSTAT (i : Nat) : Nat := 0x30 + 4 * i
abbrev TILE_BOWSHAPE (i : Nat) : Nat := 0x40 + 4 * i
abbrev TILE_RETERR (i : Nat) : Nat := 0x80 + 4 * i
abbrev TILE_PCFG : Nat := 0x100
abbrev TILE_PBIAS (i : Nat) : Nat := 0x104 + 4 * i
abbrev TILE_PSTAT : Nat := 0x10C
abbrev TILE_WINSUM : Nat := 0x110
abbrev TILE_OVRSUM : Nat := 0x114
abbrev TILE_TRGOVR : Nat := 0x118
abbrev TILE_THMEN : Nat := 0x11C
abbrev TILE_THM (i : Nat) : Nat := 0x120 + 4 * i
abbrev TILE_MTRIG (i : Nat) : Nat := 0x180 + 4 * i
abbrev HKA_CFG : Nat := 0x1C000
abbrev HKA_STAT : Nat := 0x1C004
abbrev HKA_RES (i : Nat) : Nat := 0x1C040 + 4 * i
abbrev TILE_DRNCFG : Nat := 0x200
abbrev TILE_DRNNULL : Nat := 0x210
abbrev TILE_DRNNPER : Nat := 0x214
abbrev TILE_DRNSTAT : Nat := 0x218
abbrev TILE_DRNCLIP : Nat := 0x21C
abbrev TILE_DRNOBSCHG : Nat := 0x220
abbrev TILE_DRNRSEQ : Nat := 0x224
abbrev TILE_DRNROT (i : Nat) : Nat := 0x240 + 4 * i
abbrev DRN_CFG : Nat := 0x6000
abbrev DRN_RXSTAT (i : Nat) : Nat := 0x6010 + 4 * i
abbrev DRN_LASTRSEQ (i : Nat) : Nat := 0x6030 + 4 * i
abbrev DRN_NULLCNT : Nat := 0x6050
abbrev ENG_CFG : Nat := 0x4000
abbrev ENG_ROLE (i : Nat) : Nat := 0x4010 + 4 * i
abbrev ENG_LAT (i : Nat) : Nat := 0x40B0 + 4 * i
abbrev ENG_LOAD (i : Nat) : Nat := 0x4140 + 4 * i
abbrev ENG_MISS : Nat := 0x41D0
abbrev ENG_STAT : Nat := 0x41D4
abbrev ENG_HIST : Nat := 0x41D8
abbrev ENG_LSTAT : Nat := 0x41DC
abbrev ENG_LOSTCNT : Nat := 0x41E0
abbrev ENGMAP_BLK (i : Nat) : Nat := 0x5000 + 4 * i
abbrev RTE_CFG : Nat := 0x22000
abbrev RTE_STAT : Nat := 0x22004
abbrev RTE_LAST : Nat := 0x22008
abbrev RTE_CNT : Nat := 0x2200C
abbrev RTE_TSOLVE : Nat := 0x22010
abbrev RTE_MISS : Nat := 0x22014
abbrev XT_CFG : Nat := 0x23000
abbrev XT_STAT : Nat := 0x23004
abbrev XT_SATCNT : Nat := 0x23008
abbrev XT_BIND : Nat := 0x2300C
abbrev XT_MSEL : Nat := 0x23010
abbrev XT_MSTAT : Nat := 0x23014
abbrev PLAN_CFG : Nat := 0x10000
abbrev PLAN_ARMSTAT : Nat := 0x10004
abbrev PLAN_SBUF : Nat := 0x10008
abbrev PLAN_ARMSEQ : Nat := 0x1000C
abbrev PLAN_NEXT : Nat := 0x10010
abbrev PLAN_STROKES : Nat := 0x10014
abbrev PLAN_LATE : Nat := 0x10018
abbrev PLAN_CANCEL : Nat := 0x1001C
abbrev PLAN_CALCFG : Nat := 0x10020
abbrev PLAN_CALSTAT : Nat := 0x10024
abbrev PLAN_CALSKIP : Nat := 0x10028
abbrev PLAN_CALNEXT_NS : Nat := 0x1002C
abbrev PLAN_CALNEXT_SL : Nat := 0x10030
abbrev TILE_SBUF (i : Nat) : Nat := 0x300 + 4 * i
abbrev TILE_SBUFT (i : Nat) : Nat := 0x310 + 4 * i
abbrev TILE_SBUFSEQ (i : Nat) : Nat := 0x320 + 4 * i
abbrev TILE_STRKCNT : Nat := 0x330
abbrev CAL_CFG : Nat := 0x11000
abbrev CAL_CFG2 : Nat := 0x11004
abbrev CAL_STAT : Nat := 0x11008
abbrev CAL_CSEQ : Nat := 0x1100C
abbrev CAL_DIGEST (i : Nat) : Nat := 0x11010 + 4 * i
abbrev CAL_NCONV : Nat := 0x11030
abbrev CAL_NACT : Nat := 0x11034
abbrev CAL_SAMP : Nat := 0x11038
abbrev CAL_DROP : Nat := 0x1103C
abbrev TILE_POFF (i : Nat) : Nat := 0x400 + 4 * i
abbrev TILE_CALSTAT : Nat := 0x800
abbrev RED_CAPOSTAT : Nat := 0x12000
abbrev RED_CFG : Nat := 0x12004
abbrev RED_CTL : Nat := 0x12008
abbrev RED_SWAP : Nat := 0x1200C
abbrev RED_HEALTH : Nat := 0x12010
abbrev RED_PHEALTH : Nat := 0x12014
abbrev RED_JOIN : Nat := 0x12018
abbrev RED_XFER : Nat := 0x1201C
abbrev RED_XFERFR : Nat := 0x12020
abbrev RED_CNT : Nat := 0x12024
abbrev RED_VERD : Nat := 0x12028
abbrev RED_MM : Nat := 0x1202C
abbrev RED_MMCODE : Nat := 0x12030
abbrev RED_MMFR : Nat := 0x12034
abbrev RED_CMPERR (i : Nat) : Nat := 0x12040 + 4 * i
abbrev BRG_STAT : Nat := 0x1F000
abbrev BRG_CNT : Nat := 0x1F004
abbrev ETH_CFG (i : Nat) : Nat := 0x13000 + 4096 * i
abbrev ETH_MAC_L (i : Nat) : Nat := 0x13004 + 4096 * i
abbrev ETH_MAC_H (i : Nat) : Nat := 0x13008 + 4096 * i
abbrev ETH_IP4 (i : Nat) : Nat := 0x1300C + 4096 * i
abbrev ETH_IP6 (i : Nat) (j : Nat) : Nat := 0x13010 + 4096 * i + 4 * j
abbrev ETH_STAT (i : Nat) : Nat := 0x13020 + 4096 * i
abbrev ETH_RXCNT (i : Nat) : Nat := 0x13024 + 4096 * i
abbrev ETH_POLCFG (i : Nat) (j : Nat) : Nat := 0x13040 + 4096 * i + 4 * j
abbrev ETH_POLPIR (i : Nat) (j : Nat) : Nat := 0x13050 + 4096 * i + 4 * j
abbrev ETH_POLBS (i : Nat) (j : Nat) : Nat := 0x13060 + 4096 * i + 4 * j
abbrev ETH_POLTOK (i : Nat) (j : Nat) : Nat := 0x130A0 + 4096 * i + 4 * j
abbrev ETH_POLG (i : Nat) (j : Nat) : Nat := 0x13080 + 4096 * i + 4 * j
abbrev ETH_POLYR (i : Nat) (j : Nat) : Nat := 0x13090 + 4096 * i + 4 * j
abbrev ETH_QCFG (i : Nat) (j : Nat) : Nat := 0x13100 + 4096 * i + 4 * j
abbrev ETH_Q6CAP (i : Nat) : Nat := 0x13120 + 4096 * i
abbrev ETH_QSTAT (i : Nat) (j : Nat) : Nat := 0x13140 + 4096 * i + 4 * j
abbrev ETH_QSAMP (i : Nat) (j : Nat) : Nat := 0x13160 + 4096 * i + 4 * j
abbrev ETH_QMAX (i : Nat) (j : Nat) : Nat := 0x13180 + 4096 * i + 4 * j
abbrev ETH_QDROP (i : Nat) (j : Nat) : Nat := 0x131A0 + 4096 * i + 4 * j
abbrev ETH_SAMPCFG (i : Nat) : Nat := 0x131C0 + 4096 * i
abbrev ETH_BUF (i : Nat) : Nat := 0x131C4 + 4096 * i
abbrev ETH_GCLCFG (i : Nat) : Nat := 0x13200 + 4096 * i
abbrev ETH_GCLBASE_NS (i : Nat) : Nat := 0x13204 + 4096 * i
abbrev ETH_GCLBASE_SL (i : Nat) : Nat := 0x13208 + 4096 * i
abbrev ETH_GCLCYC (i : Nat) : Nat := 0x1320C + 4096 * i
abbrev ETH_GCL (i : Nat) (j : Nat) : Nat := 0x13300 + 4096 * i + 4 * j
abbrev ICT_CFG : Nat := 0x24000
abbrev ICT_EPOCH : Nat := 0x24004
abbrev ICT_NEXT (i : Nat) : Nat := 0x24010 + 4 * i
abbrev ICT_CNT : Nat := 0x24020
abbrev ICT_CNT2 : Nat := 0x24024
abbrev ICT_TGAP : Nat := 0x24028
abbrev ICT_TSTR (i : Nat) : Nat := 0x24040 + 4 * i
abbrev ICT_TSRC (i : Nat) : Nat := 0x24080 + 4 * i
abbrev ICT_TSEQ (i : Nat) : Nat := 0x240C0 + 4 * i
abbrev ICT_DST (i : Nat) (j : Nat) : Nat := 0x24100 + 32 * i + 4 * j
abbrev TIME_SEC_H : Nat := 0x15000
abbrev TIME_SEC_L : Nat := 0x15004
abbrev TIME_NS : Nat := 0x15008
abbrev TIME_FNS : Nat := 0x1500C
abbrev TIME_CFG : Nat := 0x15010
abbrev TIME_THR : Nat := 0x15014
abbrev TIME_SERVO : Nat := 0x15018
abbrev TIME_OFFS : Nat := 0x1501C
abbrev TIME_MON : Nat := 0x1502C
abbrev TIME_PART : Nat := 0x15030
abbrev TIME_STAT : Nat := 0x15020
abbrev TIME_RATE : Nat := 0x15024
abbrev TIME_INT : Nat := 0x15028
abbrev TIME_CTL : Nat := 0x15034
abbrev TIME_LAT (i : Nat) : Nat := 0x15038 + 4 * i
abbrev TIME_PTPCFG : Nat := 0x15040
abbrev TIME_PTPSTAT : Nat := 0x15044
abbrev TIME_TXQ (i : Nat) : Nat := 0x15050 + 16 * i
abbrev TIME_TXID (i : Nat) : Nat := 0x15054 + 16 * i
abbrev TIME_TXNS (i : Nat) : Nat := 0x15058 + 16 * i
abbrev TIME_TXSL (i : Nat) : Nat := 0x1505C + 16 * i
abbrev TIME_TOUTCFG (i : Nat) : Nat := 0x15080 + 16 * i
abbrev TIME_TOUTNS (i : Nat) : Nat := 0x15084 + 16 * i
abbrev TIME_TOUTSL (i : Nat) : Nat := 0x15088 + 16 * i
abbrev TIME_TOUTPER (i : Nat) : Nat := 0x1508C + 16 * i
abbrev TIME_TCAPCFG (i : Nat) : Nat := 0x150C0 + 16 * i
abbrev TIME_TCAPNS (i : Nat) : Nat := 0x150C4 + 16 * i
abbrev TIME_TCAPSL (i : Nat) : Nat := 0x150C8 + 16 * i
abbrev TIME_TCAPFNS (i : Nat) : Nat := 0x150CC + 16 * i
abbrev TIME_TILE : Nat := 0x150F0
abbrev EVF_P2C (i : Nat) (j : Nat) : Nat := 0x16000 + 8 * i + 4 * j
abbrev EVF_C2K (i : Nat) (j : Nat) : Nat := 0x16800 + 24 * i + 4 * j
abbrev EVF_CH (i : Nat) : Nat := 0x16E00 + 4 * i
abbrev EVF_CFG : Nat := 0x16F00
abbrev EVF_GRP : Nat := 0x16F04
abbrev EVF_FIRE : Nat := 0x16F08
abbrev EVF_CSTAT : Nat := 0x16F0C
abbrev EVF_SEEN (i : Nat) : Nat := 0x16F10 + 4 * i
abbrev EVF_LEVEL (i : Nat) : Nat := 0x16F18 + 4 * i
abbrev EVF_KOVR (i : Nat) : Nat := 0x16F20 + 4 * i
abbrev EVF_KCOINC (i : Nat) : Nat := 0x16F40 + 4 * i
abbrev EVF_CNT : Nat := 0x16F60
abbrev MBX_DATA (i : Nat) (j : Nat) : Nat := 0x17000 + 64 * i + 4 * j
abbrev MBX_STAT (i : Nat) : Nat := 0x17400 + 4 * i
abbrev MBX_CFG (i : Nat) : Nat := 0x17440 + 4 * i
abbrev MBX_HSTAGE (i : Nat) : Nat := 0x17480 + 4 * i
abbrev MBX_HPOST : Nat := 0x174C0
abbrev MBX_HTAKE : Nat := 0x174C4
abbrev MBX_HRES : Nat := 0x174C8
abbrev MBX_EPRST : Nat := 0x174CC
abbrev ALV_CFG : Nat := 0x18000
abbrev ALV_HBEAT : Nat := 0x18004
abbrev ALV_HBSTAT : Nat := 0x18008
abbrev ALV_SUM : Nat := 0x1800C
abbrev ALV_FIRSTFAULT : Nat := 0x18010
abbrev ALV_FIRSTINFO : Nat := 0x18014
abbrev ALV_FIRSTNS : Nat := 0x18018
abbrev ALV_FIRSTSL : Nat := 0x1801C
abbrev ALV_LOG : Nat := 0x18020
abbrev ALV_PEND (i : Nat) : Nat := 0x18040 + 4 * i
abbrev ALV_SRC (i : Nat) : Nat := 0x18100 + 4 * i
abbrev PWR_STAT : Nat := 0x19000
abbrev PWR_REQ : Nat := 0x19004
abbrev PWR_CFG : Nat := 0x19008
abbrev PWR_WAKENS : Nat := 0x1900C
abbrev PWR_WAKESL : Nat := 0x19010
abbrev PWR_MPLIM : Nat := 0x19014
abbrev PWR_VACTLIM : Nat := 0x19018
abbrev PWR_AVS : Nat := 0x1901C
abbrev PWR_STAGE : Nat := 0x19020
abbrev PWR_VIN : Nat := 0x19024
abbrev PWR_SDOM (i : Nat) : Nat := 0x19028 + 4 * i
abbrev PWR_TDOM (i : Nat) : Nat := 0x19034 + 4 * i
abbrev PWR_CTL : Nat := 0x1903C
abbrev THM_CFG : Nat := 0x1A000
abbrev THM_LVL : Nat := 0x1A004
abbrev THM_TRES (i : Nat) : Nat := 0x1A008 + 4 * i
abbrev THM_TILE (i : Nat) : Nat := 0x1A028 + 4 * i
abbrev THM_STAT : Nat := 0x1A048
abbrev THM_PEAK : Nat := 0x1A04C
abbrev THM_TMASK (i : Nat) : Nat := 0x1A050 + 4 * i
abbrev THM_SENS (i : Nat) : Nat := 0x1A100 + 4 * i
abbrev AGE_CFG : Nat := 0x1B000
abbrev AGE_THR : Nat := 0x1B004
abbrev AGE_CAP : Nat := 0x1B008
abbrev AGE_STAT : Nat := 0x1B00C
abbrev AGE_CNT : Nat := 0x1B010
abbrev AGE_NLOW : Nat := 0x1B014
abbrev GEN_RSTCAUSE : Nat := 0x100
abbrev GEN_RST : Nat := 0x104
abbrev GEN_ERST (i : Nat) : Nat := 0x108 + 4 * i
abbrev GEN_RSTSTAT : Nat := 0x110
abbrev PEG_STAT : Nat := 0x1D000
abbrev PEG_WMAX : Nat := 0x1D004
abbrev PEG_WSEL : Nat := 0x1D008
abbrev PEG_WCNT : Nat := 0x1D00C
abbrev SEC_BOOT : Nat := 0x1E000
abbrev SEC_FWSVN : Nat := 0x1E004
abbrev SEC_FWFLOOR : Nat := 0x1E008
abbrev SEC_DSFLOOR : Nat := 0x1E00C
abbrev SEC_KYFLOOR : Nat := 0x1E010
abbrev SEC_BOOTCNT : Nat := 0x1E014
abbrev SEC_KEYS : Nat := 0x1E018
abbrev SEC_FWMEAS (i : Nat) : Nat := 0x1E020 + 4 * i
abbrev SEC_IDPK (i : Nat) : Nat := 0x1E040 + 4 * i
abbrev SEC_DBGNONCE (i : Nat) : Nat := 0x1E060 + 4 * i
abbrev GEN_ID : Nat := 0x0
abbrev GEN_REV : Nat := 0x4
abbrev GEN_STRAP : Nat := 0x8
abbrev GEN_SERIAL_L : Nat := 0xC
abbrev GEN_SERIAL_H : Nat := 0x10
abbrev GEN_CAPS : Nat := 0x14
abbrev GEN_CAPS2 : Nat := 0x18
abbrev GEN_BLKPRES (i : Nat) : Nat := 0x20 + 4 * i
abbrev DBG_STAT : Nat := 0x20000
abbrev DBG_CTL : Nat := 0x20004
abbrev DBG_ADDR : Nat := 0x20008
abbrev DBG_DATA : Nat := 0x2000C
abbrev PCIE_STAT : Nat := 0x25000
abbrev PCIE_CNT : Nat := 0x25004
abbrev PCIE_ERR : Nat := 0x25008
abbrev QSPI_STAT : Nat := 0x26000
abbrev QSPI_JEDEC : Nat := 0x26004
abbrev QSPI_CNT : Nat := 0x26008
abbrev PSTG_PHASE : Nat := 0x27000
abbrev PSTG_LINK : Nat := 0x27004
abbrev TLK_STAT (i : Nat) : Nat := 0x28000 + 4096 * i
abbrev TLK_ERR (i : Nat) : Nat := 0x28004 + 4096 * i
abbrev TLK_DISC (i : Nat) : Nat := 0x28008 + 4096 * i
abbrev TLK_CODES (i : Nat) : Nat := 0x2800C + 4096 * i
abbrev SRB_SCRUB (i : Nat) : Nat := 0x30000 + 4096 * i
abbrev SRB_CNT (i : Nat) : Nat := 0x30004 + 4096 * i
abbrev SRB_LASTERR (i : Nat) : Nat := 0x30008 + 4096 * i

end Reg

namespace F

abbrev SEQ_START.GO0 : Fld := ⟨0, 1⟩
abbrev SEQ_START.GO : Fld := ⟨1, 3⟩
abbrev SEQ_CORESTAT.PL : Fld := ⟨0, 2⟩
abbrev SEQ_CORESTAT.S : Fld := ⟨2, 1⟩
abbrev SEQ_CORESTAT.TF : Fld := ⟨3, 1⟩
abbrev SEQ_CORESTAT.TS : Fld := ⟨4, 1⟩
abbrev SEQ_CORESTAT.RUN : Fld := ⟨5, 3⟩
abbrev SEQ_CORESTAT.RING : Fld := ⟨8, 4⟩
abbrev SEQ_CORESTAT.PCX : Fld := ⟨12, 1⟩
abbrev SEQ_TRAPLOG.LAST : Fld := ⟨0, 22⟩
abbrev SEQ_TRAPLOG.FCNT : Fld := ⟨22, 10⟩
abbrev SEQ_TRAPPC.PC : Fld := ⟨0, 32⟩
abbrev RING_DB.PROD : Fld := ⟨0, 16⟩
abbrev RING_DB.CMD : Fld := ⟨16, 2⟩
abbrev RING_STAT.CONS : Fld := ⟨0, 16⟩
abbrev RING_STAT.EN : Fld := ⟨16, 1⟩
abbrev RING_STAT.FENCE : Fld := ⟨17, 1⟩
abbrev RING_STAT.BUSY : Fld := ⟨18, 1⟩
abbrev RING_STAT.STBY : Fld := ⟨19, 1⟩
abbrev RING_STAT.WAITB : Fld := ⟨20, 1⟩
abbrev RING_FAULT.CODE : Fld := ⟨0, 8⟩
abbrev RING_FAULT.SLOT : Fld := ⟨8, 8⟩
abbrev RING_FAULT.STATUS : Fld := ⟨16, 3⟩
abbrev RING_LSEQ_L.SEQ : Fld := ⟨0, 32⟩
abbrev RING_LSEQ_H.SEQ : Fld := ⟨0, 32⟩
abbrev RING_CQBASE_L.ADDR : Fld := ⟨0, 32⟩
abbrev RING_CQBASE_H.ADDR : Fld := ⟨0, 32⟩
abbrev RING_CQCFG.EN : Fld := ⟨0, 1⟩
abbrev RING_CQCFG.CNT : Fld := ⟨16, 16⟩
abbrev RING_GSEQ_L.SEQ : Fld := ⟨0, 32⟩
abbrev RING_GSEQ_H.SEQ : Fld := ⟨0, 32⟩
abbrev RING_COMMIT_L.SEQ : Fld := ⟨0, 32⟩
abbrev RING_COMMIT_H.SEQ : Fld := ⟨0, 32⟩
abbrev RING_CLAIM.RING : Fld := ⟨0, 4⟩
abbrev RING_CLAIM.SLOT : Fld := ⟨4, 8⟩
abbrev RING_CLAIM.VALID : Fld := ⟨31, 1⟩
abbrev RING_EN.EN : Fld := ⟨0, 16⟩
abbrev RING_DISC.DBREF : Fld := ⟨0, 16⟩
abbrev RING_DISC.STBYWR : Fld := ⟨16, 16⟩
abbrev FAB_STAT.STATE : Fld := ⟨0, 2⟩
abbrev FAB_STAT.SRC : Fld := ⟨2, 1⟩
abbrev FAB_STAT.RING : Fld := ⟨3, 4⟩
abbrev FAB_STAT.TOPO : Fld := ⟨8, 8⟩
abbrev FAB_STAT.STRICT : Fld := ⟨16, 1⟩
abbrev FAB_ERR.CODE : Fld := ⟨0, 8⟩
abbrev FAB_ERR.OFFSET : Fld := ⟨8, 24⟩
abbrev FAB_RXLEN.LEN : Fld := ⟨0, 21⟩
abbrev FAB_ERRIDX.IDX : Fld := ⟨0, 32⟩
abbrev FAB_SVN.VAL : Fld := ⟨0, 32⟩
abbrev FAB_ID_L.VAL : Fld := ⟨0, 32⟩
abbrev FAB_ID_H.VAL : Fld := ⟨0, 32⟩
abbrev FAB_DIGEST.VAL : Fld := ⟨0, 32⟩
abbrev TILE_ACFG.STRIP : Fld := ⟨0, 1⟩
abbrev TILE_ACFG.RCEN : Fld := ⟨1, 1⟩
abbrev TILE_ACFG.RFILT : Fld := ⟨2, 3⟩
abbrev TILE_MODE.GRP : Fld := ⟨0, 32⟩
abbrev TILE_VLIN.GRP : Fld := ⟨0, 32⟩
abbrev TILE_PLIM.MW : Fld := ⟨0, 15⟩
abbrev TILE_ODBUD.MW : Fld := ⟨0, 15⟩
abbrev TILE_PLIMEFF.MW : Fld := ⟨0, 15⟩
abbrev TILE_PLIMEFF.THR : Fld := ⟨15, 1⟩
abbrev TILE_PSUM.UW : Fld := ⟨0, 25⟩
abbrev TILE_PPEAK.UW : Fld := ⟨0, 25⟩
abbrev TILE_PMEAS.MW : Fld := ⟨0, 16⟩
abbrev TILE_ASTAT.GUARD : Fld := ⟨0, 1⟩
abbrev TILE_ASTAT.GUARDS : Fld := ⟨1, 1⟩
abbrev TILE_ASTAT.ODCLIPS : Fld := ⟨2, 1⟩
abbrev TILE_ASTAT.MODEREF : Fld := ⟨3, 1⟩
abbrev TILE_ASTAT.HELDCNT : Fld := ⟨16, 16⟩
abbrev TILE_AFLT.NSHORT : Fld := ⟨0, 12⟩
abbrev TILE_AFLT.NCOMP : Fld := ⟨16, 12⟩
abbrev TILE_BANKSTAT.POS : Fld := ⟨0, 9⟩
abbrev TILE_BANKSTAT.VHTROK : Fld := ⟨9, 1⟩
abbrev TILE_BANKSTAT.SWEEPS : Fld := ⟨16, 16⟩
abbrev TILE_BOWSHAPE.G : Fld := ⟨0, 8⟩
abbrev TILE_BOWSHAPE.N1 : Fld := ⟨8, 3⟩
abbrev TILE_BOWSHAPE.N2 : Fld := ⟨12, 3⟩
abbrev TILE_BOWSHAPE.VALID : Fld := ⟨31, 1⟩
abbrev TILE_RETERR.GRP : Fld := ⟨0, 32⟩
abbrev TILE_PCFG.RATE0 : Fld := ⟨0, 2⟩
abbrev TILE_PCFG.RATE1 : Fld := ⟨2, 2⟩
abbrev TILE_PCFG.WDEB : Fld := ⟨4, 3⟩
abbrev TILE_PCFG.OTEST : Fld := ⟨7, 1⟩
abbrev TILE_PBIAS.CODE : Fld := ⟨0, 8⟩
abbrev TILE_PBIAS.SETTLING : Fld := ⟨8, 1⟩
abbrev TILE_PSTAT.NOVR : Fld := ⟨0, 9⟩
abbrev TILE_PSTAT.NPOPEN : Fld := ⟨9, 9⟩
abbrev TILE_PSTAT.NPSHORT : Fld := ⟨18, 9⟩
abbrev TILE_WINSUM.GRP : Fld := ⟨0, 32⟩
abbrev TILE_OVRSUM.GRP : Fld := ⟨0, 32⟩
abbrev TILE_TRGOVR.CNT : Fld := ⟨0, 16⟩
abbrev TILE_THMEN.EN : Fld := ⟨0, 8⟩
abbrev TILE_THM.RES : Fld := ⟨0, 24⟩
abbrev TILE_THM.VALID : Fld := ⟨24, 1⟩
abbrev TILE_THM.OPEN : Fld := ⟨25, 1⟩
abbrev TILE_MTRIG.TSRC : Fld := ⟨0, 1⟩
abbrev TILE_MTRIG.TACT : Fld := ⟨1, 11⟩
abbrev TILE_MTRIG.TDLY : Fld := ⟨12, 8⟩
abbrev TILE_MTRIG.TKIND : Fld := ⟨20, 2⟩
abbrev HKA_CFG.REF : Fld := ⟨0, 2⟩
abbrev HKA_CFG.AVG : Fld := ⟨2, 3⟩
abbrev HKA_CFG.EN : Fld := ⟨16, 16⟩
abbrev HKA_STAT.SETTLED : Fld := ⟨0, 1⟩
abbrev HKA_STAT.REFFAIL : Fld := ⟨1, 1⟩
abbrev HKA_STAT.SCANS : Fld := ⟨16, 16⟩
abbrev HKA_RES.VALUE : Fld := ⟨0, 16⟩
abbrev HKA_RES.UNSETTLED : Fld := ⟨16, 1⟩
abbrev HKA_RES.OVR : Fld := ⟨17, 1⟩
abbrev HKA_RES.STALE : Fld := ⟨18, 1⟩
abbrev TILE_DRNCFG.DEN : Fld := ⟨0, 1⟩
abbrev TILE_DRNCFG.STRKMASK : Fld := ⟨1, 1⟩
abbrev TILE_DRNCFG.UNFITMAX : Fld := ⟨4, 6⟩
abbrev TILE_DRNCFG.RETURN : Fld := ⟨16, 8⟩
abbrev TILE_DRNCFG.DARKMIN : Fld := ⟨24, 8⟩
abbrev TILE_DRNNULL.MASK : Fld := ⟨0, 16⟩
abbrev TILE_DRNNPER.PERIOD : Fld := ⟨0, 16⟩
abbrev TILE_DRNNPER.LEN : Fld := ⟨16, 16⟩
abbrev TILE_DRNSTAT.NVALID : Fld := ⟨0, 12⟩
abbrev TILE_DRNSTAT.NNOOBS : Fld := ⟨12, 12⟩
abbrev TILE_DRNSTAT.NULLACT : Fld := ⟨24, 1⟩
abbrev TILE_DRNCLIP.CNT : Fld := ⟨0, 16⟩
abbrev TILE_DRNOBSCHG.CNT : Fld := ⟨0, 16⟩
abbrev TILE_DRNRSEQ.RSEQ : Fld := ⟨0, 32⟩
abbrev TILE_DRNROT.ROT : Fld := ⟨0, 16⟩
abbrev DRN_CFG.RESMAX : Fld := ⟨0, 16⟩
abbrev DRN_CFG.NREP : Fld := ⟨16, 1⟩
abbrev DRN_RXSTAT.LOST : Fld := ⟨0, 16⟩
abbrev DRN_RXSTAT.BADHDR : Fld := ⟨16, 16⟩
abbrev DRN_LASTRSEQ.RSEQ : Fld := ⟨0, 32⟩
abbrev DRN_NULLCNT.SLOTS : Fld := ⟨0, 16⟩
abbrev DRN_NULLCNT.RESX : Fld := ⟨16, 16⟩
abbrev ENG_CFG.JOBTO : Fld := ⟨0, 8⟩
abbrev ENG_CFG.AUTOSPARE : Fld := ⟨8, 1⟩
abbrev ENG_CFG.KATEN : Fld := ⟨9, 1⟩
abbrev ENG_CFG.KATPER : Fld := ⟨16, 8⟩
abbrev ENG_ROLE.ROLE : Fld := ⟨0, 2⟩
abbrev ENG_ROLE.ACTIVE : Fld := ⟨2, 1⟩
abbrev ENG_ROLE.NBLK : Fld := ⟨8, 10⟩
abbrev ENG_ROLE.FCAUSE : Fld := ⟨20, 4⟩
abbrev ENG_LAT.RATE : Fld := ⟨0, 16⟩
abbrev ENG_LAT.RMIN : Fld := ⟨16, 16⟩
abbrev ENG_LOAD.DEMAND : Fld := ⟨0, 16⟩
abbrev ENG_LOAD.BUSY : Fld := ⟨16, 16⟩
abbrev ENG_MISS.LATE : Fld := ⟨0, 16⟩
abbrev ENG_MISS.CATCHUP : Fld := ⟨16, 16⟩
abbrev ENG_STAT.NWORK : Fld := ⟨0, 6⟩
abbrev ENG_STAT.NSPARE : Fld := ⟨6, 6⟩
abbrev ENG_STAT.NFAIL : Fld := ⟨12, 6⟩
abbrev ENG_STAT.NUNPL : Fld := ⟨18, 10⟩
abbrev ENG_HIST.ABSENT : Fld := ⟨0, 16⟩
abbrev ENG_HIST.FETCH : Fld := ⟨16, 16⟩
abbrev ENG_LSTAT.NBLIND : Fld := ⟨0, 15⟩
abbrev ENG_LSTAT.NSAT : Fld := ⟨16, 15⟩
abbrev ENG_LOSTCNT.CNT : Fld := ⟨0, 16⟩
abbrev ENGMAP_BLK.ENGINE : Fld := ⟨0, 6⟩
abbrev ENGMAP_BLK.UNPLACED : Fld := ⟨6, 1⟩
abbrev ENGMAP_BLK.MOVING : Fld := ⟨7, 1⟩
abbrev RTE_CFG.SHAPEM : Fld := ⟨0, 4⟩
abbrev RTE_CFG.SHAPET : Fld := ⟨4, 4⟩
abbrev RTE_STAT.NCONN : Fld := ⟨0, 12⟩
abbrev RTE_STAT.NFCONN : Fld := ⟨12, 12⟩
abbrev RTE_STAT.NPEND : Fld := ⟨24, 7⟩
abbrev RTE_STAT.READY : Fld := ⟨31, 1⟩
abbrev RTE_LAST.NMOVE : Fld := ⟨0, 16⟩
abbrev RTE_LAST.REASON : Fld := ⟨16, 8⟩
abbrev RTE_CNT.SOLVES : Fld := ⟨0, 16⟩
abbrev RTE_CNT.BLOCKED : Fld := ⟨16, 16⟩
abbrev RTE_TSOLVE.LAST : Fld := ⟨0, 16⟩
abbrev RTE_TSOLVE.MAX : Fld := ⟨16, 16⟩
abbrev RTE_MISS.CNT : Fld := ⟨0, 16⟩
abbrev RTE_MISS.SLOT : Fld := ⟨16, 7⟩
abbrev XT_CFG.EN : Fld := ⟨0, 1⟩
abbrev XT_CFG.SFF : Fld := ⟨1, 1⟩
abbrev XT_CFG.NMIN : Fld := ⟨8, 8⟩
abbrev XT_CFG.MINSTEP : Fld := ⟨16, 16⟩
abbrev XT_STAT.NROWS : Fld := ⟨0, 15⟩
abbrev XT_STAT.NSTAGED : Fld := ⟨16, 11⟩
abbrev XT_SATCNT.CNT : Fld := ⟨0, 16⟩
abbrev XT_BIND.FRAME : Fld := ⟨0, 32⟩
abbrev XT_MSEL.FIRST : Fld := ⟨0, 14⟩
abbrev XT_MSEL.COUNT : Fld := ⟨16, 13⟩
abbrev XT_MSTAT.STROKES : Fld := ⟨0, 16⟩
abbrev XT_MSTAT.REJECT : Fld := ⟨16, 16⟩
abbrev PLAN_CFG.HOLD : Fld := ⟨0, 8⟩
abbrev PLAN_CFG.LGRID : Fld := ⟨8, 8⟩
abbrev PLAN_ARMSTAT.NFREE : Fld := ⟨0, 8⟩
abbrev PLAN_ARMSTAT.NOPEN : Fld := ⟨8, 8⟩
abbrev PLAN_ARMSTAT.NSEALED : Fld := ⟨16, 8⟩
abbrev PLAN_ARMSTAT.NARMED : Fld := ⟨24, 8⟩
abbrev PLAN_SBUF.FREE0 : Fld := ⟨0, 3⟩
abbrev PLAN_SBUF.RSV0 : Fld := ⟨3, 1⟩
abbrev PLAN_SBUF.FREE1 : Fld := ⟨4, 3⟩
abbrev PLAN_SBUF.RSV1 : Fld := ⟨7, 1⟩
abbrev PLAN_SBUF.FREE2 : Fld := ⟨8, 3⟩
abbrev PLAN_SBUF.RSV2 : Fld := ⟨11, 1⟩
abbrev PLAN_SBUF.FREE3 : Fld := ⟨12, 3⟩
abbrev PLAN_SBUF.RSV3 : Fld := ⟨15, 1⟩
abbrev PLAN_SBUF.FREE4 : Fld := ⟨16, 3⟩
abbrev PLAN_SBUF.RSV4 : Fld := ⟨19, 1⟩
abbrev PLAN_SBUF.FREE5 : Fld := ⟨20, 3⟩
abbrev PLAN_SBUF.RSV5 : Fld := ⟨23, 1⟩
abbrev PLAN_SBUF.FREE6 : Fld := ⟨24, 3⟩
abbrev PLAN_SBUF.RSV6 : Fld := ⟨27, 1⟩
abbrev PLAN_SBUF.FREE7 : Fld := ⟨28, 3⟩
abbrev PLAN_SBUF.RSV7 : Fld := ⟨31, 1⟩
abbrev PLAN_ARMSEQ.SEQ : Fld := ⟨0, 32⟩
abbrev PLAN_NEXT.SLOT : Fld := ⟨0, 7⟩
abbrev PLAN_NEXT.VALID : Fld := ⟨31, 1⟩
abbrev PLAN_STROKES.LO : Fld := ⟨0, 16⟩
abbrev PLAN_STROKES.HI : Fld := ⟨16, 16⟩
abbrev PLAN_LATE.LO : Fld := ⟨0, 16⟩
abbrev PLAN_LATE.HI : Fld := ⟨16, 16⟩
abbrev PLAN_CANCEL.LO : Fld := ⟨0, 16⟩
abbrev PLAN_CANCEL.HI : Fld := ⟨16, 16⟩
abbrev PLAN_CALCFG.LEAD : Fld := ⟨0, 16⟩
abbrev PLAN_CALSTAT.STATE : Fld := ⟨0, 2⟩
abbrev PLAN_CALSTAT.PEND : Fld := ⟨2, 1⟩
abbrev PLAN_CALSTAT.ERR : Fld := ⟨8, 8⟩
abbrev PLAN_CALSTAT.CYCLES : Fld := ⟨16, 16⟩
abbrev PLAN_CALSKIP.CNT : Fld := ⟨0, 16⟩
abbrev PLAN_CALSKIP.SLOT : Fld := ⟨16, 7⟩
abbrev PLAN_CALNEXT_NS.VAL : Fld := ⟨0, 32⟩
abbrev PLAN_CALNEXT_SL.VAL : Fld := ⟨0, 32⟩
abbrev TILE_SBUF.STATE : Fld := ⟨0, 2⟩
abbrev TILE_SBUF.CAL : Fld := ⟨2, 1⟩
abbrev TILE_SBUF.SLOT : Fld := ⟨3, 7⟩
abbrev TILE_SBUF.NENT : Fld := ⟨10, 12⟩
abbrev TILE_SBUFT.VAL : Fld := ⟨0, 32⟩
abbrev TILE_SBUFSEQ.VAL : Fld := ⟨0, 32⟩
abbrev TILE_STRKCNT.PLAYED : Fld := ⟨0, 16⟩
abbrev TILE_STRKCNT.MISSED : Fld := ⟨16, 16⟩
abbrev CAL_CFG.EN : Fld := ⟨0, 1⟩
abbrev CAL_CFG.OFFEN : Fld := ⟨1, 1⟩
abbrev CAL_CFG.ROTEN : Fld := ⟨2, 1⟩
abbrev CAL_CFG.CPER : Fld := ⟨8, 8⟩
abbrev CAL_CFG.TSH : Fld := ⟨16, 3⟩
abbrev CAL_CFG.GSH : Fld := ⟨19, 3⟩
abbrev CAL_CFG.ESH : Fld := ⟨22, 3⟩
abbrev CAL_CFG2.OSTEP : Fld := ⟨0, 8⟩
abbrev CAL_CFG2.GMIN : Fld := ⟨8, 8⟩
abbrev CAL_CFG2.EMIN : Fld := ⟨16, 8⟩
abbrev CAL_CFG2.LAGMIN : Fld := ⟨24, 8⟩
abbrev CAL_STAT.READY : Fld := ⟨0, 1⟩
abbrev CAL_STAT.SRC : Fld := ⟨1, 2⟩
abbrev CAL_CSEQ.VAL : Fld := ⟨0, 32⟩
abbrev CAL_DIGEST.VAL : Fld := ⟨0, 32⟩
abbrev CAL_NCONV.LO : Fld := ⟨0, 16⟩
abbrev CAL_NCONV.HI : Fld := ⟨16, 16⟩
abbrev CAL_NACT.LO : Fld := ⟨0, 16⟩
abbrev CAL_NACT.HI : Fld := ⟨16, 16⟩
abbrev CAL_SAMP.LO : Fld := ⟨0, 16⟩
abbrev CAL_SAMP.HI : Fld := ⟨16, 16⟩
abbrev CAL_DROP.LO : Fld := ⟨0, 16⟩
abbrev CAL_DROP.HI : Fld := ⟨16, 16⟩
abbrev TILE_POFF.OFF : Fld := ⟨0, 20⟩
abbrev TILE_CALSTAT.RESTORED : Fld := ⟨0, 1⟩
abbrev TILE_CALSTAT.CSEQ : Fld := ⟨16, 16⟩
abbrev RED_CAPOSTAT.CAPOA : Fld := ⟨0, 1⟩
abbrev RED_CAPOSTAT.CAPOB : Fld := ⟨1, 1⟩
abbrev RED_CAPOSTAT.OWN : Fld := ⟨2, 1⟩
abbrev RED_CAPOSTAT.FORCE : Fld := ⟨3, 1⟩
abbrev RED_CAPOSTAT.ROLE : Fld := ⟨4, 3⟩
abbrev RED_CAPOSTAT.PJOINED : Fld := ⟨7, 1⟩
abbrev RED_CAPOSTAT.PROLE : Fld := ⟨8, 3⟩
abbrev RED_CAPOSTAT.PRQ : Fld := ⟨11, 1⟩
abbrev RED_CAPOSTAT.CMPON : Fld := ⟨12, 1⟩
abbrev RED_CFG.AUTOJOIN : Fld := ⟨0, 1⟩
abbrev RED_CFG.AUTOTAKE : Fld := ⟨1, 1⟩
abbrev RED_CFG.SEIZE : Fld := ⟨2, 1⟩
abbrev RED_CFG.PRSTEN : Fld := ⟨3, 1⟩
abbrev RED_CFG.IMPMASK : Fld := ⟨4, 7⟩
abbrev RED_CFG.TAKEDLY : Fld := ⟨16, 8⟩
abbrev RED_CFG.MISSTHR : Fld := ⟨24, 8⟩
abbrev RED_CTL.READY : Fld := ⟨0, 1⟩
abbrev RED_CTL.JOIN : Fld := ⟨1, 1⟩
abbrev RED_CTL.TAKE : Fld := ⟨2, 1⟩
abbrev RED_CTL.SWAP : Fld := ⟨3, 1⟩
abbrev RED_CTL.DROP : Fld := ⟨4, 1⟩
abbrev RED_SWAP.HOURS : Fld := ⟨0, 10⟩
abbrev RED_HEALTH.ECCU : Fld := ⟨0, 1⟩
abbrev RED_HEALTH.KAT : Fld := ⟨1, 1⟩
abbrev RED_HEALTH.CORE : Fld := ⟨2, 1⟩
abbrev RED_HEALTH.STEST : Fld := ⟨3, 1⟩
abbrev RED_HEALTH.RAIL : Fld := ⟨4, 1⟩
abbrev RED_HEALTH.TLINK : Fld := ⟨5, 1⟩
abbrev RED_HEALTH.THERM : Fld := ⟨6, 1⟩
abbrev RED_HEALTH.LOST : Fld := ⟨7, 1⟩
abbrev RED_HEALTH.DIVERGE : Fld := ⟨8, 1⟩
abbrev RED_HEALTH.TLMASK : Fld := ⟨16, 8⟩
abbrev RED_HEALTH.HSEQ : Fld := ⟨24, 8⟩
abbrev RED_PHEALTH.ECCU : Fld := ⟨0, 1⟩
abbrev RED_PHEALTH.KAT : Fld := ⟨1, 1⟩
abbrev RED_PHEALTH.CORE : Fld := ⟨2, 1⟩
abbrev RED_PHEALTH.STEST : Fld := ⟨3, 1⟩
abbrev RED_PHEALTH.RAIL : Fld := ⟨4, 1⟩
abbrev RED_PHEALTH.TLINK : Fld := ⟨5, 1⟩
abbrev RED_PHEALTH.THERM : Fld := ⟨6, 1⟩
abbrev RED_PHEALTH.LOST : Fld := ⟨7, 1⟩
abbrev RED_PHEALTH.DIVERGE : Fld := ⟨8, 1⟩
abbrev RED_PHEALTH.TLMASK : Fld := ⟨16, 8⟩
abbrev RED_PHEALTH.HSEQ : Fld := ⟨24, 8⟩
abbrev RED_JOIN.STEP : Fld := ⟨0, 4⟩
abbrev RED_JOIN.JCAUSE : Fld := ⟨8, 8⟩
abbrev RED_JOIN.BULK : Fld := ⟨16, 16⟩
abbrev RED_XFER.CAUSE : Fld := ⟨0, 3⟩
abbrev RED_XFER.ABORT : Fld := ⟨3, 1⟩
abbrev RED_XFERFR.FRAME : Fld := ⟨0, 32⟩
abbrev RED_CNT.C0 : Fld := ⟨0, 8⟩
abbrev RED_CNT.C1 : Fld := ⟨8, 8⟩
abbrev RED_CNT.C2 : Fld := ⟨16, 8⟩
abbrev RED_CNT.C3 : Fld := ⟨24, 8⟩
abbrev RED_VERD.C0 : Fld := ⟨0, 8⟩
abbrev RED_VERD.C1 : Fld := ⟨8, 8⟩
abbrev RED_VERD.C2 : Fld := ⟨16, 8⟩
abbrev RED_VERD.C3 : Fld := ⟨24, 8⟩
abbrev RED_MM.ACT : Fld := ⟨0, 14⟩
abbrev RED_MM.DIG : Fld := ⟨14, 1⟩
abbrev RED_MM.VALID : Fld := ⟨15, 1⟩
abbrev RED_MMCODE.VAL : Fld := ⟨0, 32⟩
abbrev RED_MMFR.VAL : Fld := ⟨0, 32⟩
abbrev RED_CMPERR.MM : Fld := ⟨0, 16⟩
abbrev RED_CMPERR.MISSOTHER : Fld := ⟨16, 8⟩
abbrev RED_CMPERR.MISSCAPO : Fld := ⟨24, 8⟩
abbrev BRG_STAT.UP : Fld := ⟨0, 1⟩
abbrev BRG_STAT.HB : Fld := ⟨1, 1⟩
abbrev BRG_STAT.LANE0 : Fld := ⟨2, 1⟩
abbrev BRG_STAT.LANE1 : Fld := ⟨3, 1⟩
abbrev BRG_CNT.CRCERR : Fld := ⟨0, 16⟩
abbrev BRG_CNT.RETRY : Fld := ⟨16, 16⟩
abbrev ETH_CFG.EN : Fld := ⟨0, 1⟩
abbrev ETH_CFG.SPEED : Fld := ⟨1, 1⟩
abbrev ETH_CFG.TAGGED : Fld := ⟨2, 1⟩
abbrev ETH_CFG.VID : Fld := ⟨4, 12⟩
abbrev ETH_CFG.MAXLEN : Fld := ⟨16, 14⟩
abbrev ETH_MAC_L.VAL : Fld := ⟨0, 32⟩
abbrev ETH_MAC_H.VAL : Fld := ⟨0, 16⟩
abbrev ETH_IP4.VAL : Fld := ⟨0, 32⟩
abbrev ETH_IP6.VAL : Fld := ⟨0, 32⟩
abbrev ETH_STAT.LINK : Fld := ⟨0, 1⟩
abbrev ETH_STAT.DOWNS : Fld := ⟨16, 16⟩
abbrev ETH_RXCNT.FCS : Fld := ⟨0, 8⟩
abbrev ETH_RXCNT.LONG : Fld := ⟨8, 8⟩
abbrev ETH_RXCNT.DISC : Fld := ⟨16, 8⟩
abbrev ETH_RXCNT.NOBUF : Fld := ⟨24, 8⟩
abbrev ETH_POLCFG.RATE : Fld := ⟨0, 20⟩
abbrev ETH_POLCFG.CAWARE : Fld := ⟨20, 1⟩
abbrev ETH_POLCFG.YDROP : Fld := ⟨21, 1⟩
abbrev ETH_POLCFG.REDPCP : Fld := ⟨22, 8⟩
abbrev ETH_POLPIR.RATE : Fld := ⟨0, 20⟩
abbrev ETH_POLPIR.CFGERR : Fld := ⟨20, 1⟩
abbrev ETH_POLBS.C : Fld := ⟨0, 16⟩
abbrev ETH_POLBS.P : Fld := ⟨16, 16⟩
abbrev ETH_POLTOK.C : Fld := ⟨0, 16⟩
abbrev ETH_POLTOK.P : Fld := ⟨16, 16⟩
abbrev ETH_POLG.GREEN : Fld := ⟨0, 32⟩
abbrev ETH_POLYR.YELLOW : Fld := ⟨0, 16⟩
abbrev ETH_POLYR.RED : Fld := ⟨16, 16⟩
abbrev ETH_QCFG.QUANTUM : Fld := ⟨0, 14⟩
abbrev ETH_QCFG.LIMIT : Fld := ⟨16, 13⟩
abbrev ETH_QCFG.PCP : Fld := ⟨29, 3⟩
abbrev ETH_Q6CAP.RATE : Fld := ⟨0, 20⟩
abbrev ETH_Q6CAP.BURST : Fld := ⟨20, 12⟩
abbrev ETH_QSTAT.CELLS : Fld := ⟨0, 13⟩
abbrev ETH_QSTAT.HELD : Fld := ⟨13, 1⟩
abbrev ETH_QSTAT.DEF : Fld := ⟨16, 16⟩
abbrev ETH_QSAMP.DEPTH : Fld := ⟨0, 13⟩
abbrev ETH_QSAMP.DELAY : Fld := ⟨13, 19⟩
abbrev ETH_QMAX.DEPTH : Fld := ⟨0, 13⟩
abbrev ETH_QMAX.DELAY : Fld := ⟨13, 19⟩
abbrev ETH_QDROP.TAIL : Fld := ⟨0, 16⟩
abbrev ETH_QDROP.OVSG : Fld := ⟨16, 16⟩
abbrev ETH_SAMPCFG.INTV : Fld := ⟨0, 16⟩
abbrev ETH_BUF.FREE : Fld := ⟨0, 13⟩
abbrev ETH_BUF.INFLIGHT : Fld := ⟨13, 13⟩
abbrev ETH_GCLCFG.EN : Fld := ⟨0, 1⟩
abbrev ETH_GCLCFG.NENT : Fld := ⟨1, 7⟩
abbrev ETH_GCLCFG.PEND : Fld := ⟨8, 1⟩
abbrev ETH_GCLCFG.ERR : Fld := ⟨9, 1⟩
abbrev ETH_GCLBASE_NS.VAL : Fld := ⟨0, 32⟩
abbrev ETH_GCLBASE_SL.VAL : Fld := ⟨0, 32⟩
abbrev ETH_GCLCYC.VAL : Fld := ⟨0, 32⟩
abbrev ETH_GCL.GATES : Fld := ⟨0, 8⟩
abbrev ETH_GCL.INTERVAL : Fld := ⟨8, 24⟩
abbrev ICT_CFG.UDPPORT : Fld := ⟨0, 16⟩
abbrev ICT_CFG.EN : Fld := ⟨16, 1⟩
abbrev ICT_EPOCH.VAL : Fld := ⟨0, 32⟩
abbrev ICT_NEXT.VAL : Fld := ⟨0, 32⟩
abbrev ICT_CNT.LO : Fld := ⟨0, 16⟩
abbrev ICT_CNT.HI : Fld := ⟨16, 16⟩
abbrev ICT_CNT2.LO : Fld := ⟨0, 16⟩
abbrev ICT_CNT2.HI : Fld := ⟨16, 16⟩
abbrev ICT_TGAP.LO : Fld := ⟨0, 16⟩
abbrev ICT_TGAP.HI : Fld := ⟨16, 16⟩
abbrev ICT_TSTR.EN : Fld := ⟨0, 1⟩
abbrev ICT_TSTR.PORTS : Fld := ⟨1, 2⟩
abbrev ICT_TSTR.QUEUE : Fld := ⟨3, 3⟩
abbrev ICT_TSTR.KIND : Fld := ⟨6, 3⟩
abbrev ICT_TSTR.KEYID : Fld := ⟨9, 3⟩
abbrev ICT_TSTR.PERIOD : Fld := ⟨12, 16⟩
abbrev ICT_TSTR.DST : Fld := ⟨28, 2⟩
abbrev ICT_TSTR.CFGERR : Fld := ⟨30, 1⟩
abbrev ICT_TSRC.FIRST : Fld := ⟨0, 14⟩
abbrev ICT_TSRC.COUNT : Fld := ⟨16, 13⟩
abbrev ICT_TSEQ.SEQ : Fld := ⟨0, 32⟩
abbrev ICT_DST.VAL : Fld := ⟨0, 32⟩
abbrev TIME_SEC_H.VAL : Fld := ⟨0, 16⟩
abbrev TIME_SEC_L.VAL : Fld := ⟨0, 32⟩
abbrev TIME_NS.VAL : Fld := ⟨0, 32⟩
abbrev TIME_FNS.VAL : Fld := ⟨0, 16⟩
abbrev TIME_CFG.REFEN : Fld := ⟨0, 1⟩
abbrev TIME_CFG.REFF : Fld := ⟨1, 1⟩
abbrev TIME_CFG.LOCKN : Fld := ⟨4, 4⟩
abbrev TIME_CFG.HOLDEXIT : Fld := ⟨8, 8⟩
abbrev TIME_CFG.HOLDTO : Fld := ⟨16, 8⟩
abbrev TIME_CFG.SLEWMAX : Fld := ⟨24, 8⟩
abbrev TIME_THR.LOCKTHR : Fld := ⟨0, 16⟩
abbrev TIME_THR.STEPTHR : Fld := ⟨16, 16⟩
abbrev TIME_SERVO.KP : Fld := ⟨0, 5⟩
abbrev TIME_SERVO.KI : Fld := ⟨16, 5⟩
abbrev TIME_OFFS.OFF : Fld := ⟨0, 32⟩
abbrev TIME_MON.OFF : Fld := ⟨0, 32⟩
abbrev TIME_PART.OFF : Fld := ⟨0, 32⟩
abbrev TIME_STAT.STATE : Fld := ⟨0, 2⟩
abbrev TIME_STAT.ESRC : Fld := ⟨2, 1⟩
abbrev TIME_STAT.REFOK : Fld := ⟨3, 1⟩
abbrev TIME_STAT.REFLOSS : Fld := ⟨4, 1⟩
abbrev TIME_STAT.SETREF : Fld := ⟨5, 1⟩
abbrev TIME_STAT.STEPPED : Fld := ⟨6, 1⟩
abbrev TIME_STAT.HOLDS : Fld := ⟨16, 16⟩
abbrev TIME_RATE.VAL : Fld := ⟨0, 32⟩
abbrev TIME_INT.VAL : Fld := ⟨0, 32⟩
abbrev TIME_CTL.MCHG : Fld := ⟨0, 1⟩
abbrev TIME_LAT.EGRESS : Fld := ⟨0, 16⟩
abbrev TIME_LAT.INGRESS : Fld := ⟨16, 16⟩
abbrev TIME_PTPCFG.PROFILE : Fld := ⟨0, 2⟩
abbrev TIME_PTPCFG.CTYPE : Fld := ⟨2, 2⟩
abbrev TIME_PTPCFG.ONESTEP : Fld := ⟨4, 1⟩
abbrev TIME_PTPCFG.TRANSPORT : Fld := ⟨5, 2⟩
abbrev TIME_PTPCFG.PORT : Fld := ⟨7, 1⟩
abbrev TIME_PTPCFG.DOMAIN : Fld := ⟨8, 8⟩
abbrev TIME_PTPCFG.PRIO2 : Fld := ⟨16, 8⟩
abbrev TIME_PTPCFG.CFGERR : Fld := ⟨31, 1⟩
abbrev TIME_PTPSTAT.P0STATE : Fld := ⟨0, 4⟩
abbrev TIME_PTPSTAT.P1STATE : Fld := ⟨4, 4⟩
abbrev TIME_PTPSTAT.STEPSRM : Fld := ⟨8, 8⟩
abbrev TIME_TXQ.COUNT : Fld := ⟨0, 5⟩
abbrev TIME_TXQ.OVERFLOW : Fld := ⟨5, 1⟩
abbrev TIME_TXQ.OVCNT : Fld := ⟨16, 16⟩
abbrev TIME_TXID.ID : Fld := ⟨0, 16⟩
abbrev TIME_TXID.FNS : Fld := ⟨16, 16⟩
abbrev TIME_TXNS.VAL : Fld := ⟨0, 32⟩
abbrev TIME_TXSL.VAL : Fld := ⟨0, 32⟩
abbrev TIME_TOUTCFG.MODE : Fld := ⟨0, 2⟩
abbrev TIME_TOUTCFG.POL : Fld := ⟨2, 1⟩
abbrev TIME_TOUTCFG.WIDTH : Fld := ⟨4, 24⟩
abbrev TIME_TOUTCFG.LATE : Fld := ⟨28, 1⟩
abbrev TIME_TOUTCFG.BUSY : Fld := ⟨29, 1⟩
abbrev TIME_TOUTNS.VAL : Fld := ⟨0, 32⟩
abbrev TIME_TOUTSL.VAL : Fld := ⟨0, 32⟩
abbrev TIME_TOUTPER.VAL : Fld := ⟨0, 32⟩
abbrev TIME_TCAPCFG.EDGE : Fld := ⟨0, 2⟩
abbrev TIME_TCAPCFG.OVR : Fld := ⟨2, 1⟩
abbrev TIME_TCAPCFG.CNT : Fld := ⟨16, 16⟩
abbrev TIME_TCAPNS.VAL : Fld := ⟨0, 32⟩
abbrev TIME_TCAPSL.VAL : Fld := ⟨0, 32⟩
abbrev TIME_TCAPFNS.VAL : Fld := ⟨0, 16⟩
abbrev TIME_TILE.SYNC : Fld := ⟨0, 8⟩
abbrev TIME_TILE.FREE : Fld := ⟨8, 8⟩
abbrev EVF_P2C.EN : Fld := ⟨0, 32⟩
abbrev EVF_C2K.EN : Fld := ⟨0, 32⟩
abbrev EVF_CH.SEEN : Fld := ⟨0, 1⟩
abbrev EVF_CH.LEVEL : Fld := ⟨1, 1⟩
abbrev EVF_CH.LOOPBACK : Fld := ⟨2, 1⟩
abbrev EVF_CH.GATEDF : Fld := ⟨3, 1⟩
abbrev EVF_CH.COUNT : Fld := ⟨16, 16⟩
abbrev EVF_CFG.INEDGE : Fld := ⟨0, 2⟩
abbrev EVF_CFG.OUTW : Fld := ⟨4, 8⟩
abbrev EVF_GRP.EN : Fld := ⟨0, 8⟩
abbrev EVF_FIRE.CH : Fld := ⟨0, 6⟩
abbrev EVF_CSTAT.LINE : Fld := ⟨0, 4⟩
abbrev EVF_SEEN.CH : Fld := ⟨0, 32⟩
abbrev EVF_LEVEL.CH : Fld := ⟨0, 32⟩
abbrev EVF_KOVR.K : Fld := ⟨0, 32⟩
abbrev EVF_KCOINC.K : Fld := ⟨0, 32⟩
abbrev EVF_CNT.GATED : Fld := ⟨0, 16⟩
abbrev EVF_CNT.DROP : Fld := ⟨16, 16⟩
abbrev MBX_DATA.VAL : Fld := ⟨0, 32⟩
abbrev MBX_STAT.FULL : Fld := ⟨0, 1⟩
abbrev MBX_STAT.EMPTY : Fld := ⟨1, 1⟩
abbrev MBX_STAT.ACKP : Fld := ⟨2, 1⟩
abbrev MBX_STAT.RCVRST : Fld := ⟨3, 1⟩
abbrev MBX_STAT.CROSSED : Fld := ⟨4, 1⟩
abbrev MBX_STAT.ORPHAN : Fld := ⟨5, 1⟩
abbrev MBX_STAT.LASTSEQ : Fld := ⟨8, 8⟩
abbrev MBX_STAT.LOSTSEQ : Fld := ⟨16, 8⟩
abbrev MBX_STAT.SRC : Fld := ⟨24, 3⟩
abbrev MBX_CFG.RCV : Fld := ⟨0, 3⟩
abbrev MBX_CFG.K4 : Fld := ⟨3, 1⟩
abbrev MBX_CFG.ARRIEN : Fld := ⟨4, 1⟩
abbrev MBX_CFG.ACKEN : Fld := ⟨5, 1⟩
abbrev MBX_HSTAGE.VAL : Fld := ⟨0, 32⟩
abbrev MBX_HPOST.MBX : Fld := ⟨0, 4⟩
abbrev MBX_HTAKE.MBX : Fld := ⟨0, 4⟩
abbrev MBX_HRES.STATUS : Fld := ⟨0, 8⟩
abbrev MBX_HRES.MBX : Fld := ⟨8, 4⟩
abbrev MBX_HRES.TAKE : Fld := ⟨12, 1⟩
abbrev MBX_EPRST.EP : Fld := ⟨0, 5⟩
abbrev ALV_CFG.INJEN : Fld := ⟨0, 1⟩
abbrev ALV_CFG.WDEN : Fld := ⟨1, 1⟩
abbrev ALV_CFG.FCORE : Fld := ⟨4, 4⟩
abbrev ALV_CFG.FSEVEN : Fld := ⟨8, 4⟩
abbrev ALV_CFG.HBDL : Fld := ⟨16, 8⟩
abbrev ALV_CFG.WDDLY : Fld := ⟨24, 8⟩
abbrev ALV_HBEAT.VAL : Fld := ⟨0, 32⟩
abbrev ALV_HBSTAT.LEFT : Fld := ⟨0, 12⟩
abbrev ALV_HBSTAT.ARMED : Fld := ⟨12, 1⟩
abbrev ALV_HBSTAT.RUN : Fld := ⟨13, 1⟩
abbrev ALV_HBSTAT.SUSP : Fld := ⟨14, 1⟩
abbrev ALV_HBSTAT.MINLEFT : Fld := ⟨16, 16⟩
abbrev ALV_SUM.LSEQ : Fld := ⟨0, 16⟩
abbrev ALV_SUM.PFATAL : Fld := ⟨16, 1⟩
abbrev ALV_SUM.PLOSS : Fld := ⟨17, 1⟩
abbrev ALV_SUM.PDEGRADE : Fld := ⟨18, 1⟩
abbrev ALV_SUM.PNOTE : Fld := ⟨19, 1⟩
abbrev ALV_SUM.NPEND : Fld := ⟨24, 8⟩
abbrev ALV_FIRSTFAULT.SRC : Fld := ⟨0, 8⟩
abbrev ALV_FIRSTFAULT.SEV : Fld := ⟨8, 2⟩
abbrev ALV_FIRSTFAULT.FORCED : Fld := ⟨10, 1⟩
abbrev ALV_FIRSTFAULT.COINC : Fld := ⟨11, 1⟩
abbrev ALV_FIRSTFAULT.VALID : Fld := ⟨15, 1⟩
abbrev ALV_FIRSTFAULT.LSEQ : Fld := ⟨16, 16⟩
abbrev ALV_FIRSTINFO.VAL : Fld := ⟨0, 32⟩
abbrev ALV_FIRSTNS.VAL : Fld := ⟨0, 32⟩
abbrev ALV_FIRSTSL.VAL : Fld := ⟨0, 32⟩
abbrev ALV_LOG.IDX : Fld := ⟨0, 8⟩
abbrev ALV_LOG.WRAP : Fld := ⟨16, 16⟩
abbrev ALV_PEND.SRC : Fld := ⟨0, 32⟩
abbrev ALV_SRC.LIVE : Fld := ⟨0, 1⟩
abbrev ALV_SRC.STICKY : Fld := ⟨1, 1⟩
abbrev ALV_SRC.FSTICKY : Fld := ⟨2, 1⟩
abbrev ALV_SRC.FORCE : Fld := ⟨3, 1⟩
abbrev ALV_SRC.SEV : Fld := ⟨4, 2⟩
abbrev ALV_SRC.COUNT : Fld := ⟨16, 16⟩
abbrev PWR_STAT.STATE : Fld := ⟨0, 2⟩
abbrev PWR_STAT.PEND : Fld := ⟨2, 1⟩
abbrev PWR_STAT.REFUSED : Fld := ⟨3, 1⟩
abbrev PWR_STAT.WAKE : Fld := ⟨4, 3⟩
abbrev PWR_STAT.VINOK : Fld := ⟨8, 1⟩
abbrev PWR_STAT.TRIP : Fld := ⟨9, 1⟩
abbrev PWR_REQ.STATE : Fld := ⟨0, 2⟩
abbrev PWR_CFG.DPCIE : Fld := ⟨0, 1⟩
abbrev PWR_CFG.WAKEEN : Fld := ⟨1, 3⟩
abbrev PWR_CFG.AVSEN : Fld := ⟨4, 1⟩
abbrev PWR_CFG.GUARD : Fld := ⟨8, 4⟩
abbrev PWR_WAKENS.VAL : Fld := ⟨0, 32⟩
abbrev PWR_WAKESL.VAL : Fld := ⟨0, 32⟩
abbrev PWR_MPLIM.LIM : Fld := ⟨0, 18⟩
abbrev PWR_VACTLIM.LIM : Fld := ⟨0, 12⟩
abbrev PWR_AVS.OWN : Fld := ⟨0, 10⟩
abbrev PWR_AVS.PART : Fld := ⟨16, 10⟩
abbrev PWR_AVS.CEIL : Fld := ⟨26, 1⟩
abbrev PWR_STAGE.VHTRLIM : Fld := ⟨0, 1⟩
abbrev PWR_STAGE.VACTLIM : Fld := ⟨1, 1⟩
abbrev PWR_STAGE.TRIP : Fld := ⟨2, 1⟩
abbrev PWR_STAGE.PHASE : Fld := ⟨3, 1⟩
abbrev PWR_STAGE.RAILLOSS : Fld := ⟨4, 1⟩
abbrev PWR_STAGE.CODE : Fld := ⟨8, 8⟩
abbrev PWR_STAGE.FAULTS : Fld := ⟨16, 16⟩
abbrev PWR_VIN.MIN : Fld := ⟨0, 16⟩
abbrev PWR_VIN.MAX : Fld := ⟨16, 16⟩
abbrev PWR_SDOM.ON : Fld := ⟨0, 32⟩
abbrev PWR_TDOM.ON : Fld := ⟨0, 32⟩
abbrev PWR_CTL.RAILON : Fld := ⟨0, 1⟩
abbrev THM_CFG.ROR : Fld := ⟨0, 8⟩
abbrev THM_CFG.FMIN : Fld := ⟨8, 4⟩
abbrev THM_CFG.HYST : Fld := ⟨12, 4⟩
abbrev THM_CFG.RELMS : Fld := ⟨16, 8⟩
abbrev THM_CFG.EN : Fld := ⟨24, 1⟩
abbrev THM_LVL.SLVL : Fld := ⟨0, 8⟩
abbrev THM_LVL.PLVL : Fld := ⟨8, 8⟩
abbrev THM_LVL.TLVL : Fld := ⟨16, 8⟩
abbrev THM_TRES.RES : Fld := ⟨0, 24⟩
abbrev THM_TRES.DIR : Fld := ⟨24, 1⟩
abbrev THM_TRES.EN : Fld := ⟨25, 1⟩
abbrev THM_TILE.F : Fld := ⟨0, 5⟩
abbrev THM_TILE.TOVER : Fld := ⟨5, 1⟩
abbrev THM_TILE.COND : Fld := ⟨6, 1⟩
abbrev THM_TILE.DOWNS : Fld := ⟨16, 16⟩
abbrev THM_STAT.MLVL : Fld := ⟨0, 1⟩
abbrev THM_STAT.MROR : Fld := ⟨1, 1⟩
abbrev THM_STAT.MSTG : Fld := ⟨2, 1⟩
abbrev THM_STAT.HOT : Fld := ⟨4, 6⟩
abbrev THM_STAT.HOTT : Fld := ⟨16, 16⟩
abbrev THM_PEAK.PEAK : Fld := ⟨0, 16⟩
abbrev THM_TMASK.MASK : Fld := ⟨0, 8⟩
abbrev THM_SENS.TEMP : Fld := ⟨0, 16⟩
abbrev THM_SENS.RISE : Fld := ⟨16, 16⟩
abbrev AGE_CFG.EN : Fld := ⟨0, 1⟩
abbrev AGE_CFG.RATEN : Fld := ⟨1, 1⟩
abbrev AGE_CFG.KEEPSPARE : Fld := ⟨2, 3⟩
abbrev AGE_CFG.MARGIN : Fld := ⟨8, 8⟩
abbrev AGE_CFG.RESTORE : Fld := ⟨16, 8⟩
abbrev AGE_THR.RDTHR : Fld := ⟨0, 8⟩
abbrev AGE_THR.CMTHR : Fld := ⟨8, 8⟩
abbrev AGE_THR.DKTHR : Fld := ⟨16, 16⟩
abbrev AGE_CAP.CAP : Fld := ⟨0, 16⟩
abbrev AGE_CAP.DEMAND : Fld := ⟨16, 16⟩
abbrev AGE_STAT.MARGIN : Fld := ⟨0, 16⟩
abbrev AGE_STAT.SPARES : Fld := ⟨16, 5⟩
abbrev AGE_STAT.SHORT : Fld := ⟨21, 1⟩
abbrev AGE_STAT.EXHAUST : Fld := ⟨22, 1⟩
abbrev AGE_CNT.MOVES : Fld := ⟨0, 8⟩
abbrev AGE_CNT.SPAREIN : Fld := ⟨8, 8⟩
abbrev AGE_CNT.LOWER : Fld := ⟨16, 8⟩
abbrev AGE_CNT.RESTORE : Fld := ⟨24, 8⟩
abbrev AGE_NLOW.NLOW : Fld := ⟨0, 15⟩
abbrev GEN_RSTCAUSE.POR : Fld := ⟨0, 1⟩
abbrev GEN_RSTCAUSE.BROWN : Fld := ⟨1, 1⟩
abbrev GEN_RSTCAUSE.RSTN : Fld := ⟨2, 1⟩
abbrev GEN_RSTCAUSE.FLR : Fld := ⟨3, 1⟩
abbrev GEN_RSTCAUSE.WAKE : Fld := ⟨4, 1⟩
abbrev GEN_RSTCAUSE.STR : Fld := ⟨5, 1⟩
abbrev GEN_RSTCAUSE.WDOG : Fld := ⟨6, 1⟩
abbrev GEN_RSTCAUSE.PARTNER : Fld := ⟨7, 1⟩
abbrev GEN_RSTCAUSE.NRST : Fld := ⟨16, 16⟩
abbrev GEN_RST.STR : Fld := ⟨0, 1⟩
abbrev GEN_RST.TILE : Fld := ⟨8, 8⟩
abbrev GEN_ERST.ENG : Fld := ⟨0, 32⟩
abbrev GEN_RSTSTAT.TBUSY : Fld := ⟨0, 8⟩
abbrev GEN_RSTSTAT.EREF : Fld := ⟨16, 16⟩
abbrev PEG_STAT.BUSY : Fld := ⟨0, 1⟩
abbrev PEG_STAT.TBLK : Fld := ⟨1, 1⟩
abbrev PEG_STAT.TBLKCNT : Fld := ⟨16, 16⟩
abbrev PEG_WMAX.COUNT : Fld := ⟨0, 21⟩
abbrev PEG_WMAX.PAGE : Fld := ⟨21, 11⟩
abbrev PEG_WSEL.PAGE : Fld := ⟨0, 11⟩
abbrev PEG_WCNT.COUNT : Fld := ⟨0, 21⟩
abbrev SEC_BOOT.SLOT : Fld := ⟨0, 1⟩
abbrev SEC_BOOT.TRIED : Fld := ⟨1, 1⟩
abbrev SEC_BOOT.RES0 : Fld := ⟨2, 3⟩
abbrev SEC_BOOT.RES1 : Fld := ⟨5, 3⟩
abbrev SEC_BOOT.STATE : Fld := ⟨8, 2⟩
abbrev SEC_BOOT.ROOT : Fld := ⟨10, 2⟩
abbrev SEC_BOOT.DBGUNL : Fld := ⟨12, 1⟩
abbrev SEC_FWSVN.VAL : Fld := ⟨0, 32⟩
abbrev SEC_FWFLOOR.VAL : Fld := ⟨0, 32⟩
abbrev SEC_DSFLOOR.VAL : Fld := ⟨0, 32⟩
abbrev SEC_KYFLOOR.VAL : Fld := ⟨0, 32⟩
abbrev SEC_BOOTCNT.VAL : Fld := ⟨0, 32⟩
abbrev SEC_KEYS.CFGV : Fld := ⟨0, 8⟩
abbrev SEC_KEYS.NETV : Fld := ⟨8, 8⟩
abbrev SEC_KEYS.ROOTREV : Fld := ⟨16, 4⟩
abbrev SEC_FWMEAS.VAL : Fld := ⟨0, 32⟩
abbrev SEC_IDPK.VAL : Fld := ⟨0, 32⟩
abbrev SEC_DBGNONCE.VAL : Fld := ⟨0, 32⟩
abbrev GEN_ID.VENDOR : Fld := ⟨0, 16⟩
abbrev GEN_ID.DEVICE : Fld := ⟨16, 16⟩
abbrev GEN_REV.SILREV : Fld := ⟨0, 8⟩
abbrev GEN_REV.TILEREV : Fld := ⟨8, 8⟩
abbrev GEN_REV.ROMREV : Fld := ⟨16, 8⟩
abbrev GEN_REV.MODREV : Fld := ⟨24, 8⟩
abbrev GEN_STRAP.STR : Fld := ⟨0, 1⟩
abbrev GEN_STRAP.TILEPRES : Fld := ⟨8, 8⟩
abbrev GEN_SERIAL_L.VAL : Fld := ⟨0, 32⟩
abbrev GEN_SERIAL_H.VAL : Fld := ⟨0, 32⟩
abbrev GEN_CAPS.NACT : Fld := ⟨0, 15⟩
abbrev GEN_CAPS.NMON : Fld := ⟨16, 12⟩
abbrev GEN_CAPS2.NTHM : Fld := ⟨0, 8⟩
abbrev GEN_CAPS2.NENG : Fld := ⟨8, 8⟩
abbrev GEN_CAPS2.NCORE : Fld := ⟨16, 4⟩
abbrev GEN_CAPS2.NPLAN : Fld := ⟨20, 8⟩
abbrev GEN_BLKPRES.SLOT : Fld := ⟨0, 32⟩
abbrev DBG_STAT.UNLOCKED : Fld := ⟨0, 1⟩
abbrev DBG_STAT.JTAG : Fld := ⟨1, 1⟩
abbrev DBG_STAT.HALTED : Fld := ⟨2, 4⟩
abbrev DBG_STAT.REFUSED : Fld := ⟨6, 1⟩
abbrev DBG_STAT.DERR : Fld := ⟨7, 1⟩
abbrev DBG_CTL.HALT : Fld := ⟨0, 4⟩
abbrev DBG_CTL.STEP : Fld := ⟨4, 4⟩
abbrev DBG_ADDR.ADDR : Fld := ⟨0, 32⟩
abbrev DBG_DATA.VAL : Fld := ⟨0, 32⟩
abbrev PCIE_STAT.LINKUP : Fld := ⟨0, 1⟩
abbrev PCIE_STAT.WIDTH : Fld := ⟨1, 3⟩
abbrev PCIE_STAT.SPEED : Fld := ⟨4, 2⟩
abbrev PCIE_CNT.LO : Fld := ⟨0, 16⟩
abbrev PCIE_CNT.HI : Fld := ⟨16, 16⟩
abbrev PCIE_ERR.LO : Fld := ⟨0, 16⟩
abbrev PCIE_ERR.HI : Fld := ⟨16, 16⟩
abbrev QSPI_STAT.BUSY : Fld := ⟨0, 1⟩
abbrev QSPI_STAT.PRESENT : Fld := ⟨1, 1⟩
abbrev QSPI_JEDEC.ID : Fld := ⟨0, 24⟩
abbrev QSPI_CNT.ERASES : Fld := ⟨0, 16⟩
abbrev QSPI_CNT.RDERR : Fld := ⟨16, 16⟩
abbrev PSTG_PHASE.VAL : Fld := ⟨0, 16⟩
abbrev PSTG_LINK.VAL : Fld := ⟨0, 16⟩
abbrev TLK_STAT.UP : Fld := ⟨0, 1⟩
abbrev TLK_STAT.LANES : Fld := ⟨1, 8⟩
abbrev TLK_STAT.CAPO : Fld := ⟨9, 1⟩
abbrev TLK_ERR.CRCERR : Fld := ⟨0, 16⟩
abbrev TLK_ERR.RETRY : Fld := ⟨16, 16⟩
abbrev TLK_DISC.DISC : Fld := ⟨0, 16⟩
abbrev TLK_DISC.LATE : Fld := ⟨16, 16⟩
abbrev TLK_CODES.CODES : Fld := ⟨0, 32⟩
abbrev SRB_SCRUB.SCRUB : Fld := ⟨0, 19⟩
abbrev SRB_CNT.CORR : Fld := ⟨0, 16⟩
abbrev SRB_CNT.UNCORR : Fld := ⟨16, 16⟩
abbrev SRB_LASTERR.LASTERR : Fld := ⟨0, 32⟩

end F

end Sys2Proof.Machine
end

