-- ==== Sys2Proof/Machine/RegTable.lean ====
section
/-! DEFINITION. The register table: every register of spec/ with its fields, their access type (00_scope.md R8) and their
value after a cold reset (R7). A value that depends on the string or on the index is 0 here and added by `coldExtra`. -/

namespace Sys2Proof.Machine

/-- The access types of 00_scope.md R8. -/
inductive Access where | ro | rw | hw | w1c | wo | rc
  deriving DecidableEq, Repr

/-- One field of a register layout. `keep`: the Warm column says Hold, live or Peg, so a string-level reset leaves the field as it is (R7). -/
structure RegField where
  lo : Nat
  w : Nat
  acc : Access
  cold : Nat
  keep : Bool
  deriving DecidableEq, Repr

/-- One register, or one array of registers of one layout: the first offset and up to two index ranges (count, stride). -/
structure RegRow where
  base : Nat
  n1 : Nat
  s1 : Nat
  n2 : Nat
  s2 : Nat
  fields : List RegField
  deriving DecidableEq, Repr

def fd (lo hi : Nat) (acc : Access) (cold : Nat) : RegField := ⟨lo, hi + 1 - lo, acc, cold, false⟩
/-- A field that a string-level reset keeps. -/
def fk (lo hi : Nat) (acc : Access) (cold : Nat) : RegField := ⟨lo, hi + 1 - lo, acc, cold, true⟩

/-- A single register. -/
def rg1 (b : Nat) (fs : List RegField) : RegRow := ⟨b, 1, 0, 1, 0, fs⟩
def rgN (b n s : Nat) (fs : List RegField) : RegRow := ⟨b, n, s, 1, 0, fs⟩
def rgNN (b n s m t : Nat) (fs : List RegField) : RegRow := ⟨b, n, s, m, t, fs⟩

/-- Registers of block SEQ, by their offset in its 4 KB slot. -/
def rowsSeq : List RegRow := [
  rg1 0x0 [fd 0 0 .ro 1, fd 1 3 .rw 0]  /- SEQ_START -/,
  rgN 0x10 4 4 [fd 0 1 .ro 0, fd 2 2 .ro 1, fd 3 3 .ro 0, fd 4 4 .ro 0, fd 5 7 .ro 0, fd 8 11 .ro 0, fd 12 12 .ro 0]  /- SEQ_CORESTAT -/,
  rgN 0x20 4 4 [fd 0 21 .ro 0, fd 22 31 .rc 0]  /- SEQ_TRAPLOG -/,
  rgN 0x30 4 4 [fd 0 31 .ro 0]  /- SEQ_TRAPPC -/
]

/-- Registers of block RING, by their offset in its 4 KB slot. -/
def rowsRing : List RegRow := [
  rgN 0x0 16 4 [fd 0 15 .hw 0, fd 16 17 .hw 0]  /- RING_DB -/,
  rgN 0x40 16 4 [fd 0 15 .ro 0, fd 16 16 .ro 0, fd 17 17 .ro 0, fd 18 18 .ro 0, fd 19 19 .ro 0, fd 20 20 .ro 0]  /- RING_STAT -/,
  rgN 0x80 16 4 [fd 0 7 .ro 0, fd 8 15 .ro 0, fd 16 18 .ro 0]  /- RING_FAULT -/,
  rgN 0xC0 16 8 [fd 0 31 .ro 0]  /- RING_LSEQ_L -/,
  rgN 0xC4 16 8 [fd 0 31 .ro 0]  /- RING_LSEQ_H -/,
  rgN 0x140 16 8 [fd 0 31 .rw 0]  /- RING_CQBASE_L -/,
  rgN 0x144 16 8 [fd 0 31 .rw 0]  /- RING_CQBASE_H -/,
  rgN 0x1C0 16 4 [fd 0 0 .rw 0, fd 16 31 .ro 0]  /- RING_CQCFG -/,
  rg1 0x200 [fd 0 31 .ro 1]  /- RING_GSEQ_L -/,
  rg1 0x204 [fd 0 31 .ro 0]  /- RING_GSEQ_H -/,
  rg1 0x208 [fd 0 31 .ro 0]  /- RING_COMMIT_L -/,
  rg1 0x20C [fd 0 31 .ro 0]  /- RING_COMMIT_H -/,
  rg1 0x210 [fd 0 3 .ro 0, fd 4 11 .ro 0, fd 31 31 .ro 0]  /- RING_CLAIM -/,
  rg1 0x214 [fd 0 15 .rw 0]  /- RING_EN -/,
  rg1 0x218 [fd 0 15 .rc 0, fd 16 31 .rc 0]  /- RING_DISC -/
]

/-- Registers of block FAB, by their offset in its 4 KB slot. -/
def rowsFab : List RegRow := [
  rg1 0x0 [fd 0 1 .rw 0, fd 2 2 .rw 0, fd 3 6 .rw 0, fd 8 15 .rw 0, fd 16 16 .rw 0]  /- FAB_STAT -/,
  rg1 0x4 [fd 0 7 .rw 0, fd 8 31 .rw 0]  /- FAB_ERR -/,
  rg1 0x8 [fd 0 20 .rw 0]  /- FAB_RXLEN -/,
  rg1 0x18 [fd 0 31 .rw 4294967295]  /- FAB_ERRIDX -/,
  rg1 0xC [fd 0 31 .rw 0]  /- FAB_SVN -/,
  rg1 0x10 [fd 0 31 .rw 0]  /- FAB_ID_L -/,
  rg1 0x14 [fd 0 31 .rw 0]  /- FAB_ID_H -/,
  rgN 0x20 8 4 [fd 0 31 .rw 0]  /- FAB_DIGEST -/
]

/-- Registers of block TILE, by their offset in its 4 KB slot. -/
def rowsTile : List RegRow := [
  rg1 0x0 [fk 0 0 .rw 1, fk 1 1 .rw 1, fk 2 4 .rw 4]  /- TILE_ACFG -/,
  rg1 0x4 [fk 0 31 .rw 0]  /- TILE_MODE -/,
  rg1 0x8 [fk 0 31 .rw 0]  /- TILE_VLIN -/,
  rg1 0x10 [fk 0 14 .rw 0]  /- TILE_PLIM -/,
  rg1 0x14 [fk 0 14 .rw 0]  /- TILE_ODBUD -/,
  rg1 0x18 [fk 0 14 .ro 0, fk 15 15 .ro 0]  /- TILE_PLIMEFF -/,
  rg1 0x1C [fk 0 24 .ro 0]  /- TILE_PSUM -/,
  rg1 0x20 [fk 0 24 .rc 0]  /- TILE_PPEAK -/,
  rg1 0x24 [fk 0 15 .ro 0]  /- TILE_PMEAS -/,
  rg1 0x28 [fk 0 0 .ro 0, fk 1 1 .w1c 0, fk 2 2 .w1c 0, fk 3 3 .w1c 0, fk 16 31 .rc 0]  /- TILE_ASTAT -/,
  rg1 0x2C [fk 0 11 .ro 0, fk 16 27 .ro 0]  /- TILE_AFLT -/,
  rgN 0x30 4 4 [fk 0 8 .ro 0, fk 9 9 .ro 0, fk 16 31 .ro 0]  /- TILE_BANKSTAT -/,
  rgN 0x40 16 4 [fk 0 7 .rw 0, fk 8 10 .rw 0, fk 12 14 .rw 0, fk 31 31 .ro 1]  /- TILE_BOWSHAPE -/,
  rgN 0x80 8 4 [fk 0 31 .w1c 0]  /- TILE_RETERR -/,
  rg1 0x100 [fk 0 1 .rw 0, fk 2 3 .rw 0, fk 4 6 .rw 1, fk 7 7 .rw 1]  /- TILE_PCFG -/,
  rgN 0x104 2 4 [fk 0 7 .rw 0, fk 8 8 .ro 0]  /- TILE_PBIAS -/,
  rg1 0x10C [fk 0 8 .ro 0, fk 9 17 .ro 0, fk 18 26 .ro 0]  /- TILE_PSTAT -/,
  rg1 0x110 [fk 0 31 .w1c 0]  /- TILE_WINSUM -/,
  rg1 0x114 [fk 0 31 .w1c 0]  /- TILE_OVRSUM -/,
  rg1 0x118 [fk 0 15 .rc 0]  /- TILE_TRGOVR -/,
  rg1 0x11C [fk 0 7 .rw 0]  /- TILE_THMEN -/,
  rgN 0x120 8 4 [fk 0 23 .ro 0, fk 24 24 .ro 0, fk 25 25 .ro 0]  /- TILE_THM -/,
  rgN 0x180 32 4 [fk 0 0 .rw 0, fk 1 11 .rw 0, fk 12 19 .rw 0, fk 20 21 .rw 0]  /- TILE_MTRIG -/,
  rg1 0x200 [fk 0 0 .rw 1, fk 1 1 .rw 1, fk 4 9 .rw 8, fk 16 23 .rw 10, fk 24 31 .rw 4]  /- TILE_DRNCFG -/,
  rg1 0x210 [fk 0 15 .rw 65535]  /- TILE_DRNNULL -/,
  rg1 0x214 [fk 0 15 .rw 0, fk 16 31 .rw 10]  /- TILE_DRNNPER -/,
  rg1 0x218 [fk 0 11 .ro 0, fk 12 23 .ro 0, fk 24 24 .ro 0]  /- TILE_DRNSTAT -/,
  rg1 0x21C [fk 0 15 .rc 0]  /- TILE_DRNCLIP -/,
  rg1 0x220 [fk 0 15 .rc 0]  /- TILE_DRNOBSCHG -/,
  rg1 0x224 [fk 0 31 .ro 0]  /- TILE_DRNRSEQ -/,
  rgN 0x240 16 4 [fk 0 15 .rw 0]  /- TILE_DRNROT -/,
  rgN 0x300 4 4 [fk 0 1 .ro 0, fk 2 2 .ro 0, fk 3 9 .ro 0, fk 10 21 .ro 0]  /- TILE_SBUF -/,
  rgN 0x310 4 4 [fk 0 31 .ro 0]  /- TILE_SBUFT -/,
  rgN 0x320 4 4 [fk 0 31 .ro 0]  /- TILE_SBUFSEQ -/,
  rg1 0x330 [fk 0 15 .rc 0, fk 16 31 .rc 0]  /- TILE_STRKCNT -/,
  rgN 0x400 256 4 [fk 0 19 .rw 16384]  /- TILE_POFF -/,
  rg1 0x800 [fk 0 0 .ro 0, fk 16 31 .ro 0]  /- TILE_CALSTAT -/
]

/-- Registers of block HKA, by their offset in its 4 KB slot. -/
def rowsHka : List RegRow := [
  rg1 0x0 [fd 0 1 .rw 0, fd 2 4 .rw 2, fd 16 31 .rw 4095]  /- HKA_CFG -/,
  rg1 0x4 [fd 0 0 .ro 0, fd 1 1 .ro 0, fd 16 31 .ro 0]  /- HKA_STAT -/,
  rgN 0x40 16 4 [fd 0 15 .ro 0, fd 16 16 .ro 0, fd 17 17 .ro 0, fd 18 18 .ro 0]  /- HKA_RES -/
]

/-- Registers of block DRN, by their offset in its 4 KB slot. -/
def rowsDrn : List RegRow := [
  rg1 0x0 [fd 0 15 .rw 64, fd 16 16 .rw 1]  /- DRN_CFG -/,
  rgN 0x10 8 4 [fd 0 15 .rc 0, fd 16 31 .rc 0]  /- DRN_RXSTAT -/,
  rgN 0x30 8 4 [fd 0 31 .ro 0]  /- DRN_LASTRSEQ -/,
  rg1 0x50 [fd 0 15 .ro 0, fd 16 31 .rc 0]  /- DRN_NULLCNT -/
]

/-- Registers of block ENG, by their offset in its 4 KB slot. -/
def rowsEng : List RegRow := [
  rg1 0x0 [fd 0 7 .rw 20, fd 8 8 .rw 1, fd 9 9 .rw 1, fd 16 23 .rw 10]  /- ENG_CFG -/,
  rgN 0x10 36 4 [fd 0 1 .rw 0, fd 2 2 .ro 0, fd 8 17 .ro 0, fd 20 23 .ro 0]  /- ENG_ROLE -/,
  rgN 0xB0 36 4 [fd 0 15 .ro 0, fd 16 31 .rc 0]  /- ENG_LAT -/,
  rgN 0x140 36 4 [fd 0 15 .ro 0, fd 16 31 .rc 0]  /- ENG_LOAD -/,
  rg1 0x1D0 [fd 0 15 .rc 0, fd 16 31 .rc 0]  /- ENG_MISS -/,
  rg1 0x1D4 [fd 0 5 .ro 32, fd 6 11 .ro 4, fd 12 17 .ro 0, fd 18 27 .ro 0]  /- ENG_STAT -/,
  rg1 0x1D8 [fd 0 15 .rc 0, fd 16 31 .rc 0]  /- ENG_HIST -/,
  rg1 0x1DC [fd 0 14 .ro 0, fd 16 30 .ro 0]  /- ENG_LSTAT -/,
  rg1 0x1E0 [fd 0 15 .rc 0]  /- ENG_LOSTCNT -/
]

/-- Registers of block ENGMAP, by their offset in its 4 KB slot. -/
def rowsEngmap : List RegRow := [
  rgN 0x0 512 4 [fd 0 5 .rw 0, fd 6 6 .ro 0, fd 7 7 .ro 0]  /- ENGMAP_BLK -/
]

/-- Registers of block RTE, by their offset in its 4 KB slot. -/
def rowsRte : List RegRow := [
  rg1 0x0 [fd 0 3 .rw 0, fd 4 7 .rw 0]  /- RTE_CFG -/,
  rg1 0x4 [fd 0 11 .ro 0, fd 12 23 .ro 0, fd 24 30 .ro 0, fd 31 31 .ro 0]  /- RTE_STAT -/,
  rg1 0x8 [fd 0 15 .ro 0, fd 16 23 .ro 0]  /- RTE_LAST -/,
  rg1 0xC [fd 0 15 .rc 0, fd 16 31 .rc 0]  /- RTE_CNT -/,
  rg1 0x10 [fd 0 15 .ro 0, fd 16 31 .rc 0]  /- RTE_TSOLVE -/,
  rg1 0x14 [fd 0 15 .rc 0, fd 16 22 .ro 0]  /- RTE_MISS -/
]

/-- Registers of block XT, by their offset in its 4 KB slot. -/
def rowsXt : List RegRow := [
  rg1 0x0 [fd 0 0 .rw 0, fd 1 1 .rw 1, fd 8 15 .rw 8, fd 16 31 .rw 4096]  /- XT_CFG -/,
  rg1 0x4 [fd 0 14 .ro 0, fd 16 26 .ro 0]  /- XT_STAT -/,
  rg1 0x8 [fd 0 15 .rc 0]  /- XT_SATCNT -/,
  rg1 0xC [fd 0 31 .ro 0]  /- XT_BIND -/,
  rg1 0x10 [fd 0 13 .rw 0, fd 16 28 .rw 0]  /- XT_MSEL -/,
  rg1 0x14 [fd 0 15 .rc 0, fd 16 31 .rc 0]  /- XT_MSTAT -/
]

/-- Registers of block PLAN, by their offset in its 4 KB slot. -/
def rowsPlan : List RegRow := [
  rg1 0x0 [fd 0 7 .rw 16, fd 8 15 .rw 10]  /- PLAN_CFG -/,
  rg1 0x4 [fd 0 7 .ro 128, fd 8 15 .ro 0, fd 16 23 .ro 0, fd 24 31 .ro 0]  /- PLAN_ARMSTAT -/,
  rg1 0x8 [fd 0 2 .ro 4, fd 3 3 .ro 0, fd 4 6 .ro 4, fd 7 7 .ro 0, fd 8 10 .ro 4, fd 11 11 .ro 0, fd 12 14 .ro 4, fd 15 15 .ro 0, fd 16 18 .ro 4, fd 19 19 .ro 0, fd 20 22 .ro 4, fd 23 23 .ro 0, fd 24 26 .ro 4, fd 27 27 .ro 0, fd 28 30 .ro 4, fd 31 31 .ro 0]  /- PLAN_SBUF -/,
  rg1 0xC [fd 0 31 .ro 0]  /- PLAN_ARMSEQ -/,
  rg1 0x10 [fd 0 6 .ro 0, fd 31 31 .ro 0]  /- PLAN_NEXT -/,
  rg1 0x14 [fd 0 15 .rc 0, fd 16 31 .rc 0]  /- PLAN_STROKES -/,
  rg1 0x18 [fd 0 15 .rc 0, fd 16 31 .rc 0]  /- PLAN_LATE -/,
  rg1 0x1C [fd 0 15 .rc 0, fd 16 31 .rc 0]  /- PLAN_CANCEL -/,
  rg1 0x20 [fd 0 15 .rw 100]  /- PLAN_CALCFG -/,
  rg1 0x24 [fd 0 1 .ro 0, fd 2 2 .ro 0, fd 8 15 .ro 0, fd 16 31 .ro 0]  /- PLAN_CALSTAT -/,
  rg1 0x28 [fd 0 15 .rc 0, fd 16 22 .ro 0]  /- PLAN_CALSKIP -/,
  rg1 0x2C [fd 0 31 .ro 0]  /- PLAN_CALNEXT_NS -/,
  rg1 0x30 [fd 0 31 .ro 0]  /- PLAN_CALNEXT_SL -/
]

/-- Registers of block CAL, by their offset in its 4 KB slot. -/
def rowsCal : List RegRow := [
  rg1 0x0 [fd 0 0 .rw 1, fd 1 1 .rw 1, fd 2 2 .rw 1, fd 8 15 .rw 10, fd 16 18 .rw 3, fd 19 21 .rw 3, fd 22 24 .rw 2]  /- CAL_CFG -/,
  rg1 0x4 [fd 0 7 .rw 1, fd 8 15 .rw 16, fd 16 23 .rw 16, fd 24 31 .rw 16]  /- CAL_CFG2 -/,
  rg1 0x8 [fd 0 0 .ro 0, fd 1 2 .ro 0]  /- CAL_STAT -/,
  rg1 0xC [fk 0 31 .ro 0]  /- CAL_CSEQ -/,
  rgN 0x10 8 4 [fk 0 31 .ro 0]  /- CAL_DIGEST -/,
  rg1 0x30 [fd 0 15 .ro 0, fd 16 31 .ro 0]  /- CAL_NCONV -/,
  rg1 0x34 [fd 0 15 .ro 0, fd 16 31 .ro 0]  /- CAL_NACT -/,
  rg1 0x38 [fd 0 15 .rc 0, fd 16 31 .rc 0]  /- CAL_SAMP -/,
  rg1 0x3C [fd 0 15 .rc 0, fd 16 31 .rc 0]  /- CAL_DROP -/
]

/-- Registers of block RED, by their offset in its 4 KB slot. -/
def rowsRed : List RegRow := [
  rg1 0x0 [fk 0 0 .ro 0, fk 1 1 .ro 0, fd 2 2 .ro 0, fk 3 3 .ro 0, fd 4 6 .ro 0, fd 7 7 .ro 0, fd 8 10 .ro 0, fd 11 11 .ro 0, fd 12 12 .ro 0]  /- RED_CAPOSTAT -/,
  rg1 0x4 [fd 0 0 .rw 1, fd 1 1 .rw 1, fd 2 2 .rw 1, fd 3 3 .rw 1, fd 4 10 .rw 63, fd 16 23 .rw 0, fd 24 31 .rw 3]  /- RED_CFG -/,
  rg1 0x8 [fd 0 0 .wo 0, fd 1 1 .wo 0, fd 2 2 .wo 0, fd 3 3 .wo 0, fd 4 4 .wo 0]  /- RED_CTL -/,
  rg1 0xC [fd 0 9 .rw 0]  /- RED_SWAP -/,
  rg1 0x10 [fd 0 0 .ro 0, fd 1 1 .ro 0, fd 2 2 .ro 0, fd 3 3 .ro 0, fd 4 4 .ro 0, fd 5 5 .ro 0, fd 6 6 .ro 0, fd 7 7 .ro 0, fd 8 8 .ro 0, fd 16 23 .ro 0, fd 24 31 .ro 0]  /- RED_HEALTH -/,
  rg1 0x14 [fd 0 0 .ro 0, fd 1 1 .ro 0, fd 2 2 .ro 0, fd 3 3 .ro 0, fd 4 4 .ro 0, fd 5 5 .ro 0, fd 6 6 .ro 0, fd 7 7 .ro 0, fd 8 8 .ro 0, fd 16 23 .ro 0, fd 24 31 .ro 0]  /- RED_PHEALTH -/,
  rg1 0x18 [fd 0 3 .ro 0, fd 8 15 .ro 0, fd 16 31 .ro 0]  /- RED_JOIN -/,
  rg1 0x1C [fd 0 2 .ro 0, fd 3 3 .ro 0]  /- RED_XFER -/,
  rg1 0x20 [fd 0 31 .ro 0]  /- RED_XFERFR -/,
  rg1 0x24 [fd 0 7 .rc 0, fd 8 15 .rc 0, fd 16 23 .rc 0, fd 24 31 .rc 0]  /- RED_CNT -/,
  rg1 0x28 [fd 0 7 .rc 0, fd 8 15 .rc 0, fd 16 23 .rc 0, fd 24 31 .rc 0]  /- RED_VERD -/,
  rg1 0x2C [fd 0 13 .ro 0, fd 14 14 .ro 0, fd 15 15 .ro 0]  /- RED_MM -/,
  rg1 0x30 [fd 0 31 .ro 0]  /- RED_MMCODE -/,
  rg1 0x34 [fd 0 31 .ro 0]  /- RED_MMFR -/,
  rgN 0x40 8 4 [fd 0 15 .rc 0, fd 16 23 .rc 0, fd 24 31 .rc 0]  /- RED_CMPERR -/
]

/-- Registers of block BRG, by their offset in its 4 KB slot. -/
def rowsBrg : List RegRow := [
  rg1 0x0 [fd 0 0 .ro 0, fd 1 1 .ro 0, fd 2 2 .ro 0, fd 3 3 .ro 0]  /- BRG_STAT -/,
  rg1 0x4 [fd 0 15 .rc 0, fd 16 31 .rc 0]  /- BRG_CNT -/
]

/-- Registers of block ETH, by their offset in its 4 KB slot. -/
def rowsEth : List RegRow := [
  rg1 0x0 [fd 0 0 .rw 0, fd 1 1 .rw 0, fd 2 2 .rw 0, fd 4 15 .rw 0, fd 16 29 .rw 1522]  /- ETH_CFG -/,
  rg1 0x4 [fd 0 31 .rw 0]  /- ETH_MAC_L -/,
  rg1 0x8 [fd 0 15 .rw 0]  /- ETH_MAC_H -/,
  rg1 0xC [fd 0 31 .rw 0]  /- ETH_IP4 -/,
  rgN 0x10 4 4 [fd 0 31 .rw 0]  /- ETH_IP6 -/,
  rg1 0x20 [fd 0 0 .ro 0, fd 16 31 .rc 0]  /- ETH_STAT -/,
  rg1 0x24 [fd 0 7 .rc 0, fd 8 15 .rc 0, fd 16 23 .rc 0, fd 24 31 .rc 0]  /- ETH_RXCNT -/,
  rgN 0x40 4 4 [fd 0 19 .rw 0, fd 20 20 .rw 0, fd 21 21 .rw 0, fd 22 29 .rw 0]  /- ETH_POLCFG -/,
  rgN 0x50 4 4 [fd 0 19 .rw 0, fd 20 20 .ro 0]  /- ETH_POLPIR -/,
  rgN 0x60 4 4 [fd 0 15 .rw 0, fd 16 31 .rw 0]  /- ETH_POLBS -/,
  rgN 0xA0 4 4 [fd 0 15 .ro 0, fd 16 31 .ro 0]  /- ETH_POLTOK -/,
  rgN 0x80 4 4 [fd 0 31 .rc 0]  /- ETH_POLG -/,
  rgN 0x90 4 4 [fd 0 15 .rc 0, fd 16 31 .rc 0]  /- ETH_POLYR -/,
  rgN 0x100 8 4 [fd 0 13 .rw 1536, fd 16 28 .rw 1024, fd 29 31 .rw 0]  /- ETH_QCFG -/,
  rg1 0x120 [fd 0 19 .rw 15625, fd 20 31 .rw 256]  /- ETH_Q6CAP -/,
  rgN 0x140 8 4 [fd 0 12 .ro 0, fd 13 13 .ro 0, fd 16 31 .ro 0]  /- ETH_QSTAT -/,
  rgN 0x160 8 4 [fd 0 12 .ro 0, fd 13 31 .ro 0]  /- ETH_QSAMP -/,
  rgN 0x180 8 4 [fd 0 12 .rc 0, fd 13 31 .rc 0]  /- ETH_QMAX -/,
  rgN 0x1A0 8 4 [fd 0 15 .rc 0, fd 16 31 .rc 0]  /- ETH_QDROP -/,
  rg1 0x1C0 [fd 0 15 .rw 1000]  /- ETH_SAMPCFG -/,
  rg1 0x1C4 [fd 0 12 .ro 6144, fd 13 25 .ro 0]  /- ETH_BUF -/,
  rg1 0x200 [fd 0 0 .rw 0, fd 1 7 .rw 1, fd 8 8 .ro 0, fd 9 9 .ro 0]  /- ETH_GCLCFG -/,
  rg1 0x204 [fd 0 31 .rw 0]  /- ETH_GCLBASE_NS -/,
  rg1 0x208 [fd 0 31 .rw 0]  /- ETH_GCLBASE_SL -/,
  rg1 0x20C [fd 0 31 .rw 0]  /- ETH_GCLCYC -/,
  rgN 0x300 64 4 [fd 0 7 .rw 0, fd 8 31 .rw 0]  /- ETH_GCL -/
]

/-- Registers of block ICT, by their offset in its 4 KB slot. -/
def rowsIct : List RegRow := [
  rg1 0x0 [fd 0 15 .rw 7340, fd 16 16 .rw 0]  /- ICT_CFG -/,
  rg1 0x4 [fd 0 31 .ro 0]  /- ICT_EPOCH -/,
  rgN 0x10 4 4 [fd 0 31 .ro 0]  /- ICT_NEXT -/,
  rg1 0x20 [fd 0 15 .rc 0, fd 16 31 .rc 0]  /- ICT_CNT -/,
  rg1 0x24 [fd 0 15 .rc 0, fd 16 31 .rc 0]  /- ICT_CNT2 -/,
  rg1 0x28 [fd 0 15 .rc 0, fd 16 31 .rc 0]  /- ICT_TGAP -/,
  rgN 0x40 16 4 [fd 0 0 .rw 0, fd 1 2 .rw 0, fd 3 5 .rw 0, fd 6 8 .rw 0, fd 9 11 .rw 0, fd 12 27 .rw 10, fd 28 29 .rw 0, fd 30 30 .ro 0]  /- ICT_TSTR -/,
  rgN 0x80 16 4 [fd 0 13 .rw 0, fd 16 28 .rw 1]  /- ICT_TSRC -/,
  rgN 0xC0 16 4 [fd 0 31 .ro 0]  /- ICT_TSEQ -/,
  rgNN 0x100 4 32 8 4 [fd 0 31 .rw 0]  /- ICT_DST -/
]

/-- Registers of block TIME, by their offset in its 4 KB slot. -/
def rowsTime : List RegRow := [
  rg1 0x0 [fk 0 15 .rw 0]  /- TIME_SEC_H -/,
  rg1 0x4 [fk 0 31 .rw 0]  /- TIME_SEC_L -/,
  rg1 0x8 [fk 0 31 .rw 0]  /- TIME_NS -/,
  rg1 0xC [fk 0 15 .rw 0]  /- TIME_FNS -/,
  rg1 0x10 [fd 0 0 .rw 1, fd 1 1 .rw 0, fd 4 7 .rw 8, fd 8 15 .rw 16, fd 16 23 .rw 50, fd 24 31 .rw 10]  /- TIME_CFG -/,
  rg1 0x14 [fd 0 15 .rw 20, fd 16 31 .rw 100]  /- TIME_THR -/,
  rg1 0x18 [fd 0 4 .rw 2, fd 16 20 .rw 6]  /- TIME_SERVO -/,
  rg1 0x1C [fd 0 31 .rw 0]  /- TIME_OFFS -/,
  rg1 0x2C [fd 0 31 .ro 0]  /- TIME_MON -/,
  rg1 0x30 [fd 0 31 .ro 0]  /- TIME_PART -/,
  rg1 0x20 [fd 0 1 .ro 0, fd 2 2 .ro 0, fd 3 3 .ro 0, fd 4 4 .w1c 0, fd 5 5 .w1c 0, fd 6 6 .w1c 0, fd 16 31 .rc 0]  /- TIME_STAT -/,
  rg1 0x24 [fk 0 31 .ro 0]  /- TIME_RATE -/,
  rg1 0x28 [fk 0 31 .ro 0]  /- TIME_INT -/,
  rg1 0x34 [fd 0 0 .wo 0]  /- TIME_CTL -/,
  rgN 0x38 2 4 [fd 0 15 .rw 0, fd 16 31 .rw 0]  /- TIME_LAT -/,
  rg1 0x40 [fd 0 1 .rw 0, fd 2 3 .rw 0, fd 4 4 .rw 0, fd 5 6 .rw 0, fd 7 7 .rw 0, fd 8 15 .rw 0, fd 16 23 .rw 128, fd 31 31 .ro 0]  /- TIME_PTPCFG -/,
  rg1 0x44 [fd 0 3 .ro 0, fd 4 7 .ro 0, fd 8 15 .ro 0]  /- TIME_PTPSTAT -/,
  rgN 0x50 2 16 [fd 0 4 .ro 0, fd 5 5 .w1c 0, fd 16 31 .rc 0]  /- TIME_TXQ -/,
  rgN 0x54 2 16 [fd 0 15 .rc 65535, fd 16 31 .rc 0]  /- TIME_TXID -/,
  rgN 0x58 2 16 [fd 0 31 .ro 0]  /- TIME_TXNS -/,
  rgN 0x5C 2 16 [fd 0 31 .ro 0]  /- TIME_TXSL -/,
  rgN 0x80 4 16 [fd 0 1 .rw 0, fd 2 2 .rw 0, fd 4 27 .rw 0, fd 28 28 .w1c 0, fd 29 29 .ro 0]  /- TIME_TOUTCFG -/,
  rgN 0x84 4 16 [fd 0 31 .rw 0]  /- TIME_TOUTNS -/,
  rgN 0x88 4 16 [fd 0 31 .rw 0]  /- TIME_TOUTSL -/,
  rgN 0x8C 4 16 [fd 0 31 .rw 0]  /- TIME_TOUTPER -/,
  rgN 0xC0 2 16 [fd 0 1 .rw 0, fd 2 2 .w1c 0, fd 16 31 .ro 0]  /- TIME_TCAPCFG -/,
  rgN 0xC4 2 16 [fd 0 31 .ro 0]  /- TIME_TCAPNS -/,
  rgN 0xC8 2 16 [fd 0 31 .ro 0]  /- TIME_TCAPSL -/,
  rgN 0xCC 2 16 [fd 0 15 .ro 0]  /- TIME_TCAPFNS -/,
  rg1 0xF0 [fd 0 7 .ro 0, fd 8 15 .ro 0]  /- TIME_TILE -/
]

/-- Registers of block EVF, by their offset in its 4 KB slot. -/
def rowsEvf : List RegRow := [
  rgNN 0x0 256 8 2 4 [fk 0 31 .rw 0]  /- EVF_P2C -/,
  rgNN 0x800 64 24 6 4 [fk 0 31 .rw 0]  /- EVF_C2K -/,
  rgN 0xE00 64 4 [fd 0 0 .w1c 0, fd 1 1 .ro 0, fd 2 2 .w1c 0, fd 3 3 .w1c 0, fd 16 31 .rc 0]  /- EVF_CH -/,
  rg1 0xF00 [fk 0 1 .rw 0, fk 4 11 .rw 10]  /- EVF_CFG -/,
  rg1 0xF04 [fk 0 7 .rw 255]  /- EVF_GRP -/,
  rg1 0xF08 [fd 0 5 .wo 0]  /- EVF_FIRE -/,
  rg1 0xF0C [fd 0 3 .w1c 0]  /- EVF_CSTAT -/,
  rgN 0xF10 2 4 [fd 0 31 .ro 0]  /- EVF_SEEN -/,
  rgN 0xF18 2 4 [fd 0 31 .ro 0]  /- EVF_LEVEL -/,
  rgN 0xF20 6 4 [fd 0 31 .w1c 0]  /- EVF_KOVR -/,
  rgN 0xF40 6 4 [fd 0 31 .w1c 0]  /- EVF_KCOINC -/,
  rg1 0xF60 [fd 0 15 .rc 0, fd 16 31 .rc 0]  /- EVF_CNT -/
]

/-- Registers of block MBX, by their offset in its 4 KB slot. -/
def rowsMbx : List RegRow := [
  rgNN 0x0 16 64 16 4 [fd 0 31 .ro 0]  /- MBX_DATA -/,
  rgN 0x400 16 4 [fd 0 0 .ro 0, fd 1 1 .ro 1, fd 2 2 .w1c 0, fd 3 3 .w1c 0, fd 4 4 .w1c 0, fd 5 5 .ro 0, fd 8 15 .ro 0, fd 16 23 .ro 0, fd 24 26 .ro 0]  /- MBX_STAT -/,
  rgN 0x440 16 4 [fd 0 2 .rw 0, fd 3 3 .rw 0, fd 4 4 .rw 1, fd 5 5 .rw 1]  /- MBX_CFG -/,
  rgN 0x480 16 4 [fd 0 31 .hw 0]  /- MBX_HSTAGE -/,
  rg1 0x4C0 [fd 0 3 .hw 0]  /- MBX_HPOST -/,
  rg1 0x4C4 [fd 0 3 .hw 0]  /- MBX_HTAKE -/,
  rg1 0x4C8 [fd 0 7 .ro 0, fd 8 11 .ro 0, fd 12 12 .ro 0]  /- MBX_HRES -/,
  rg1 0x4CC [fd 0 4 .wo 0]  /- MBX_EPRST -/
]

/-- Registers of block ALV, by their offset in its 4 KB slot. -/
def rowsAlv : List RegRow := [
  rg1 0x0 [fd 0 0 .rw 0, fd 1 1 .rw 1, fd 4 7 .rw 1, fd 8 11 .rw 14, fd 16 23 .rw 10, fd 24 31 .rw 100]  /- ALV_CFG -/,
  rg1 0x4 [fd 0 31 .rw 0]  /- ALV_HBEAT -/,
  rg1 0x8 [fd 0 11 .ro 0, fd 12 12 .ro 0, fd 13 13 .ro 0, fd 14 14 .ro 0, fd 16 31 .rc 0]  /- ALV_HBSTAT -/,
  rg1 0xC [fk 0 15 .ro 0, fk 16 16 .ro 0, fk 17 17 .ro 0, fk 18 18 .ro 0, fk 19 19 .ro 0, fk 24 31 .ro 0]  /- ALV_SUM -/,
  rg1 0x10 [fk 0 7 .ro 0, fk 8 9 .ro 0, fk 10 10 .ro 0, fk 11 11 .ro 0, fk 15 15 .ro 0, fk 16 31 .ro 0]  /- ALV_FIRSTFAULT -/,
  rg1 0x14 [fk 0 31 .ro 0]  /- ALV_FIRSTINFO -/,
  rg1 0x18 [fk 0 31 .ro 0]  /- ALV_FIRSTNS -/,
  rg1 0x1C [fk 0 31 .ro 0]  /- ALV_FIRSTSL -/,
  rg1 0x20 [fk 0 7 .ro 0, fk 16 31 .rc 0]  /- ALV_LOG -/,
  rgN 0x40 5 4 [fk 0 31 .ro 0]  /- ALV_PEND -/,
  rgN 0x100 160 4 [fd 0 0 .ro 0, fk 1 1 .w1c 0, fk 2 2 .w1c 0, fd 3 3 .rw 0, fd 4 5 .ro 0, fk 16 31 .rc 0]  /- ALV_SRC -/
]

/-- Registers of block PWR, by their offset in its 4 KB slot. -/
def rowsPwr : List RegRow := [
  rg1 0x0 [fd 0 1 .ro 0, fd 2 2 .ro 0, fd 3 3 .w1c 0, fk 4 6 .ro 0, fd 8 8 .ro 1, fk 9 9 .ro 0]  /- PWR_STAT -/,
  rg1 0x4 [fd 0 1 .rw 0]  /- PWR_REQ -/,
  rg1 0x8 [fd 0 0 .rw 1, fd 1 3 .rw 7, fd 4 4 .rw 1, fd 8 11 .rw 4]  /- PWR_CFG -/,
  rg1 0xC [fk 0 31 .rw 0]  /- PWR_WAKENS -/,
  rg1 0x10 [fk 0 31 .rw 0]  /- PWR_WAKESL -/,
  rg1 0x14 [fk 0 17 .rw 160000]  /- PWR_MPLIM -/,
  rg1 0x18 [fk 0 11 .rw 2000]  /- PWR_VACTLIM -/,
  rg1 0x1C [fk 0 9 .ro 800, fk 16 25 .ro 800, fd 26 26 .ro 0]  /- PWR_AVS -/,
  rg1 0x20 [fd 0 0 .ro 0, fd 1 1 .ro 0, fk 2 2 .ro 0, fd 3 3 .ro 0, fd 4 4 .ro 0, fk 8 15 .ro 0, fk 16 31 .rc 0]  /- PWR_STAGE -/,
  rg1 0x24 [fk 0 15 .rc 65535, fk 16 31 .rc 0]  /- PWR_VIN -/,
  rgN 0x28 3 4 [fk 0 31 .ro 0]  /- PWR_SDOM -/,
  rgN 0x34 2 4 [fk 0 31 .ro 0]  /- PWR_TDOM -/,
  rg1 0x3C [fd 0 0 .wo 0]  /- PWR_CTL -/
]

/-- Registers of block THM, by their offset in its 4 KB slot. -/
def rowsThm : List RegRow := [
  rg1 0x0 [fd 0 7 .rw 32, fd 8 11 .rw 0, fd 12 15 .rw 3, fd 16 23 .rw 10, fd 24 24 .rw 1]  /- THM_CFG -/,
  rg1 0x4 [fd 0 7 .rw 135, fd 8 15 .rw 120, fd 16 23 .rw 110]  /- THM_LVL -/,
  rgN 0x8 8 4 [fk 0 23 .rw 0, fk 24 24 .rw 0, fk 25 25 .rw 0]  /- THM_TRES -/,
  rgN 0x28 8 4 [fd 0 4 .ro 16, fd 5 5 .ro 0, fd 6 6 .ro 0, fd 16 31 .rc 0]  /- THM_TILE -/,
  rg1 0x48 [fd 0 0 .ro 0, fd 1 1 .ro 0, fd 2 2 .ro 0, fd 4 9 .ro 0, fd 16 31 .ro 0]  /- THM_STAT -/,
  rg1 0x4C [fk 0 15 .rc 0]  /- THM_PEAK -/,
  rgN 0x50 8 4 [fk 0 7 .rw 0]  /- THM_TMASK -/,
  rgN 0x100 64 4 [fk 0 15 .ro 0, fk 16 31 .ro 0]  /- THM_SENS -/
]

/-- Registers of block AGE, by their offset in its 4 KB slot. -/
def rowsAge : List RegRow := [
  rg1 0x0 [fd 0 0 .rw 1, fd 1 1 .rw 1, fd 2 4 .rw 1, fd 8 15 .rw 50, fd 16 23 .rw 80]  /- AGE_CFG -/,
  rg1 0x4 [fd 0 7 .rw 50, fd 8 15 .rw 50, fd 16 31 .rw 256]  /- AGE_THR -/,
  rg1 0x8 [fd 0 15 .ro 0, fd 16 31 .ro 0]  /- AGE_CAP -/,
  rg1 0xC [fd 0 15 .ro 0, fd 16 20 .ro 0, fd 21 21 .ro 0, fd 22 22 .ro 0]  /- AGE_STAT -/,
  rg1 0x10 [fd 0 7 .rc 0, fd 8 15 .rc 0, fd 16 23 .rc 0, fd 24 31 .rc 0]  /- AGE_CNT -/,
  rg1 0x14 [fd 0 14 .ro 0]  /- AGE_NLOW -/
]

/-- Registers of block GEN, by their offset in its 4 KB slot. -/
def rowsGen : List RegRow := [
  rg1 0x100 [fk 0 0 .w1c 0, fk 1 1 .w1c 0, fk 2 2 .w1c 0, fk 3 3 .w1c 0, fk 4 4 .w1c 0, fk 5 5 .w1c 0, fk 6 6 .w1c 0, fk 7 7 .w1c 0, fk 16 31 .ro 0]  /- GEN_RSTCAUSE -/,
  rg1 0x104 [fd 0 0 .wo 0, fd 8 15 .wo 0]  /- GEN_RST -/,
  rgN 0x108 2 4 [fd 0 31 .wo 0]  /- GEN_ERST -/,
  rg1 0x110 [fd 0 7 .ro 0, fd 16 31 .rc 0]  /- GEN_RSTSTAT -/,
  rg1 0x0 [fk 0 15 .ro 7830, fk 16 31 .ro 19222]  /- GEN_ID -/,
  rg1 0x4 [fk 0 7 .ro 33, fk 8 15 .ro 19, fk 16 23 .ro 2, fk 24 31 .ro 4]  /- GEN_REV -/,
  rg1 0x8 [fk 0 0 .ro 0, fk 8 15 .ro 255]  /- GEN_STRAP -/,
  rg1 0xC [fk 0 31 .ro 0]  /- GEN_SERIAL_L -/,
  rg1 0x10 [fk 0 31 .ro 0]  /- GEN_SERIAL_H -/,
  rg1 0x14 [fk 0 14 .ro 16384, fk 16 27 .ro 2048]  /- GEN_CAPS -/,
  rg1 0x18 [fk 0 7 .ro 64, fk 8 15 .ro 36, fk 16 19 .ro 4, fk 20 27 .ro 128]  /- GEN_CAPS2 -/,
  rgN 0x20 2 4 [fk 0 31 .ro 0]  /- GEN_BLKPRES -/
]

/-- Registers of block PEG, by their offset in its 4 KB slot. -/
def rowsPeg : List RegRow := [
  rg1 0x0 [fd 0 0 .ro 0, fd 1 1 .ro 0, fd 16 31 .rc 0]  /- PEG_STAT -/,
  rg1 0x4 [fk 0 20 .ro 0, fk 21 31 .ro 0]  /- PEG_WMAX -/,
  rg1 0x8 [fd 0 10 .rw 0]  /- PEG_WSEL -/,
  rg1 0xC [fk 0 20 .ro 0]  /- PEG_WCNT -/
]

/-- Registers of block SEC, by their offset in its 4 KB slot. -/
def rowsSec : List RegRow := [
  rg1 0x0 [fd 0 0 .ro 0, fd 1 1 .ro 0, fd 2 4 .ro 0, fd 5 7 .ro 0, fd 8 9 .ro 0, fd 10 11 .ro 0, fd 12 12 .ro 0]  /- SEC_BOOT -/,
  rg1 0x4 [fd 0 31 .ro 0]  /- SEC_FWSVN -/,
  rg1 0x8 [fk 0 31 .ro 0]  /- SEC_FWFLOOR -/,
  rg1 0xC [fk 0 31 .ro 0]  /- SEC_DSFLOOR -/,
  rg1 0x10 [fk 0 31 .ro 0]  /- SEC_KYFLOOR -/,
  rg1 0x14 [fk 0 31 .ro 0]  /- SEC_BOOTCNT -/,
  rg1 0x18 [fk 0 7 .ro 0, fk 8 15 .ro 0, fk 16 19 .ro 0]  /- SEC_KEYS -/,
  rgN 0x20 8 4 [fd 0 31 .ro 0]  /- SEC_FWMEAS -/,
  rgN 0x40 8 4 [fd 0 31 .ro 0]  /- SEC_IDPK -/,
  rgN 0x60 8 4 [fd 0 31 .ro 0]  /- SEC_DBGNONCE -/
]

/-- Registers of block DBG, by their offset in its 4 KB slot. -/
def rowsDbg : List RegRow := [
  rg1 0x0 [fd 0 0 .ro 0, fd 1 1 .ro 0, fd 2 5 .ro 0, fd 6 6 .w1c 0, fd 7 7 .w1c 0]  /- DBG_STAT -/,
  rg1 0x4 [fd 0 3 .hw 0, fd 4 7 .wo 0]  /- DBG_CTL -/,
  rg1 0x8 [fd 0 31 .hw 0]  /- DBG_ADDR -/,
  rg1 0xC [fd 0 31 .hw 0]  /- DBG_DATA -/
]

/-- Registers of block PCIE, by their offset in its 4 KB slot. -/
def rowsPcie : List RegRow := [
  rg1 0x0 [fk 0 0 .ro 0, fk 1 3 .ro 0, fk 4 5 .ro 0]  /- PCIE_STAT -/,
  rg1 0x4 [fd 0 15 .rc 0, fd 16 31 .rc 0]  /- PCIE_CNT -/,
  rg1 0x8 [fd 0 15 .rc 0, fd 16 31 .rc 0]  /- PCIE_ERR -/
]

/-- Registers of block QSPI, by their offset in its 4 KB slot. -/
def rowsQspi : List RegRow := [
  rg1 0x0 [fd 0 0 .ro 0, fd 1 1 .ro 0]  /- QSPI_STAT -/,
  rg1 0x4 [fd 0 23 .ro 0]  /- QSPI_JEDEC -/,
  rg1 0x8 [fd 0 15 .rc 0, fd 16 31 .rc 0]  /- QSPI_CNT -/
]

/-- Registers of block PSTG, by their offset in its 4 KB slot. -/
def rowsPstg : List RegRow := [
  rg1 0x0 [fk 0 15 .ro 0]  /- PSTG_PHASE -/,
  rg1 0x4 [fk 0 15 .rc 0]  /- PSTG_LINK -/
]

/-- Registers of block TLK, by their offset in its 4 KB slot. -/
def rowsTlk : List RegRow := [
  rg1 0x0 [fk 0 0 .ro 0, fk 1 8 .ro 0, fk 9 9 .ro 0]  /- TLK_STAT -/,
  rg1 0x4 [fd 0 15 .rc 0, fd 16 31 .rc 0]  /- TLK_ERR -/,
  rg1 0x8 [fd 0 15 .rc 0, fd 16 31 .rc 0]  /- TLK_DISC -/,
  rg1 0xC [fd 0 31 .ro 0]  /- TLK_CODES -/
]

/-- Registers of block SRB, by their offset in its 4 KB slot. -/
def rowsSrb : List RegRow := [
  rg1 0x0 [fd 0 18 .ro 0]  /- SRB_SCRUB -/,
  rg1 0x4 [fd 0 15 .rc 0, fd 16 31 .rc 0]  /- SRB_CNT -/,
  rg1 0x8 [fd 0 31 .ro 0]  /- SRB_LASTERR -/
]

/-- The registers of the slot `k` of a string's register map (R443, R444); slots 3 and 7 hold no block, and slots 8 to 15 are the tiles. -/
def slotRows (k : Nat) : List RegRow :=
  match k with
  | 0 => rowsGen
  | 1 => rowsRing
  | 2 => rowsSeq
  | 4 => rowsEng
  | 5 => rowsEngmap
  | 6 => rowsDrn
  | 16 => rowsPlan
  | 17 => rowsCal
  | 18 => rowsRed
  | 21 => rowsTime
  | 22 => rowsEvf
  | 23 => rowsMbx
  | 24 => rowsAlv
  | 25 => rowsPwr
  | 26 => rowsThm
  | 27 => rowsAge
  | 28 => rowsHka
  | 29 => rowsPeg
  | 30 => rowsSec
  | 31 => rowsBrg
  | 32 => rowsDbg
  | 33 => rowsFab
  | 34 => rowsRte
  | 35 => rowsXt
  | 36 => rowsIct
  | 37 => rowsPcie
  | 38 => rowsQspi
  | 39 => rowsPstg
  | 0x13 => rowsEth
  | 0x14 => rowsEth
  | _ => if 8 ≤ k ∧ k < 16 then rowsTile else if 0x28 ≤ k ∧ k < 0x30 then rowsTlk else if 0x30 ≤ k ∧ k < 0x40 then rowsSrb else []

/-- The place of offset `o` in a register row, as its two indices, where the row has a register there. -/
def RegRow.place (r : RegRow) (o : Nat) : Option (Nat × Nat) :=
  if o < r.base then none else
  let d := o - r.base
  let i := if r.s1 = 0 then 0 else min (d / r.s1) (r.n1 - 1)
  let e := d - i * r.s1
  let j := if r.s2 = 0 then 0 else e / r.s2
  if e = j * r.s2 ∧ i < r.n1 ∧ j < r.n2 then some (i, j) else none

/-- The row and indices of the register at offset `o` of a slot. -/
def findRow : List RegRow → Nat → Option (RegRow × Nat × Nat)
  | [], _ => none
  | r :: rs, o => match r.place o with | some p => some (r, p) | none => findRow rs o

/-- The register at BAR0 offset `o` (a multiple of 4). -/
def regAt (o : Nat) : Option (RegRow × Nat × Nat) := findRow (slotRows (o / 0x1000)) (o % 0x1000)

/-- The fields of the register at BAR0 offset `o`; none where no register stands (R443). -/
def regFields (o : Nat) : List RegField := match regAt o with | some (r, _) => r.fields | none => []

end Sys2Proof.Machine
end

