-- ==== Sys2Proof/Machine/State.lean ====
section
/-! DEFINITION. The state of the module as plain data. -/

namespace Sys2Proof.Machine

/-- A core's run state (SEQ_CORESTAT.RUN, 02_quinli_isa.md). -/
inductive RunState where
  | notReleased
  | running
  | waiting
  | halted
  | stopped
  deriving DecidableEq, Repr

/-- An operation of R58 that the standby completes with the active string's outcome, and what its own execution needs. -/
inductive Follow where
  /-- its own effects are done; its own status where it has one -/
  | plain (own : Option Nat)
  /-- PLARM: slot, policy, TREQ (none: not a time) -/
  | arm (slot policy : Nat) (treq : Option Nat)
  /-- PLCANCEL -/
  | cancel (slot : Nat)
  /-- CALSET: action and the words of the image -/
  | calset (act : Nat) (img : List Nat)
  /-- EVWAIT: channel, and whether it clears SEEN -/
  | event (ch : Nat) (clear : Bool)
  /-- TSREAD: the address of the TS96, where it writes one -/
  | time (ga : Option Nat)
  deriving DecidableEq, Repr

/-- What a waiting core waits for. -/
inductive Wait where
  /-- nothing -/
  | idle
  /-- the commit of its phrase's claim (R86) -/
  | commit
  /-- EVWAIT on a channel, with the clear bit and the instant it times out (R63) -/
  | event (gd ch : Nat) (clear : Bool) (stop : Option Nat)
  /-- on the standby: the active string's outcome of an operation (R58) -/
  | outcome (gd : Nat) (k : Follow)
  /-- FENCE with the F kind (R67) -/
  | frames
  /-- PLARM: the staging acknowledgements for the chain of a slot (R246, R248) -/
  | arm (gd slot : Nat)
  /-- PLCANCEL: the withdrawal of an armed slot (R252) -/
  | cancel (gd slot : Nat)
  deriving DecidableEq, Repr

/-- One sequencer core (R39). STATUS is held without PCX, which equals PHRASE.ACTIVE; IPEND is derived (R373). -/
structure CoreSt where
  g : Tab Word
  pc : Word
  status : Word
  phrase : Word
  phseqL : Word
  phseqH : Word
  epcFw : Word
  causeFw : Word
  badFw : Word
  tvecFw : Word
  scrFw : Word
  imask : Word
  epcSm : Word
  causeSm : Word
  badSm : Word
  tvecSm : Word
  scrSm : Word
  run : RunState
  wait : Wait
  /-- halted by DBG_CTL (R449) -/
  dbgHalt : Bool
  /-- its phrase is retired, and the core is still in the handler that the end of the phrase entered (R57) -/
  ended : Bool
  /-- SRAM as the core's instruction fetch sees it, up to the latest FENCE with the I kind or claim (R76) -/
  text : Mem
  deriving DecidableEq, Repr

/-! ## Tiles (05 to 07, 10, 11) -/

/-- The bow of one channel in a stroke (R137, R138): its buffer, arm number, levels and span. -/
structure Bow where
  buf : Nat
  armSeq : Nat
  p0 : Nat
  p1 : Nat
  g : Nat
  n1 : Nat
  n2 : Nat
  ts : Nat
  te : Nat
  /-- R142 made its stroke play P1 -/
  clip : Bool
  deriving DecidableEq, Repr

/-- One drive channel of a tile (R126 to R148) with its drone and observer (R171 to R178). Instants are in 2^-16 ns. -/
structure Chan where
  code : Nat
  power : Nat
  range : Nat
  enable : Bool
  openCode : Nat
  amp : Nat
  res : Nat
  kcorr : Nat
  resValid : Bool
  /-- sticky flags [8:0] and TRIP [9] (R147) -/
  flags : Nat
  /-- live SHORT, COMP, EXTV, PAIR, RETERR, RDRIFT -/
  live : Nat
  rref : Nat
  tripCnt : Nat
  compCnt : Nat
  /-- the rate code of the running loop, where one runs (R135, R289), and the effect frame of the latest change of its running or its rate -/
  loop : Option Nat
  loopAt : Nat
  bow : Option Bow
  /-- the instant that ended the latest settle hold -/
  lastTe : Option Nat
  /-- its latest load is held under R141 -/
  held : Bool
  /-- a RANGE change that waits for t_e (R132) -/
  newRange : Option Nat
  /-- KCORR in force when the hold began (R172) -/
  holdK : Nat
  pilot : Nat
  /-- ACT record: NOPILOT or ROLE unused -/
  noPilot : Bool
  /-- current observer, a tile-local pickup (R177) -/
  obs : Option Nat
  /-- listed pickups that are eligible, with the boundary since which each is -/
  elig : List (Nat × Nat)
  /-- latest boundary that carries OBSCHG -/
  obsChgEnd : Nat
  /-- span of boundaries that carry STROKE: first bow step, last boundary -/
  strokeFrom : Nat
  strokeEnd : Nat
  /-- instant of the latest window restart by AMP or ENABLE, but for one by AMP during a stroke, which has its own (R183) -/
  restart : Nat
  strokeAmp : Nat
  /-- instants of the latest two clamped dither steps -/
  clipAt : Option Nat
  clipPrev : Option Nat
  /-- the code holds a dither -/
  dith : Bool
  /-- reason code of the latest entry, where it has one -/
  reason : Option Nat
  deriving DecidableEq, Repr

/-- A channel after a cold reset; RREF is 0 until a descriptor gives them (log entry 10). -/
def Chan.cold : Chan where
  code := 0
  power := 0
  range := 0
  enable := false
  openCode := 0
  amp := 0
  res := 0
  kcorr := 16384
  resValid := false
  flags := 0
  live := 0
  rref := 0
  tripCnt := 0
  compCnt := 0
  loop := none
  loopAt := 0
  bow := none
  lastTe := none
  held := false
  newRange := none
  holdK := 16384
  pilot := 0
  noPilot := true
  obs := none
  elig := []
  obsChgEnd := 0
  strokeFrom := 0
  strokeEnd := 0
  restart := 0
  strokeAmp := 0
  clipAt := none
  clipPrev := none
  dith := false
  reason := none

/-- A window comparator's state (R159). -/
inductive Cmp where
  | unknown
  | inside
  | below
  | above
  deriving DecidableEq, Repr

/-- One sample in a demodulation window (R174): its instant, x' in 1/16 code (the sample, or what replaces it, less the
offset in force, R268), and whether it is fit. -/
structure Smp where
  t : Nat
  x : Int
  fit : Bool
  deriving DecidableEq, Repr

/-- A comparator with its window (R159, R160): its state, the state that the judged samples of the present run fall in, and how many
they are. -/
structure Band where
  lo : Nat
  hi : Nat
  cmp : Cmp
  runTo : Cmp
  runLen : Nat
  deriving DecidableEq, Repr

/-- What a conversion under way keeps of its sampling instant (R151, R156, R162): the TIA range, the marks REC, TEST and BSET, and the
comparator as it was where a window has been written since. -/
structure Take where
  tia : Nat
  reco : Bool
  test : Bool
  bset : Bool
  old : Option Band
  deriving DecidableEq, Repr

def Take.none : Take := ⟨0, false, false, false, Option.none⟩

/-- Statistics of the fit samples of one report interval, by its number (R164). -/
structure Stat where
  iv : Nat
  lo : Nat
  hi : Nat
  sum : Nat
  cnt : Nat
  deriving DecidableEq, Repr

/-- One pickup channel (R150 to R164). -/
structure Mon where
  tia : Nat
  winLo : Nat
  winHi : Nat
  code : Nat
  /-- OVR, REC, NREC, TEST, BSET of the latest sample -/
  marks : Nat
  /-- sticky OVR, TRG_OVR, WLO, WHI, UNDER, POPEN, PSHORT -/
  flags : Nat
  liveOvr : Bool
  liveUnder : Bool
  liveOpen : Bool
  liveShort : Bool
  cmp : Cmp
  /-- the state that the judged samples of the present run fall in, and how many they are -/
  runTo : Cmp
  runLen : Nat
  /-- samples still to be taken that carry REC -/
  recov : Nat
  /-- instant of the latest overranged sample -/
  ovrAt : Option Nat
  /-- trigger instant of the conversion under way, and what it keeps of that instant -/
  busy : Option Nat
  took : Take
  ovrCnt : Nat
  trgCnt : Nat
  capq : Nat
  winCnt : Nat
  /-- sweep statistics of the intervals not yet reported -/
  stats : List Stat
  /-- statistics of the running null slot -/
  nMin : Nat
  nSum : Nat
  nCnt : Nat
  lastFit : Option Nat
  /-- samples of the window, newest first -/
  win : List Smp
  deriving DecidableEq, Repr

/-- A pickup after a cold reset. -/
def Mon.cold : Mon where
  tia := 0
  winLo := 0
  winHi := 0
  code := 0
  marks := 0
  flags := 0
  liveOvr := false
  liveUnder := false
  liveOpen := false
  liveShort := false
  cmp := .unknown
  runTo := .unknown
  runLen := 0
  recov := 0
  ovrAt := none
  busy := none
  took := Take.none
  ovrCnt := 0
  trgCnt := 0
  capq := 0
  winCnt := 0
  stats := []
  nMin := 0
  nSum := 0
  nCnt := 0
  lastFit := none
  win := []

/-- One entry of a share in a stroke buffer (R137, R246). -/
structure ShareEnt where
  act : Nat
  p1 : Nat
  te : Nat
  g : Nat
  n1 : Nat
  n2 : Nat
  deriving DecidableEq, Repr

/-- One entry of a share as a string sends it (R246, R248): tile-local actuator, target, t_e and the bow shape's index. -/
structure ShareMsg where
  act : Nat
  p1 : Nat
  te : Nat
  shape : Nat
  deriving DecidableEq, Repr

/-- State of a stroke buffer (TILE_SBUF.STATE). -/
inductive BufState where
  | free
  | staged
  | playing
  | suspended
  deriving DecidableEq, Repr

/-- A stroke buffer (R246 to R252). -/
structure Buf where
  state : BufState
  cal : Bool
  slot : Nat
  armSeq : Nat
  ts : Nat
  ents : List ShareEnt
  /-- SHA-256 of the share -/
  digest : List Byte
  odclip : Bool
  /-- channels of the share that took P1 as OPEN_CODE at their t_e, with it (R249) -/
  opened : List (Nat × Nat)
  deriving DecidableEq, Repr

def Buf.cold : Buf := ⟨.free, false, 0, 0, 0, [], [], false, []⟩

/-- A code record that a string delivered for a boundary (R289): frame number, codes by tile-local loop, and the running
set where it is a first record after a cold take. -/
structure CodeRec where
  frame : Nat
  codes : List (Nat × Nat)
  running : Option (List (Nat × Nat))
  deriving DecidableEq, Repr

/-- One element of a pickup's VIS record as the tile holds it (R114): the tile-local actuator (none: one of another tile),
its RANK and its pilot. -/
structure VisEnt where
  act : Option Nat
  rank : Nat
  pilot : Nat
  deriving DecidableEq, Repr

/-- An error record (R181). -/
structure ErrRec where
  magic : Nat
  tile : Nat
  hold : Bool
  free : Bool
  nul : Bool
  pwrHold : Bool
  frame : Nat
  nvalid : Nat
  rseq : Nat
  /-- valid entries and reasons by tile-local act; an act not listed carries reason NOPILOT -/
  ents : List (Nat × Nat × Nat)
  deriving DecidableEq, Repr

/-- A report from a tile on its link to a string. -/
inductive TRep where
  /-- a condition: the tile source k of R364 it raises with its INFO, and the k of producer 8n + k that it fires (R343) -/
  | cond (k : Option Nat) (info : Nat) (prod : Option Nat)
  /-- an error record (R181) -/
  | error (r : ErrRec)
  /-- staging acknowledgement (R246): slot, ARMSEQ, accepted -/
  | stageAck (slot armSeq : Nat) (ok : Bool)
  /-- reply to a withdrawal request (R252) -/
  | withdrawReply (slot armSeq : Nat) (ok : Bool)
  /-- acknowledgement of COMMIT or RESTORE (R252) -/
  | withdrawAck (slot armSeq : Nat)
  /-- a share was played, with the ODCLIP summary (R248); the channels that took P1 as OPEN_CODE (R249) -/
  | played (slot armSeq : Nat) (odclip : Bool) (opened : List (Nat × Nat))
  /-- a share was missed (R251) -/
  | missed (slot armSeq : Nat)
  /-- a mismatch of codes (R296): tile-local act, frame, code of A, code of B -/
  | mismatch (act frame ca cb : Nat)
  /-- a share digest differs (R247) -/
  | digest (slot armSeq : Nat)
  /-- MISSCAPO at a frame (R296), and whether the other string delivered -/
  | missCapo (frame : Nat) (other : Bool)
  deriving DecidableEq, Repr

/-- One tile (R20). Instants are of its own time copy, in 2^-16 ns. -/
structure TileSt where
  regs : Tab Word
  chans : Tab Chan
  mons : Tab Mon
  /-- sticky OPEN of the thermistors (R163) -/
  thmSticky : Nat
  bufs : Tab Buf
  /-- the local copy of network time -/
  time : Nat
  /-- the copy free-runs (R22, R336) -/
  freeRun : Bool
  /-- a step found at a reslaving waits for this instant of the copy (R336) -/
  stepAt : Option Nat
  /-- the instant of the copy at its latest update (R336) -/
  timeAt : Nat
  /-- the rate of the string it was last slaved to, in 2^-8 ppb (R22) -/
  rate : Int
  /-- the latest sample of the capo lines (R284) -/
  capoA : Bool
  capoB : Bool
  /-- the string whose line alone was asserted at the latest sample with one line asserted -/
  master : Option Str
  /-- the string that it was slaved to before the latest sample, which governs from the boundary `slaveAt` on (R284, R22) -/
  slave : Option Str
  slaveAt : Nat
  hold : Bool
  /-- consecutive frames of its fastest running loop without a capo code (R28), and frames at which a code due was late or absent (R25) -/
  missRun : Nat
  missed : Nat
  codesA : List CodeRec
  codesB : List CodeRec
  /-- COMPARE on from this frame (R293 step 10, R296), and off from this boundary, where the standby has been dropped -/
  cmpFrom : Option Nat
  cmpOff : Option Nat
  /-- instant of the latest mismatch report of a channel (R296) -/
  mmLast : List (Nat × Nat)
  /-- channels whose OPEN_CODE was adopted from a running set and is still to be written by the strings (R289) -/
  adopted : List Nat
  /-- mirror of the calibration record at the record's addresses (R269) -/
  mirror : Mem
  /-- the mirror holds a record -/
  mirrored : Bool
  /-- instant of the latest restart of all windows, and of the windows of each pickup bank (R175) -/
  restart : Nat
  restart0 : Nat
  restart1 : Nat
  /-- latest null slot: start, end, mask (R179) -/
  nul : Nat × Nat × Nat
  /-- a null slot is running -/
  nulOn : Bool
  /-- end of the settling of each pickup bank's bias (R150); 0 none -/
  settle0 : Nat
  settle1 : Nat
  /-- busy trigger paths (R155): group, trigger instant, conversions started -/
  trig : List (Nat × Nat × Bool)
  /-- two stroke buffers are reserved for the calendar (R246) -/
  calRes : Bool
  /-- a record has been sent -/
  sent : Bool
  /-- the VIS records of its pickups (R114) -/
  vis : Tab (List VisEnt)
  /-- power domains on: bit i tile domain i (R36) -/
  power : Nat
  /-- pickups at the reduced rate of the power state HOLD (R153) -/
  pwrHold : Bool
  /-- the factor F_n of the thermal throttle that it applied last, 0 to 16 (R392) -/
  throttle : Nat
  /-- tags (sequence numbers) of phrases whose effects it has applied (R96) -/
  applied : List Nat
  /-- THM_TRES and THM_TMASK of its thermal throttle condition, as the capo string sent them (R392) -/
  tres : Nat
  tmask : Nat
  toA : List TRep
  toB : List TRep
  /-- free values drawn (the model's own counter, log entry 2) -/
  free : Nat
  deriving DecidableEq, Repr

/-! ## What travels between the dies -/

/-- A frame-bound effect of a phrase (03_rings_ordering.md R87). -/
inductive Effect where
  /-- CHWR: class, index, selector, value (R60) -/
  | chan (cls idx sel v : Nat)
  /-- LOOPSET: loop, mode, words 0 to 3 of the image (R61, R186) -/
  | loop (n mode w0 w1 w2 w3 : Nat)
  /-- FRETSET: loop, fret, lock (R61, R195) -/
  | fret (n f : Nat) (lock : Bool)
  /-- XTLOAD: for each row its act, its place in staging, its 32 words (R228) -/
  | rows (l : List (Nat × Nat × List Nat))
  /-- CALLOAD: the image's words (R279) -/
  | cal (words : List Nat)
  /-- a phrase's store to XT_CFG (R237) -/
  | xtCfg (v : Nat)
  /-- a phrase's store to PWR_REQ (R387) -/
  | pwrReq (v : Nat)
  /-- PLCANCEL that returned OK: the stroke it withdrew, none where the slot was OPEN or SEALED (R87, R201, R231) -/
  | cancel (armSeq : Option Nat)
  deriving DecidableEq, Repr

/-- What the active string obtained from a time- or state-dependent operation (R58): its value or status, and for those that
fix a time, an arm number or a policy outcome, these (R243, R244, R246, R255). -/
structure Outc where
  value : Nat
  time : Nat
  armSeq : Nat
  aligned : Bool
  deriving DecidableEq, Repr

/-- A claim entry (R86). `hdr`: the detail code of an HDRERR, 0 for a phrase. -/
structure ClaimEnt where
  gseq : Nat
  ring : Nat
  slot : Nat
  nslot : Nat
  crc : Nat
  hdr : Nat
  deriving DecidableEq, Repr

/-- A message from a string to a tile on its tile link (R246, R247, R252, R293). -/
inductive TMsg where
  | share (slot armSeq ts : Nat) (cal : Bool) (ents : List ShareMsg) (digest : List Byte)
  | digest (slot armSeq : Nat) (digest : List Byte)
  /-- `undo`: of a share placed by a staging that has failed as a whole (R246) -/
  | withdraw (slot armSeq : Nat) (undo : Bool)
  | commit (slot armSeq : Nat)
  | restore (slot armSeq : Nat)
  deriving DecidableEq, Repr

/-- A commit of the calibration (R267): the instant of its effect frame, and the words it changes by address. -/
structure CalCommit where
  frame : Nat
  words : List (Nat × Nat)
  /-- FAB_DIGEST of the record it belongs to (R280), the samples in it, and the first sequence number after its place in the command order
  (R267) -/
  fabd : List Nat
  n : Nat
  gseq : Nat
  deriving DecidableEq, Repr

/-- One entry of a stroke as a string holds it: act, target, t_e, fret named (R240, R243). -/
structure StrokeEnt where
  act : Nat
  p1 : Nat
  te : Nat
  shape : Nat
  fret : Option Nat
  deriving DecidableEq, Repr

/-- A stroke that a string has armed or staged, kept until what follows it is done (R199, R230, R233, R248). -/
structure Stroke where
  slot : Nat
  chain : List Nat
  armSeq : Nat
  ts : Nat
  cal : Bool
  ents : List StrokeEnt
  tiles : Nat
  played : Nat
  missed : Nat
  /-- every tile concerned has reported -/
  past : Bool
  /-- withdrawn: loops stop freezing from this 100 kHz frame on, where it is fixed (R201) -/
  stopped : Option Nat
  withdrawn : Bool
  /-- producer 73 has fired, the feed-forward frame has run, accumulators and calibration have judged it -/
  began : Bool
  ffDone : Bool
  xtDone : Bool
  calDone : Bool
  /-- the power code that each element moves from, by act (R138) -/
  p0s : List (Nat × Nat)
  /-- elements whose loop has had its resume frame (R200) -/
  resumed : List Nat
  /-- reported missed, and its route changes dropped in the command order (R226) -/
  dropped : Bool
  /-- elements whose observer sits on a lit output of their cell in the new state (R275) -/
  lit : List Nat
  deriving DecidableEq, Repr

/-- A staging that waits for acknowledgements (R246, R248): the core and register to answer, the header's terms. -/
structure Arming where
  core : Option Nat
  gd : Nat
  stroke : Stroke
  acked : Nat
  refused : Nat
  treq : Nat
  teff : Nat
  policy : Nat
  aligned : Bool
  deriving DecidableEq, Repr

/-- A withdrawal under way (R252). -/
structure Withdrawal where
  core : Option Nat
  gd : Nat
  /-- PLARM's status where it undoes a staging (R246), none for a withdrawal of an armed stroke -/
  undo : Option Nat
  slot : Nat
  armSeq : Nat
  tiles : Nat
  replied : Nat
  accepted : Nat
  /-- it takes back an occurrence of the calendar -/
  cal : Bool
  /-- COMMIT or RESTORE has been sent, to these tiles -/
  sent : Option Bool
  asked : Nat
  acked : Nat
  deriving DecidableEq, Repr

/-- A successful RTSOLVE (R216, R218): moved cells with new states, ports with their new far ends, and the entries' targets. -/
structure Solve where
  cells : List (Nat × Nat)
  ins : List (Nat × Option Nat)
  outs : List (Nat × Option Nat)
  ents : List (Nat × Nat)
  deriving DecidableEq, Repr

/-- Pending route changes of a bound solve (R216, R226). -/
structure RtPend where
  slot : Nat
  armSeq : Nat
  /-- moved cells with their new states -/
  cells : List (Nat × Nat)
  /-- input ports and output ports that change, with their new far ends -/
  ins : List (Nat × Option Nat)
  outs : List (Nat × Option Nat)
  /-- targets of the solve's entries, by actuator (R224) -/
  ents : List (Nat × Nat)
  deriving DecidableEq, Repr

/-! ## Rings -/

/-- A phrase in flight (R78, R81). -/
structure Flight where
  core : Nat
  /-- detail code of an HDRERR header, which no core runs; 0 a phrase (R80) -/
  det : Nat
  /-- its claim is committed (R86) -/
  committed : Bool
  slot : Nat
  nslot : Nat
  ninsn : Nat
  tag : Nat
  gseq : Nat
  lead : Nat
  budget : Nat
  barrier : Bool
  cqEn : Bool
  cqBase : Nat
  /-- the record count of the queue in force at the claim, where the phrase itself has restarted the count (R89, R91) -/
  oldCnt : Option Nat
  count : Nat
  fpc : Nat
  effects : List Effect
  /-- it carries frame-bound effects (R87) -/
  bound : Bool
  /-- its latest successful solve not yet bound (R216) -/
  solve : Option Solve
  /-- running on after a change of capo: the former active string's retire entry with its place in the order of retire entries, and whether a
  posted mark has come (R87, R96) -/
  entry : Option (Option Nat × Nat)
  posted : Bool
  deriving DecidableEq, Repr

/-- A record retired and not yet posted, or, on the standby, without a posted mark (R87, R96). -/
structure Rec where
  ring : Nat
  status : Nat
  code : Nat
  slot : Nat
  nslot : Nat
  tag : Nat
  gseq : Nat
  result : Nat
  fpc : Nat
  info : Nat
  cqEn : Bool
  cqBase : Nat
  oldCnt : Option Nat
  /-- the record carries frame-bound effects, the effect frame once it is fixed, and whether they have been applied -/
  bound : Bool
  eff : Option Nat
  effects : List Effect
  applied : Bool
  /-- its tiles have taken the effects that concern them -/
  sent : Bool
  /-- on the standby: the active string's retire entry has been received -/
  entry : Bool
  /-- it is posted after a change of capo (R96) -/
  repost : Bool
  /-- its place in the order of retire entries (R87) -/
  ord : Nat
  /-- the former active string has posted it (R96) -/
  marked : Bool
  deriving DecidableEq, Repr

structure RingUnit where
  /-- the ring that the round robin served last (R78) -/
  rr : Nat
  flights : Tab (Option Flight)
  /-- clearing writes kept until the fencing record is posted (R94): ring, PROD, CMD -/
  kept : List (Nat × Nat × Nat)
  /-- doorbells accepted and mirrored, whose copy the standby has not acknowledged (R84): ring, PROD, CMD -/
  dbWait : List (Nat × Nat × Nat)
  recs : List Rec
  /-- latest effect frame fixed, and retire entries so far (R87) -/
  lastEff : Nat
  ord : Nat
  deriving DecidableEq, Repr

/-! ## Engines, plans, routing, calibration -/

/-- One frame of a loop as the accumulators and the calibration use it (R233, R274, R275). -/
structure LoopSmp where
  t : Nat
  /-- ACC before and after the frame, and its code -/
  pre : Nat
  acc : Nat
  pc : Nat
  i : Int
  invalid : Bool
  sat : Bool
  frozen : Bool
  blind : Bool
  run : Bool
  /-- the first frame of the configuration in force, and its period -/
  cfg : Nat
  per : Nat
  deriving DecidableEq, Repr

/-- A source power of a snapshot (R230): a value, or the code of a loop, with what stands for it where no frame of the loop counts. -/
structure XtSrc where
  loop : Bool
  open_ : Nat
  deriving DecidableEq, Repr

/-- Crosstalk jobs of one snapshot or one feed-forward frame (R230 to R232). -/
structure XtJob where
  /-- twice the frame that the values are bound to, and 1 for a feed-forward frame -/
  key : Nat
  /-- the snapshot's instant and sources -/
  snap : Nat
  tab : Tab XtSrc
  /-- moving elements at their P1 -/
  movers : List (Nat × Nat)
  /-- blocks whose job is still to be run -/
  left : List Nat
  deriving DecidableEq, Repr

/-- A job that an engine has run (R203): its start, its end, its MAC count. -/
structure JobRun where
  start : Nat
  stop : Nat
  mac : Nat
  deriving DecidableEq, Repr

/-- What a loop counts since its record was last zeroed (R186, words 13 and 14), as the engine running it holds it. -/
structure LoopCnt where
  inv : Nat
  fret : Nat
  sat : Nat
  miss : Nat
  deriving DecidableEq, Repr

structure EngUnit where
  /-- the latest 32 error records of each tile, and older ones that a job still needs, newest first (R207) -/
  hist : Tab (List ErrRec)
  /-- records declared absent: tile, frame -/
  absent : List (Nat × Nat)
  /-- the instant at which a record came or was found absent: tile, frame, instant (R198) -/
  came : List (Nat × Nat × Nat)
  /-- records asked of the partner and not yet answered: tile, frame -/
  asked : List (Nat × Nat)
  /-- loop changes bound and not yet in force, by loop: effect frame and change (R188, R195) -/
  sets : Tab (List (Nat × Effect))
  /-- codes computed on time and not yet sent: tile, 100 kHz frame, tile-local act, code (R24) -/
  codes : List (Nat × Nat × Nat × Nat)
  logs : Tab (List LoopSmp)
  /-- by block that moves: the engine it drains from and the 100 kHz frame number of step 1 (R202) -/
  moving : Tab (Option (Nat × Nat))
  cnts : Tab LoopCnt
  /-- instant of a loop's first frame under the configuration in force (R230) -/
  cfgAt : Tab Nat
  /-- the instant from which the present engine of a block serves it (R202) -/
  placed : Tab Nat
  /-- by block: its jobs of boundaries before this frame are caught up (R206) -/
  behind : Tab Nat
  /-- by block: the latest boundary whose job has run, and earlier ones whose job has not; the jobs of every block begin after `base` -/
  done : Tab (Option Nat)
  wait : Tab (List Nat)
  base : Nat
  /-- by block: a job that a failed engine has begun, its frame and how many of its loops are finished (R206) -/
  part : Tab (Option (Nat × Nat))
  /-- by engine: the jobs of its latest millisecond, newest first (R203) -/
  runs : Tab (List JobRun)
  /-- feed-forward values, by act, newest first, under twice the 100 kHz frame that they are bound to, and 1 for a feed-forward frame
  (R193, R230, R231, R235) -/
  ff : Tab (List (Nat × Int))
  /-- snapshots, newest first: instant and sources (R230) -/
  snaps : List (Nat × Tab XtSrc)
  /-- crosstalk jobs not yet run (R232) -/
  xt : List XtJob
  /-- by tile: the instant of its latest record with a correct link check, or of the reset (R364) -/
  heard : Tab Nat
  /-- the report interval of the latest "code deadline missed" and "loop state lost" (R198, R208) -/
  lateNote : Option Nat
  lostNote : Option Nat
  deriving DecidableEq, Repr

structure PlanUnit where
  arming : List Arming
  withdrawing : List Withdrawal
  strokes : List Stroke
  /-- next cycle boundary of the running calendar, LEAD in force, next occurrence to stage: cycle start and index -/
  cycle : Nat
  lead : Nat
  next : Nat × Nat
  /-- the boundary at which the pending image takes over -/
  switchAt : Option Nat
  deriving DecidableEq, Repr

structure RteUnit where
  pend : List RtPend
  /-- places of XTLOAD staging in use (R228) -/
  staged : List Nat
  /-- seconds of the latest contributing stroke, by selected row (R234) -/
  contrib : Tab Nat
  /-- instant of the latest change of a cell's STATE or PEND (R274), and of the latest rebuild of the tables -/
  touched : Tab Nat
  rebuilt : Nat
  /-- cells that played strokes moved, by arm number, with their states before and after (R272, R275) -/
  moves : List (Nat × List (Nat × Nat × Nat))
  deriving DecidableEq, Repr

/-- A sweep report of a pickup as the calibration keeps it (R270, R272). -/
structure PRep where
  t : Nat
  mean : Nat
  bad : Bool
  deriving DecidableEq, Repr

/-- The samples of a commit whose instant C has come and that is not placed yet (R267): trim words, lag samples, their number. -/
structure CalShut where
  words : List (Nat × Nat)
  lags : Tab (Nat × Int × Nat)
  n : Nat
  deriving DecidableEq, Repr

structure CalUnit where
  /-- trim words changed by samples and not yet committed, by address (R263, R264) -/
  work : List (Nat × Nat)
  /-- samples not yet committed -/
  nOpen : Nat
  /-- lag samples of tile n pilot p at 16n + p: count, sum, sum of squares (R276) -/
  lags : Tab (Nat × Int × Nat)
  /-- by element: report interval, I and Q of its first entry that gives a lag sample, of up to twelve intervals (R276) -/
  firsts : Tab (List (Nat × Int × Int))
  /-- the latest interval whose target and lag samples are taken -/
  judged : Nat
  /-- the latest commit instant, and what is closed and not placed yet -/
  closed : Nat
  shut : Option CalShut
  commit : Option CalCommit
  sweeps : Tab (List PRep)
  deriving DecidableEq, Repr

/-! ## Redundancy (12_redundancy.md) -/

/-- A planned transfer under way (R291): its boundary FT, its cause, ACCEPT received or sent. -/
structure Xfer where
  ft : Nat
  cause : Nat
  accepted : Bool
  /-- this string is O (the one that gives the line) -/
  giving : Bool
  /-- the other string may not take the line: CAPO_FORCE_N was low before the transfer began (R292, R304) -/
  deny : Bool
  /-- instant at which it began (R304) -/
  began : Nat
  deriving DecidableEq, Repr

/-- What a judgement finds (R299): the string that is blamed, or undecided, with both impaired or neither. -/
inductive Verdict where
  | blame (x : Str)
  | undecided (both : Bool)
  deriving DecidableEq, Repr

structure RedUnit where
  /-- the lines as it last saw them: bit 0 CAPO_A, bit 1 CAPO_B (R284) -/
  seen : Nat
  /-- its line as driven, and the instant of its latest change (R283) -/
  line : Bool
  lineAt : Nat
  xfer : Option Xfer
  idleSince : Nat
  /-- RED_CTL.TAKE has been written (R288) -/
  takeReq : Bool
  /-- the take window in which string A leaves its line, forced without a standby (R292) -/
  forceOut : Option Nat
  /-- instant from which HOURS counts, the latest change of capo (R301, R304), and of the latest skipped swap -/
  capoAt : Nat
  skipAt : Option Nat
  /-- no claim before this instant: the boundary of a seizure (R290) -/
  claimFrom : Nat
  /-- latest 11 health reports, this string's and the partner's, newest first (R298) -/
  mine : List Nat
  its : List Nat
  healthAt : Nat
  /-- a verdict is being carried out (R299); one that a transfer in progress holds up; instant of the latest -/
  verdict : Bool
  owed : Option Verdict
  verdAt : Option Nat
  /-- the standby blamed the active at this instant and waits for a TRANSFER (R299) -/
  blamedAt : Option Nat
  /-- consecutive MISSCAPO frames of each tile while the standby delivered (R299), and in any case (R286) -/
  missDel : Tab Nat
  missAny : Tab Nat
  /-- instant of the partner's latest heartbeat (R306), of this string's latest reset request (R286) -/
  hbAt : Option Nat
  prAt : Option Nat
  /-- blocks whose loop cut the joining string has taken (R293), and bytes of the bundle that the join sent -/
  cut : List Nat
  bundle : Nat
  /-- stroke reports that the joining string took from the tiles: tile, ARMSEQ, played, OPEN_CODE values (R293) -/
  reports : List (Nat × Nat × Bool × List (Nat × Nat))
  /-- claiming is held for a join (R293) -/
  joinHeld : Bool
  /-- first records after a cold take still to be sent, by tile (R289) -/
  firstRec : List Nat
  /-- latest instant at which each health flag was raised, by its bit in RED_HEALTH; 16 + n: tile n's link (R298) -/
  flagAt : Tab (Option Nat)
  deriving DecidableEq, Repr

/-! ## Event fabric, mailboxes, recorder (15, 16) -/

structure EvfUnit where
  /-- consumers whose latch is full (R344) -/
  full : List Nat
  /-- of these, the ones whose act waits for their domain (R351) -/
  deferred : List Nat
  /-- end of the EVT_OUT pulse -/
  outEnd : Option Nat
  /-- a wake request stands (consumer 91), and one by a host store to MBX_HPOST (R389) -/
  wakeReq : Bool
  hostWake : Bool
  deriving DecidableEq, Repr

structure AlvUnit where
  /-- sources with a real, and with a forced, recording since the latest reset or clear (R365) -/
  real : List Nat
  forced : List Nat
  /-- instant of each source's latest recording since the reset -/
  lastRec : Tab (Option Nat)
  /-- recordings made, for the overwrites of the ring (R372) -/
  total : Nat
  /-- a FATAL string source has been recorded or forced since the reset (R375) -/
  fatal : Bool
  /-- the ALIVE pin -/
  alive : Bool
  /-- heartbeat: deadline, missed, instant of the watchdog reset (R374) -/
  deadline : Option Nat
  missed : Bool
  wdAt : Option Nat
  /-- time left at the moment DORMANT suspended it -/
  suspended : Bool
  /-- lowest LEFT since the last read, where any has been seen -/
  minLeft : Option Nat
  deriving DecidableEq, Repr

/-! ## Network ports (13_network.md) -/

/-- Where the latest accepted command of a network ring came from (R314): port, IPv6 or IPv4, source MAC, source address, source UDP
port, key. -/
structure Peer where
  port : Nat
  v6 : Bool
  mac : List Byte
  ip : List Byte
  udp : Nat
  key : Nat
  deriving DecidableEq, Repr

/-- What a frame that waits for egress carries. -/
inductive Cargo where
  /-- one ICT message (R309) -/
  | ict (dest : Peer) (msg : List Byte)
  /-- an ARP reply -/
  | arp (mac ip : List Byte)
  /-- a Neighbor Advertisement -/
  | nd (mac ip : List Byte)
  /-- an echo reply: the request's ICMP bytes from its identifier on -/
  | echo (v6 : Bool) (mac ip body : List Byte)
  /-- a PTP frame of the firmware, from its destination MAC on, without tag and FCS (R318, R334) -/
  | ptp (frame : List Byte)
  deriving DecidableEq, Repr

/-- The stream numbers that a TELEMETRY or GAP frame stands for (R316): stream, first, count, and whether it is a GAP. -/
structure Tel where
  stream : Nat
  first : Nat
  count : Nat
  gap : Bool
  deriving DecidableEq, Repr

/-- A frame in an egress queue: its length (R308), the instant it was queued, its bytes from the destination MAC to the FCS, and the cells
of the port that hold them (R320). -/
structure OutFrame where
  len : Nat
  since : Nat
  cargo : Cargo
  tel : Option Tel
  bytes : List Byte
  place : List Nat
  deriving DecidableEq, Repr

/-- A gate list (R319): base instant, cycle in ns, entries of gates and interval. -/
structure Gcl where
  base : Nat
  cyc : Nat
  ents : List (Nat × Nat)
  deriving DecidableEq, Repr

/-- One Ethernet port (R317 to R323). Tokens are in 1/256 byte. -/
structure PortUnit where
  queues : Tab (List OutFrame)
  /-- Q0 to Q5 that are not empty, in round-robin order, and their deficits (R318) -/
  drr : List Nat
  defs : Tab Nat
  /-- the head of the list has had its quantum -/
  served : Bool
  /-- Q6 cap: tokens missing to a full bucket, at this instant -/
  capLack : Nat
  capAt : Nat
  /-- policers: tokens TC and TP, and the instant of the latest judgement; none: full -/
  pol : Tab (Option (Nat × Nat × Nat))
  /-- the operational gate list, and a checked one with its first instant -/
  op : Option Gcl
  next : Option (Gcl × Nat)
  /-- the frame being sent: its queue, and when it ends -/
  flying : Option (Nat × OutFrame × Nat)
  /-- the sample instant that the latest queue sample stands for (R321) -/
  sampAt : Option Nat
  deriving DecidableEq, Repr

/-- Kinds of received frames that wait to be handled. -/
inductive RxKind where
  | arp
  | nd
  | echo
  | ict
  deriving DecidableEq, Repr

/-- A received frame in receive space, as R307 and R311 have passed it. -/
structure Rx where
  kind : RxKind
  /-- whence it came; for ICT the key of its tag -/
  peer : Peer
  cells : Nat
  /-- ICT: the message without its tag; echo: the ICMP bytes from the identifier on -/
  body : List Byte
  /-- the cells of receive space that hold the frame (R320) -/
  place : List Nat
  deriving DecidableEq, Repr

/-- An ACK that waits for its doorbell to be accepted and mirrored (R312): ring, producer, CMD, and the ACK's CSEQ and first slot. -/
structure AckWait where
  ring : Nat
  prod : Nat
  cmd : Nat
  peer : Peer
  cseq : Nat
  slot : Nat
  deriving DecidableEq, Repr

/-- What a mirrored doorbell of a network ring carries with it (R313, R314). -/
structure IctMirror where
  epoch : Nat
  next : Nat
  peer : Peer
  deriving DecidableEq, Repr

/-- A snapshot of a stream that the standby holds until it has its number (R302): stream, instant, payload. -/
structure Snap where
  stream : Nat
  t : Nat
  payload : List Byte
  deriving DecidableEq, Repr

structure NetUnit where
  p0 : PortUnit
  p1 : PortUnit
  rx : List Rx
  peers : Tab (Option Peer)
  acks : List AckWait
  /-- kept completion records by ring, newest first: GSEQ and words (R314) -/
  kept : Tab (List (Nat × List Nat))
  /-- by 16 x port + stream: the next number expected on the port, and the missing numbers (first, count) (R316) -/
  expect : Tab (Option Nat)
  miss : Tab (Nat × Nat)
  /-- instant of the latest snapshot of a stream -/
  snapAt : Tab (Option Nat)
  snaps : List Snap
  /-- numbers received for snapshots not yet taken: stream, number, instant -/
  nums : List (Nat × Nat × Nat)
  /-- the epoch's counter word is still to be raised (R313) -/
  retry : Bool
  /-- received PTP frames in their buffers, oldest first: port, receive timestamp, frame (R334, R373) -/
  ptpRx : List (Nat × Nat × List Byte)
  /-- how many free values the string's ports have drawn: header fields and cells that no rule gives (the model's own; log entry 60) -/
  drawn : Nat
  deriving DecidableEq, Repr

/-! ## Messages between the strings -/

/-- A message on the bridge link. -/
inductive BMsg where
  /-- a mirrored doorbell with the slots it publishes (R84, R94), for a network ring with the ICT state it moves (R313) -/
  | doorbell (ring prod cmd : Nat) (slots : List (Nat × List Byte)) (net : Option IctMirror)
  /-- claim entry (R86) -/
  | claim (e : ClaimEnt)
  /-- retire entry with the effect frame (R87) -/
  | retire (gseq : Nat) (eff : Option Nat)
  /-- posted mark (R96): ring, GSEQ, slot, slots released -/
  | posted (ring gseq slot nslot : Nat)
  /-- the drop of a missed stroke's route changes (R226): slot, ARMSEQ -/
  | drop (slot armSeq : Nat)
  /-- outcome of an operation of R58 -/
  | outcome (gseq : Nat) (o : Outc)
  | calCommit (c : CalCommit)
  /-- planned transfer (R291): TRANSFER, and ACCEPT, REFUSE and ABORT of the transfer at FT -/
  | transfer (ft cause : Nat)
  | accept (ft : Nat)
  | refuse (ft : Nat)
  | abort (ft : Nat)
  /-- join (R293): the joining string's measurement and FAB_DIGEST; the answer, 0 or the cause of R294, with the active string's
  FAB_DIGEST and its bundle where the digests differ -/
  | joinReq (image digest : List Nat)
  | joinReply (cause : Nat) (digest : List Nat) (bundle : Option (List Byte))
  /-- a mirrored telemetry number (R302): stream, number, instant of sending -/
  | telem (stream seq t : Nat)
  | recReq (tile frame : Nat)
  deriving DecidableEq, Repr

/-! ## Time unit (14_time.md) -/

/-- A TOUT pin as armed (R337): values at the store, the next pulse, the end of the pulse in progress. -/
structure Tout where
  mode : Nat
  start : Nat
  period : Nat
  width : Nat
  next : Option Nat
  pulseEnd : Option Nat
  deriving DecidableEq, Repr

/-- A TCAP pin (R338): the latest capture, whether it is unread, and whether a read has latched its words. -/
structure Tcap where
  at_ : Nat
  unread : Bool
  latched : Bool
  deriving DecidableEq, Repr

structure TimeUnit where
  /-- seconds held for a set (R331) -/
  heldH : Nat
  heldL : Nat
  /-- consecutive samples within, and beyond, LOCKTHR; samples since holdover began (R330) -/
  inRun : Nat
  outRun : Nat
  exitRun : Nat
  /-- the first of the samples since holdover began (R330; log entry 14) -/
  exitFirst : Int
  /-- instant of the latest sample or of the entry into the state -/
  lastSample : Nat
  /-- transmit timestamps by port: identifier, instant (R335) -/
  txq0 : List (Nat × Nat)
  txq1 : List (Nat × Nat)
  touts : Tab Tout
  tcaps : Tab Tcap
  deriving DecidableEq, Repr

/-! ## Power and temperature (17_power_thermal_ageing.md) -/

structure PwrUnit where
  /-- sensors whose level part of M holds, and the power stage's (R392) -/
  lvl : List Nat
  stgLvl : Bool
  /-- quiet ticks by tile (R392) -/
  quiet : Tab Nat
  /-- sensor readings at the previous tick (R391) -/
  last : Tab (Option Nat)
  /-- highest sensor reading since the cold reset (R398) -/
  hottest : Option Int
  /-- since when the rate of this string (0), of the partner (1), is above the lowering bound (R384) -/
  highAt : Tab (Option Nat)
  /-- the partner's rate as last received, with the instant (R384) -/
  partR : Option (Option Nat × Nat)
  /-- since when VIN is out of, or back within, its range in every scan (R380) -/
  vinOut : Option Nat
  vinIn : Option Nat
  /-- DORMANT waits for the posting of this phrase's record (R389) -/
  dorm : Option Nat
  /-- engines that the margin planner brought in (R396) -/
  spareIn : List Nat
  /-- sweeps in a row with LIMIT, by act (R398) -/
  limitRun : Tab Nat
  /-- pickups whose first converged offset, which the planner keeps, is 0 (R398) -/
  firstZero : List Nat
  /-- spans in which HKA_STAT.SETTLED reads 0, the latest first, none: not ended (R168), and whether HKREF was out of its window at the
  latest scan -/
  hkaSpans : List (Nat × Option Nat)
  refBad : Bool
  /-- the latest whole multiple that the throttle (0), the core rail (1), the planner (2) have acted for, counted from 1 -/
  ticks : Tab Nat
  /-- true time of the latest string-level reset (R423) -/
  rstAt : Option Nat
  deriving DecidableEq, Repr

/-- The power stage (R379 to R385, R394): whether the module is OFF, whether VHTR and VACT are on, its temperature as last reported
(1/128 degree, 16 bits). -/
structure Stage where
  off : Bool
  /-- OFF came by a surge, and at this true time (R379) -/
  surge : Bool
  offAt : Nat
  drive : Bool
  temp : Nat
  deriving DecidableEq, Repr

/-- One string (R19): its controller die. Instants are of its own time unit, in 2^-16 ns. -/
structure StringSt where
  id : Str
  regs : Tab Word
  cores : Tab CoreSt
  sram : Mem
  /-- words of the peg store by their address, and wear of its pages (R409, R411) -/
  pegs : Tab Word
  wear : Tab Nat
  /-- bytes of the QSPI flash (R412) -/
  flash : Tab Byte
  /-- network time as its time unit holds it (R22) -/
  time : Nat
  ring : RingUnit
  eng : EngUnit
  plan : PlanUnit
  rte : RteUnit
  cal : CalUnit
  red : RedUnit
  evf : EvfUnit
  alv : AlvUnit
  tim : TimeUnit
  pwr : PwrUnit
  net : NetUnit
  /-- STEP bits that a core of this string stored to DBG_CTL and that are still to be performed (R449) -/
  dbgReq : Nat
  /-- descriptor load (R120): length announced, and FAB_STAT.STATE before DLBEGIN -/
  dlLen : Nat
  dlPrev : Nat
  /-- its JTAG port uses instructions beyond boundary scan (R20, R449; log entry 89) -/
  jtag : Bool
  /-- messages sent to the partner that wait on the bridge link, oldest first -/
  outbox : List BMsg
  /-- messages on its tile links, oldest first -/
  toTile : List (Nat × TMsg)
  /-- free values drawn (the model's own counter, log entry 2) -/
  free : Nat
  deriving DecidableEq, Repr

/-! ## Units right after a reset -/

def RingUnit.cold : RingUnit where
  rr := 3
  flights := []
  kept := []
  dbWait := []
  recs := []
  lastEff := 0
  ord := 0

def EngUnit.cold : EngUnit where
  hist := []
  absent := []
  came := []
  asked := []
  sets := []
  codes := []
  logs := []
  moving := []
  cnts := []
  cfgAt := []
  placed := []
  behind := []
  done := []
  wait := []
  base := 0
  part := []
  runs := []
  ff := []
  snaps := []
  xt := []
  heard := []
  lateNote := none
  lostNote := none

def PlanUnit.cold : PlanUnit where
  arming := []
  withdrawing := []
  strokes := []
  cycle := 0
  lead := 0
  next := (0, 0)
  switchAt := none

def RteUnit.cold : RteUnit where
  pend := []
  staged := []
  contrib := []
  touched := []
  rebuilt := 0
  moves := []

def CalUnit.cold : CalUnit where
  work := []
  nOpen := 0
  lags := []
  firsts := []
  judged := 0
  closed := 0
  shut := none
  commit := none
  sweeps := []

def RedUnit.cold : RedUnit where
  seen := 0
  line := false
  lineAt := 0
  xfer := none
  idleSince := 0
  takeReq := false
  forceOut := none
  capoAt := 0
  skipAt := none
  claimFrom := 0
  mine := []
  its := []
  healthAt := 0
  verdict := false
  owed := none
  verdAt := none
  blamedAt := none
  missDel := []
  missAny := []
  hbAt := none
  prAt := none
  cut := []
  bundle := 0
  reports := []
  joinHeld := false
  firstRec := []
  flagAt := []

def EvfUnit.cold : EvfUnit where
  full := []
  deferred := []
  outEnd := none
  wakeReq := false
  hostWake := false

def AlvUnit.cold : AlvUnit where
  real := []
  forced := []
  lastRec := []
  total := 0
  fatal := false
  alive := false
  deadline := none
  missed := false
  wdAt := none
  suspended := false
  minLeft := none

def PortUnit.cold : PortUnit where
  queues := []
  drr := []
  defs := []
  served := false
  capLack := 0
  capAt := 0
  pol := []
  op := none
  next := none
  flying := none
  sampAt := none

def NetUnit.cold : NetUnit where
  p0 := PortUnit.cold
  p1 := PortUnit.cold
  rx := []
  peers := []
  acks := []
  kept := []
  expect := []
  miss := []
  snapAt := []
  snaps := []
  nums := []
  retry := false
  ptpRx := []
  drawn := 0

def TimeUnit.cold : TimeUnit where
  heldH := 0
  heldL := 0
  inRun := 0
  outRun := 0
  exitRun := 0
  exitFirst := 0
  lastSample := 0
  txq0 := []
  txq1 := []
  touts := []
  tcaps := []

def PwrUnit.cold : PwrUnit where
  lvl := []
  stgLvl := false
  quiet := []
  last := []
  hottest := none
  highAt := []
  partR := none
  vinOut := none
  vinIn := none
  dorm := none
  spareIn := []
  limitRun := []
  firstZero := []
  hkaSpans := [(0, none)]
  refBad := false
  ticks := []
  rstAt := none

/-- A string as shipped, after the first cold reset: registers at their Cold values, SRAM zeroed (18_reset_boot_security.md R404, R405);
configuration key slot 0 VALID with ADMIN and DESC (R418); the other pegs and the flash as log entries 3 and 6 say. -/
def StringSt.cold (x : Str) : StringSt where
  id := x
  regs := []
  cores := []
  sram := []
  pegs := [(0x70001000, 0x301)]
  wear := []
  flash := []
  time := 0
  ring := RingUnit.cold
  eng := EngUnit.cold
  plan := PlanUnit.cold
  rte := RteUnit.cold
  cal := CalUnit.cold
  red := RedUnit.cold
  evf := EvfUnit.cold
  alv := AlvUnit.cold
  tim := TimeUnit.cold
  pwr := PwrUnit.cold
  net := NetUnit.cold
  dbgReq := 0
  dlLen := 0
  dlPrev := 0
  jtag := false
  outbox := []
  toTile := []
  free := 0

/-- The module. `now` is true time: the instant of the latest timed command, in 2^-16 ns. -/
structure State where
  now : Nat
  a : StringSt
  b : StringSt
  tiles : Tab TileSt
  stage : Stage
  /-- CAPO_FORCE_N after its deglitch, and EVT_IN, as sampled -/
  capoForceN : Bool
  evtIn : Bool
  /-- host memory as the module writes it (R88) -/
  hostMem : Mem
  /-- commands that wait, first in first out -/
  pending : List Instr
  deriving DecidableEq, Repr

/-- The module right after the power-up of R382: cold reset released to both strings and all tiles, no line asserted, every output at its
return, and nothing waiting. -/
def State.reset : State where
  now := 0
  a := StringSt.cold .a
  b := StringSt.cold .b
  tiles := []
  stage := ⟨false, false, 0, true, 0⟩
  capoForceN := true
  evtIn := false
  hostMem := []
  pending := []

/-- Why a command stops with a fault. -/
inductive Fault where
  /-- Raised by a command whose operands are no such thing as the spec lets come from outside (Sys2Proof.Instr.wf false): a list
  of the wrong length, a value outside its field. Safe: no hardware takes such a command. -/
  | malformed
  deriving DecidableEq, Repr

/-- Why a command is refused. -/
inductive Refusal where
  /-- Raised by no meaning: an arm of exec that has none yet. Safe. -/
  | notModelled (mnemonic : String)
  deriving DecidableEq, Repr

/-- What a command answers. -/
abbrev Out := Host.Outcome State Fault Refusal

end Sys2Proof.Machine
end

