-- ==== Sys2Proof/Machine/TileOps.lean ====
section
/-! DEFINITION. Reading and writing a tile's registers, channels, pickups and buffers; its reports; instants of its grid. -/

namespace Sys2Proof.Machine

/-- One nanosecond of network time, in the unit 2^-16 ns of every instant here (00_scope.md R16). -/
abbrev nsT : Nat := 65536

/-- 250 ns, the bow grid (R136). -/
abbrev gridT : Nat := 16384000

/-- 10 us, the 100 kHz frame (R23). -/
abbrev frameT : Nat := 655360000

/-- 80 us, the demodulation window and the 12.5 kHz frame (R23, R170). -/
abbrev winT : Nat := 5242880000

/-- 1.024 ms, the sweep (R133, R148). -/
abbrev sweepT : Nat := 67108864000

/-- One microsecond. -/
abbrev usT : Nat := 65536000

/-- One millisecond. -/
abbrev msT : Nat := 65536000000

/-- One second. -/
abbrev secT : Nat := 65536000000000

/-- The 100 kHz frame number of an instant (R23). -/
def frameOf (t : Nat) : Nat := t / frameT

/-- The nanoseconds word of an instant (R16). -/
def nsOf (t : Nat) : Nat := t / nsT % 1000000000

/-- The seconds of an instant. -/
def secOf (t : Nat) : Nat := t / nsT / 1000000000

/-- The fraction of an instant, in 2^-16 ns. -/
def fracOf (t : Nat) : Nat := t % nsT

/-- The instant that seconds, nanoseconds and a fraction name. -/
def instant (sec ns frac : Nat) : Nat := (sec * 1000000000 + ns) * nsT + frac

/-- The first multiple of `g` at or after `t` (R136, R17). -/
def ceilTo (g t : Nat) : Nat := (t + g - 1) / g * g

/-- The cold value of a tile register: the constants of its layout (R149). -/
def coldTile (o : Nat) : Word :=
  match findRow rowsTile o with
  | some (r, _) => BitVec.ofNat 32 (r.fields.foldl (fun v f => v + f.cold * 2 ^ f.lo) 0)
  | none => 0

/-- The words of a TS96 (R17). -/
def ts96 (t : Nat) : List Nat := [nsOf t, secOf t % 4294967296, secOf t / 4294967296 % 65536 + 65536 * fracOf t]

namespace TileSt

/-- The word stored for the register at offset `o` of the block. -/
def rd (d : TileSt) (o : Nat) : Nat := (Tab.get coldTile d.regs o).toNat

def wr (d : TileSt) (o v : Nat) : TileSt := { d with regs := Tab.set coldTile d.regs o (BitVec.ofNat 32 v) }

/-- A field of a register. -/
def fld (d : TileSt) (o : Nat) (f : Fld) : Nat := bits (d.rd o) f.lo f.w

def setFld (d : TileSt) (o : Nat) (f : Fld) (v : Nat) : TileSt := d.wr o (putBits (d.rd o) f.lo f.w v)

/-- Adds to a counter field, saturating at its top. -/
def addSat (d : TileSt) (o : Nat) (f : Fld) (k : Nat) : TileSt :=
  d.setFld o f (satAdd (2 ^ f.w - 1) (d.fld o f) k)

/-- Adds to a counter field that wraps. -/
def addMod (d : TileSt) (o : Nat) (f : Fld) (k : Nat) : TileSt := d.setFld o f (d.fld o f + k)

/-- Sets bits of a word. -/
def orReg (d : TileSt) (o v : Nat) : TileSt := d.wr o (d.rd o ||| v)

def chan (d : TileSt) (a : Nat) : Chan := Tab.get (fun _ => Chan.cold) d.chans a

def setChan (d : TileSt) (a : Nat) (c : Chan) : TileSt :=
  { d with chans := Tab.set (fun _ => Chan.cold) d.chans a c }

def updChan (d : TileSt) (a : Nat) (f : Chan → Chan) : TileSt := d.setChan a (f (d.chan a))

def mon (d : TileSt) (m : Nat) : Mon := Tab.get (fun _ => Mon.cold) d.mons m

def setMon (d : TileSt) (m : Nat) (c : Mon) : TileSt :=
  { d with mons := Tab.set (fun _ => Mon.cold) d.mons m c }

def updMon (d : TileSt) (m : Nat) (f : Mon → Mon) : TileSt := d.setMon m (f (d.mon m))

def buf (d : TileSt) (k : Nat) : Buf := Tab.get (fun _ => Buf.cold) d.bufs k

def setBuf (d : TileSt) (k : Nat) (b : Buf) : TileSt :=
  { d with bufs := Tab.set (fun _ => Buf.cold) d.bufs k b }

/-- A report goes to both strings (R24, R251, R364). -/
def report (d : TileSt) (r : TRep) : TileSt := { d with toA := d.toA ++ [r], toB := d.toB ++ [r] }

/-- A condition of R364 is reported to both strings; it fires no producer. -/
def note (d : TileSt) (k info : Nat) : TileSt := d.report (.cond (some k) info none)

/-- A condition of R364 that also fires producer 8n + p of R343. -/
def cond (d : TileSt) (k info p : Nat) : TileSt := d.report (.cond (some k) info (some p))

/-- A happening that fires producer 8n + p of R343 and raises no source. -/
def event (d : TileSt) (p : Nat) : TileSt := d.report (.cond none 0 (some p))

/-- A report goes to one string. -/
def reportTo (d : TileSt) (x : Str) (r : TRep) : TileSt :=
  match x with
  | .a => { d with toA := d.toA ++ [r] }
  | .b => { d with toB := d.toB ++ [r] }

/-- The reports waiting for a string. -/
def reports (d : TileSt) (x : Str) : List TRep := match x with | .a => d.toA | .b => d.toB

def setReports (d : TileSt) (x : Str) (l : List TRep) : TileSt :=
  match x with
  | .a => { d with toA := l }
  | .b => { d with toB := l }

/-- The string whose line alone was asserted at the latest sample (R284, R25). -/
def capo (d : TileSt) : Option Str :=
  if d.capoA && !d.capoB then some .a else if d.capoB && !d.capoA then some .b else none

/-- The string that the tile's copy of time is slaved to (R284): the latest sample governs it from its boundary on. -/
def slaveNow (d : TileSt) : Option Str := if d.slaveAt ≤ d.time then d.capo else d.slave

/-- The tile free-runs: in hold, with its slaving lost, or until a reslaving is done (R22, R29, R336). -/
def freeNow (d : TileSt) : Bool := d.freeRun || d.hold || d.slaveNow.isNone

/-- A free value within a bound, and the state with it drawn; tile `n` draws the values n, n + 8, n + 16, ... of its agent
(log entry 2). -/
def draw (d : TileSt) (bound : Nat) : Nat × TileSt :=
  ((Config.freeValue 2 d.free).toNat % bound, { d with free := d.free + 8 })

/-- The mode bit of a channel's group: voltage mode (R126). -/
def vmode (d : TileSt) (a : Nat) : Bool := bit (d.fld Reg.TILE_MODE F.TILE_MODE.GRP) (a / 64)

def vlin (d : TileSt) (a : Nat) : Bool := bit (d.fld Reg.TILE_VLIN F.TILE_VLIN.GRP) (a / 64)

/-- A tile domain is on (R36): 0 control, 1 to 4 actuator banks, 5 and 6 pickup banks. -/
def domOn (d : TileSt) (i : Nat) : Bool := bit d.power i

end TileSt

end Sys2Proof.Machine
end

