-- ==== Sys2Proof/Machine/Drive.lean ====
section
/-! DEFINITION. The actuator drive channels of one tile: 05_actuator_drive.md R126 to R149, the tile's part of a stroke
(10_plans_strokes.md R246 to R252), and the source of codes (R25, R28 to R31). -/

namespace Sys2Proof.Machine

namespace Chan

/-- Full-scale power in uW (R129): Ifs is 2^(RANGE + 1) mA and RREF is in 0.25 ohm, so Ifs^2 * RREF / 4 = 4^RANGE * RREF. -/
def pfs (c : Chan) : Nat := 4 ^ c.range * c.rref

/-- The power a code stands for in uW, truncated (R140). -/
def uW (c : Chan) (p : Nat) : Nat := p * c.pfs / 65535

/-- The set current is at least 2^k / 4 mA (R133, R144): code * Ifs / 65535 with Ifs = 2^(RANGE + 1) mA. -/
def currentAtLeast (c : Chan) (k : Nat) : Bool := 65535 * 2 ^ k ≤ c.code * 2 ^ (c.range + 3)

/-- Set current times RES, in units of mV / 65535 (R144 PAIR): mA * ohm = mV. -/
def dropMV (c : Chan) : Nat := c.code * 2 ^ (c.range + 1) * c.res / 64

/-- The overdrive level of a bow (R138). -/
def overdrive (p0 p1 g : Nat) : Nat :=
  let od := (p1 : Int) + rhe ((g : Int) * ((p1 : Int) - (p0 : Int))) 4
  (clampI 0 (min 0xFFFF (4 * p1) : Nat) od).toNat

/-- Quotient truncated toward zero. -/
def truncDiv (a : Int) (b : Nat) : Int := if a < 0 then -((a.natAbs / b : Nat) : Int) else ((a.natAbs / b : Nat) : Int)

/-- The bow's level at step `k` (R138); an invalid shape plays as a plain step (R137). -/
def bowLevel (p0 p1 g n1 n2 k : Nat) : Nat :=
  if 6 < n1 + n2 then p1
  else if k < n1 then overdrive p0 p1 g
  else if k < n1 + n2 then
    let od : Int := overdrive p0 p1 g
    let j := k - n1 + 1
    ((p1 : Int) + truncDiv ((od - p1) * ((n2 + 1 - j : Nat) : Int)) (n2 + 1)).toNat
  else p1

end Chan

/-- The level that a bow plays at the grid instant `t` (R138, R142). -/
def Bow.level (b : Bow) (t : Nat) : Nat :=
  if b.clip then b.p1 else Chan.bowLevel b.p0 b.p1 b.g b.n1 b.n2 ((t - b.ts) / gridT)

namespace TileSt

/-- KCORR in force (R134): 16,384 with RCEN = 0, in voltage mode, and before the first valid sample. -/
def kNow (d : TileSt) (a : Nat) (c : Chan) : Nat :=
  if d.fld Reg.TILE_ACFG F.TILE_ACFG.RCEN = 0 ∨ d.vmode a ∨ !c.resValid then 16384 else c.kcorr

/-- The live flags (R144): RDRIFT is live only while KCORR comes from the measured resistance (R134). -/
def liveNow (d : TileSt) (a : Nat) (c : Chan) : Nat :=
  if d.fld Reg.TILE_ACFG F.TILE_ACFG.RCEN = 0 ∨ d.vmode a ∨ !c.resValid then putBit c.live 5 false else c.live

/-- A power code as the DAC code that it converts to, and whether it saturates (R130, R131). -/
def toCode (d : TileSt) (a k pc : Nat) : Nat × Bool :=
  if d.vmode a then (if d.vlin a then pc else nearestSqrt (pc * 65535) 1, false)
  else
    let cc := nearestSqrt (pc * k * 65535) 16384
    if 0xFFFF < cc then (0xFFFF, true) else (cc, false)

/-- Sets sticky flags of a channel (R144); each that was clear raises its source and fires the producer of load flags (R364,
R343): SHORT, COMP, EXTV, PAIR, RETERR as load fault, RDRIFT and LIMIT as load note. -/
def stick (d : TileSt) (a i : Nat) : TileSt :=
  let c := d.chan a
  let e := d.setChan a { c with flags := putBit c.flags i true }
  if bit c.flags i then e
  else if i < 5 then e.cond 5 a 5
  else if i < 7 then e.cond 9 a 5
  else e

/-- RDRIFT that becomes live as a register lets KCORR be measured again sets its sticky flag (R134, R144). -/
def restick (d : TileSt) : TileSt :=
  d.chans.foldl (fun d e => if bit (d.liveNow e.1 e.2) 5 && !bit e.2.flags 5 then d.stick e.1 5 else d) d

/-- The channel counts in the steady sum S (R140). -/
def counts (d : TileSt) (a : Nat) (c : Chan) : Bool := c.enable && !d.vmode a

/-- The steady code of a channel: P1 from the first bow step of a stroke to its end (R140). -/
def steadyCode (c : Chan) : Nat := match c.bow with | some b => b.p1 | none => c.power

/-- The steady sum S in uW (R140). -/
def steady (d : TileSt) : Nat :=
  d.chans.foldl (fun v e => if d.counts e.1 e.2 then v + e.2.uW (steadyCode e.2) else v) 0

/-- TILE_PLIMEFF in mW and whether the throttle limit is the lower (R141, R392). -/
def plimEff (d : TileSt) : Nat × Bool :=
  let p := d.fld Reg.TILE_PLIM F.TILE_PLIM.MW
  let l := p * d.throttle / 16
  (min p l, decide (l < p))

/-- The steady allowance in uW (R141). -/
def allowance (d : TileSt) : Nat := 1000 * (d.plimEff.1 - d.fld Reg.TILE_ODBUD F.TILE_ODBUD.MW)

/-- Loads are being held (TILE_ASTAT.GUARD, R141). -/
def guarding (d : TileSt) : Bool := d.chans.any (fun e => e.2.held)

/-- A load of actuator `a` as a trigger candidate (R154): `kind` 1 a loop or OPEN_CODE load, 2 a bow step, 3 a first bow step.
A group whose path is busy ignores it (R155). TDLY is in 15.625 ns, which is 1,024,000 units. -/
def trigGroup (d : TileSt) (a kind t g : Nat) : TileSt :=
  let r := d.rd (Reg.TILE_MTRIG g)
  let tk := bits r F.TILE_MTRIG.TKIND.lo F.TILE_MTRIG.TKIND.w
  let takes := tk = 0 ∨ (tk = 1 ∧ kind = 1) ∨ (tk = 2 ∧ (kind = 2 ∨ kind = 3)) ∨ (tk = 3 ∧ kind = 3)
  if bits r 0 1 = 1 ∧ bits r 1 11 = a ∧ takes then
    if d.trig.any (fun e => e.1 == g) then
      -- ignored: TRG_OVR on each channel concerned, counted, raised as a NOTE (R155)
      let e := forEach (upFrom (8 * g) 8) (fun m e => e.updMon m fun c =>
        { c with flags := putBit c.flags 1 true, trgCnt := satInc 65535 c.trgCnt }) d
      (e.addSat Reg.TILE_TRGOVR F.TILE_TRGOVR.CNT 1).note 10 (8 * g)
    else { d with trig := d.trig ++ [(g, t + bits r 12 8 * 1024000, false)] }
  else d

def trigger (d : TileSt) (a kind t : Nat) : TileSt :=
  forEach (upFrom 0 32) (fun g e => e.trigGroup a kind t g) d

/-- Loads a power code into a channel's DAC at instant `t` (R130, R131, R135). -/
def load (d : TileSt) (a pc kind t : Nat) : TileSt :=
  let c := d.chan a
  let (cc, lim) := d.toCode a (d.kNow a c) pc
  let d := d.setChan a { c with power := pc, code := cc, held := false, dith := false }
  let d := if lim then d.stick a 6 else d
  d.trigger a kind t

/-- Raises GUARD's flag and fault where loads have come to be held (R141), given whether any was held before. -/
def guardRise (d : TileSt) (before : Bool) : TileSt :=
  if d.guarding && !before then
    (d.setFld Reg.TILE_ASTAT F.TILE_ASTAT.GUARDS 1).cond 4 0 4
  else d

/-- The bow of an entry of a buffer on a channel as it stands before its first step (R137, R138). -/
def newBow (d : TileSt) (k : Nat) (b : Buf) (e : ShareEnt) : Bow :=
  ⟨k, b.armSeq, (d.chan e.act).power, e.p1, e.g, e.n1, e.n2, b.ts, e.te, false⟩

/-- The buffers, by number, whose share starts by instant `t` (R248 step 8): staged, in rising ARMSEQ. -/
def starting (d : TileSt) (t : Nat) : List (Nat × Buf) :=
  let l := d.bufs.filter (fun e => decide (e.2.state = .staged ∧ e.2.ts ≤ t))
  sortBy (fun x y => decide (x.2.armSeq ≤ y.2.armSeq)) l

/-- The bows that start at `t`; of two entries for one channel the one of the higher ARMSEQ alone (R250). -/
def startBows (d : TileSt) (t : Nat) : Tab Bow :=
  (d.starting t).foldl (fun m kb => kb.2.ents.foldl (fun m e => Tab.insert m e.act (d.newBow kb.1 kb.2 e)) m) []

/-- Frees a buffer. -/
def freeBuf (d : TileSt) (k : Nat) : TileSt := d.setBuf k Buf.cold

/-- Reports a share missed and frees its buffer (R251). -/
def missShare (d : TileSt) (k : Nat) (b : Buf) : TileSt :=
  ((d.freeBuf k).addSat Reg.TILE_STRKCNT F.TILE_STRKCNT.MISSED 1).report (.missed b.slot b.armSeq)

/-- The instantaneous sum's terms at grid instant `t` (R142): for each channel in a stroke, its ARMSEQ, and the departure of
its level from P1 in uW. -/
def departures (d : TileSt) (t : Nat) : List (Nat × Nat × Int) :=
  d.chans.filterMap fun e => match e.2.bow with
    | some b => some (e.1, b.armSeq,
        if d.counts e.1 e.2 then (e.2.uW (b.level t) : Int) - (e.2.uW b.p1 : Int) else 0)
    | none => none

/-- Every stroke with a channel away from its P1 at `t` plays P1 from `t` on, on all its channels (R142). With none, nothing is clipped. -/
def clipStrokes (d : TileSt) (t : Nat) : TileSt :=
  let away := d.chans.filterMap fun e => match e.2.bow with
    | some b => if b.level t ≠ b.p1 then some b.armSeq else none
    | none => none
  let hit := d.chans.filter fun e => match e.2.bow with
    | some b => away.contains b.armSeq
    | none => false
  match hit with
  | [] => d
  | first :: _ =>
    let d := hit.foldl (fun d e => d.updChan e.1 fun c =>
      { c with flags := putBit c.flags 8 true, bow := c.bow.map fun b => { b with clip := true } }) d
    let d := d.bufs.foldl (fun d e => if away.contains e.2.armSeq ∧ e.2.state = .playing then
      d.setBuf e.1 { e.2 with odclip := true } else d) d
    (d.setFld Reg.TILE_ASTAT F.TILE_ASTAT.ODCLIPS 1).note 8 first.1

/-- The instantaneous sum at `t` in uW (R142). -/
def instSum (d : TileSt) (t : Nat) : Nat :=
  ((d.steady : Int) + ((d.departures t).map fun e => e.2.2).sum).toNat

/-- The check of every bow step (R142): clips where the sum exceeds the effective limit, and keeps the peak. -/
def bowCheck (d : TileSt) (t : Nat) : TileSt :=
  let d := if 1000 * d.plimEff.1 < d.instSum t then d.clipStrokes t else d
  d.setFld Reg.TILE_PPEAK F.TILE_PPEAK.UW (max (d.fld Reg.TILE_PPEAK F.TILE_PPEAK.UW) (d.instSum t))

/-- Channels not at their cold state. -/
def chanKeys (d : TileSt) : List Nat := d.chans.map (·.1)

/-- STROKE_START: at t_s the tile loads the first bow step of each channel of the share, or, in tile hold or with the share
suspended, reports it missed (R248 step 8, R250, R251). -/
def strokeStart (d : TileSt) : TileSt :=
  let t := d.time / gridT * gridT
  -- suspended shares whose time has come, and every share in hold
  let gone := d.bufs.filter fun e => decide (e.2.ts ≤ t ∧ (e.2.state = .suspended ∨ (d.hold ∧ e.2.state = .staged)))
  let d := gone.foldl (fun d e => d.missShare e.1 e.2) d
  let bows := d.startBows t
  let kbs := d.starting t
  let d := kbs.foldl (fun d kb => d.setBuf kb.1 { kb.2 with state := .playing }) d
  let d := bows.foldl (fun d e => d.updChan e.1 fun c =>
    { c with bow := some e.2, strokeFrom := if e.2.ts ≤ c.strokeEnd then c.strokeFrom else e.2.ts,
             strokeEnd := max c.strokeEnd (ceilTo frameT (e.2.te + winT)) }) d
  if kbs.isEmpty then d else
  let d := d.bowCheck t
  bows.foldl (fun d e => match (d.chan e.1).bow with
    | some b => d.load e.1 (b.level t) 3 t
    | none => d) d

/-- BOW_STEP: the bow levels of one 250 ns step after the first (R135, R138, R142). Tile hold loads nothing (R29). -/
def bowStep (d : TileSt) : TileSt :=
  let t := d.time / gridT * gridT
  if d.hold then d else
  let due := d.chans.filterMap fun e => match e.2.bow with
    | some b => if b.ts < t ∧ t ≤ b.te then some e.1 else none
    | none => none
  if due.isEmpty then d else
  let d := d.bowCheck t
  due.foldl (fun d a => match (d.chan a).bow with
    | some b => d.load a (b.level t) 2 t
    | none => d) d

/-- A RANGE change taken now (R132): the power code held is rescaled, the full-scale power follows, and the code is that of
the rescaled power. -/
def rescale (d : TileSt) (a r : Nat) : TileSt :=
  let c := d.chan a
  let (p, lim) :=
    if c.range ≤ r then ((rhe (c.power : Int) (2 * (r - c.range))).toNat, false)
    else
      let v := c.power * 2 ^ (2 * (c.range - r))
      (min 0xFFFF v, decide (0xFFFF < v))
  let c := { c with range := r, power := p, newRange := none }
  let (cc, lim2) := d.toCode a (d.kNow a c) p
  let d := d.setChan a { c with code := if d.hold then c.code else cc }
  if lim || lim2 then d.stick a 6 else d

/-- SETTLE_HOLD_END: at each t_e that has come the channel returns to its source; with no running loop P1 becomes its
OPEN_CODE (R139, R249); a buffer whose channels have all passed is freed and reported played (R248 steps 10, 11). -/
def settleEnd (d : TileSt) : TileSt :=
  let t := d.time
  let done := d.chans.filterMap fun e => match e.2.bow with
    | some b => if b.te ≤ t then some (e.1, b) else none
    | none => none
  let opened : List (Nat × Nat × Nat) := done.filterMap fun e => if (d.chan e.1).loop.isNone then some (e.2.buf, e.1, e.2.p1) else none
  let d := { d with bufs := d.bufs.map fun (e : Nat × Buf) =>
    (e.1, { e.2 with opened := e.2.opened ++ opened.filterMap fun (o : Nat × Nat × Nat) => if o.1 = e.1 then some o.2 else none }) }
  let d := done.foldl (fun d e =>
    let d := d.updChan e.1 fun c =>
      { c with bow := none, lastTe := some e.2.te, openCode := if c.loop.isNone then e.2.p1 else c.openCode }
    match (d.chan e.1).newRange with
    | some r => d.rescale e.1 r
    | none => d) d
  let past := d.bufs.filter fun e => decide (e.2.state = .playing) &&
    !d.chans.any fun ch => match ch.2.bow with | some b => b.armSeq == e.2.armSeq | none => false
  past.foldl (fun d e =>
    ((d.freeBuf e.1).addSat Reg.TILE_STRKCNT F.TILE_STRKCNT.PLAYED 1).report
      (.played e.2.slot e.2.armSeq e.2.odclip e.2.opened)) d

/-- The code record of string `x` for frame `f`. -/
def codeRec (d : TileSt) (x : Str) (f : Nat) : Option CodeRec :=
  (match x with | .a => d.codesA | .b => d.codesB).find? (fun r => r.frame == f)

/-- Adopts a running set (R289): a channel held as running that the set omits takes its OPEN_CODE from the power code of its
last load; the channels of the set run. -/
def adoptRunning (d : TileSt) (set : List (Nat × Nat)) : TileSt :=
  let lost := d.chans.filterMap fun e => if e.2.loop.isSome ∧ !(set.any fun r => r.1 == e.1) then some e.1 else none
  let d := lost.foldl (fun d a => d.updChan a fun c => { c with loop := none, openCode := c.power }) d
  let d := set.foldl (fun d r => d.updChan r.1 fun c =>
    { c with loop := some r.2, loopAt := if c.loop = some r.2 then c.loopAt else d.time }) d
  { d with adopted := lost.foldl setIns d.adopted }

/-- The frame period of a rate code: 0 100 kHz, 1 50 kHz, 2 25 kHz, 3 12.5 kHz (R23). -/
def ratePeriod (r : Nat) : Nat := frameT * 2 ^ (r % 4)

/-- The lowest rate code of its running loops, its fastest loop (R28). -/
def fastest (d : TileSt) : Option Nat :=
  d.chans.foldl (fun m e => match e.2.loop, m with
    | some r, some v => some (min r v)
    | some r, none => some r
    | none, m => m) none

/-- Enters tile hold (R28, R29): KCORR is kept for the dither, and producer 8n + 7 fires. -/
def enterHold (d : TileSt) : TileSt :=
  if d.hold then d
  else
    let d := d.chanKeys.foldl (fun d a => d.updChan a fun c => { c with holdK := d.kNow a c }) d
    { d with hold := true }.event 7

/-- The channels that loads concern: those not at their cold state, and those that a trigger group listens to (R154). -/
def loadable (d : TileSt) : Tab Chan :=
  d.chans ++ ((upFrom 0 32).filterMap fun g =>
    let a := d.fld (Reg.TILE_MTRIG g) F.TILE_MTRIG.TACT
    if d.fld (Reg.TILE_MTRIG g) F.TILE_MTRIG.TSRC = 1 ∧ !(d.chans.any fun e => e.1 == a) then some a else none).eraseDups.map
      fun a => (a, Chan.cold)

/-- The loads of a frame boundary at instant `b` (R135): where a loop runs the code that the capo string's record carries for it, of
whatever rate it was computed at (R197), OPEN_CODE elsewhere; none on a channel in a stroke, starting one at `b`, or whose settle
hold ended at `b`. -/
def frameLoads (d : TileSt) (b : Nat) (starts : Tab Bow) (codes : List (Nat × Nat)) : List (Nat × Nat) :=
  d.loadable.filterMap fun e =>
    let c := e.2
    if c.bow.isSome ∨ starts.any (fun s => s.1 == e.1) ∨ c.lastTe = some b then none
    else match c.loop with
      | none => some (e.1, c.openCode)
      | some _ => codes.find? fun k => k.1 == e.1

/-- A code of the channel is due at boundary `b`: its loop runs at a rate with a frame there, it is in no stroke, and the frame two frames
before is one of the loop as it runs now, after any settle hold (R24, R25, R31). -/
def codeDue (c : Chan) (b : Nat) (starts : Tab Bow) (a : Nat) : Bool :=
  match c.loop with
  | none => false
  | some r =>
    let p := ratePeriod r
    decide (b % p = 0) && c.bow.isNone && !(starts.any fun s => s.1 == a) && decide (c.loopAt + 2 * p ≤ b) &&
      (match c.lastTe with | some te => decide (te + 2 * p < b) | none => true)

/-- A code is due at `b` and a list of codes has none for it. -/
def codesMissing (d : TileSt) (b : Nat) (codes : List (Nat × Nat)) : Bool :=
  d.chans.any fun e => codeDue e.2 b (d.startBows b) e.1 && !codes.any fun k => k.1 == e.1

/-- S with a set of loads applied, the P1 of strokes that start at the instant included (R140, R141). -/
def steadyWith (d : TileSt) (starts : Tab Bow) (loads : List (Nat × Nat)) : Nat :=
  d.chans.foldl (fun v e =>
    if d.counts e.1 e.2 then
      v + e.2.uW (match starts.find? (fun s => s.1 == e.1) with
        | some s => s.2.p1
        | none => match loads.find? (fun l => l.1 == e.1) with
          | some l => l.2
          | none => steadyCode e.2)
    else v) 0

/-- A load that would raise a channel that counts in S (R141). -/
def rises (d : TileSt) (l : Nat × Nat) : Bool := d.counts l.1 (d.chan l.1) && decide ((d.chan l.1).power < l.2)

/-- Applies the loads of one instant as one set (R141): where S would end above the steady allowance, every rise is held. -/
def loadSet (d : TileSt) (b : Nat) (codes : List (Nat × Nat)) : TileSt :=
  let starts := d.startBows b
  let loads := d.frameLoads b starts codes
  let past := decide (d.allowance < d.steadyWith starts loads)
  let before := d.guarding
  let (keep, go) := loads.partition (fun l => past && d.rises l)
  let d := go.foldl (fun d l => d.load l.1 l.2 1 b) d
  let d := keep.foldl (fun d l => d.updChan l.1 fun c => { c with held := true, flags := putBit c.flags 7 true }) d
  let d := if d.guarding then d.addSat Reg.TILE_ASTAT F.TILE_ASTAT.HELDCNT 1 else d
  let d := d.guardRise before
  -- a step of a stroke that falls here is checked for itself, after these loads (R142)
  if !starts.isEmpty || d.chans.any (fun e => e.2.bow.isSome) then d
  else d.setFld Reg.TILE_PPEAK F.TILE_PPEAK.UW (max (d.fld Reg.TILE_PPEAK F.TILE_PPEAK.UW) (d.instSum b))

/-- Counts a frame of the fastest running loop without a capo code (R28). A record at any boundary, an empty one too, is a code supplied (R289).
A tile on which no loop runs counts no frames: R28 says nothing of it, and the model has it never enter hold for want of codes (DESIGN CHOICE,
log entry 93). -/
def countMissed (d : TileSt) (b : Nat) (got : Bool) : TileSt :=
  match d.fastest with
  | some r => if got then { d with missRun := 0 } else if b % ratePeriod r = 0 then { d with missRun := satInc 65535 d.missRun } else d
  | none => { d with missRun := 0 }

/-- FRAME_CODE_LOAD: at a frame start the tile leaves hold where R30 allows, counts frames without a capo code (R28), and
loads the codes of each source (R135). -/
def frameLoad (d : TileSt) : TileSt :=
  let b := d.time / frameT * frameT
  let got := match d.capo with | some x => d.codeRec x (frameOf b) | none => none
  let d := { d with codesA := d.codesA.filter (fun r => frameOf b < r.frame),
                    codesB := d.codesB.filter (fun r => frameOf b < r.frame) }
  let d := match got with
    | some r =>
      let d := { d with hold := false }
      match r.running with | some set => d.adoptRunning set | none => d
    | none => d
  let d := d.countMissed b got.isSome
  -- a code that is due and late or absent is a missed frame (R25)
  let d := if d.capo.isSome && d.codesMissing b (match got with | some r => r.codes | none => []) then { d with missed := d.missed + 1 } else d
  if d.hold then d
  else d.loadSet b (match got with | some r => r.codes | none => [])

/-- MISSED_CODES_HOLD: the first case of R28. -/
def missedHold (d : TileSt) : TileSt :=
  if 16 ≤ d.missRun ∧ !d.hold then d.enterHold.note 3 0 else d

/-- CAPO_SAMPLE: the lines as sampled 1 us before a boundary, to the nanosecond of the tile's copy of time (R284), judged under R28. A change of
capo ends COMPARE (R296); with no line alone asserted the copy of time free-runs (R22). -/
def capoSample (d : TileSt) (a b : Bool) : TileSt :=
  let b0 := (d.time / frameT + 1) * frameT
  if b0 < d.time + usT - nsT ∨ d.time + usT < b0 then d else
  let d := { d with slave := d.slaveNow, slaveAt := b0, capoA := a, capoB := b }
  match d.capo with
  | some x =>
    if d.master = some x then d
    else { d with master := some x, cmpFrom := none }
  | none =>
    let d := { d.enterHold with freeRun := true }
    d.note (if a then 1 else 2) 0

/-- CODE_RECORD at the tile: a record by the code deadline, 500 ns before its boundary, is kept for it; a later one is
discarded (R25). Whether it was in time. -/
def takeCodes (d : TileSt) (x : Str) (r : CodeRec) : TileSt × Bool :=
  if r.frame * frameT < d.time + 500 * nsT then (d, false)
  else match x with
    | .a => ({ d with codesA := d.codesA.filter (fun q => q.frame ≠ r.frame) ++ [r] }, true)
    | .b => ({ d with codesB := d.codesB.filter (fun q => q.frame ≠ r.frame) ++ [r] }, true)

/-- Counts of one comparison (R296): mismatches, frames with the other string's code absent, with the capo's absent. -/
structure CmpOut where
  mm : Nat
  missOther : Nat
  missCapo : Nat
  /-- the other string delivered -/
  delivered : Bool
  deriving DecidableEq, Repr

/-- COMPARE has gone off, at the boundary after the standby was dropped (R296). -/
def cmpEnded (d : TileSt) : Bool := match d.cmpOff with | some b => decide (b ≤ d.time) | none => false

/-- COMPARE is on (R296, RED_CAPOSTAT.CMPON). -/
def comparing (d : TileSt) : Bool :=
  (match d.cmpFrom with | some f => decide (f * frameT ≤ d.time) | none => false) && !d.cmpEnded

/-- CODE_DEADLINE: while COMPARE is on, the codes of both strings for the coming frame are compared (R296). At most one report
per channel per 1.024 ms. -/
def deadline (d : TileSt) : TileSt × CmpOut :=
  let f := frameOf (d.time + frameT - 1)
  match d.cmpFrom, d.capo with
  | some f0, some x =>
    if f < f0 ∨ d.cmpEnded then (d, ⟨0, 0, 0, true⟩) else
    let mine := d.codeRec x f
    let its := d.codeRec x.other f
    match mine, its with
    | some m, some o =>
      let bad := m.codes.filterMap fun k => match o.codes.find? (fun q => q.1 == k.1) with
        | some q => if q.2 = k.2 then none else some (k.1, k.2, q.2)
        | none => none
      let gap := m.codes.any (fun k => !(o.codes.any fun q => q.1 == k.1))
      let gapC := o.codes.any (fun k => !(m.codes.any fun q => q.1 == k.1))
      let d := bad.foldl (fun d e =>
        let due := match d.mmLast.find? (fun l => l.1 == e.1) with
          | some l => decide (l.2 + sweepT ≤ d.time)
          | none => true
        if due then
          let (ca, cb) := match x with | .a => (e.2.1, e.2.2) | .b => (e.2.2, e.2.1)
          ({ d with mmLast := (e.1, d.time) :: d.mmLast.filter (fun l => l.1 != e.1) }).report (.mismatch e.1 f ca cb)
        else d) d
      -- a code that is due and absent from both (R296)
      let gapC := gapC || d.codesMissing (f * frameT) (m.codes ++ o.codes)
      let d := if gapC then d.report (.missCapo f true) else d
      (d, ⟨bad.length, b2n gap, b2n gapC, true⟩)
    | some m, none =>
      let gapC := d.codesMissing (f * frameT) m.codes
      (if gapC then d.report (.missCapo f false) else d, ⟨0, 1, b2n gapC, false⟩)
    | none, o => (d.report (.missCapo f o.isSome), ⟨0, 0, 1, o.isSome⟩)
  | _, _ => (d, ⟨0, 0, 0, true⟩)

/-- The live flag of index `i` (SHORT 0, COMP 1, EXTV 2, PAIR 3, RETERR 4, RDRIFT 5) of a channel set or cleared (R144); a
rise sets the sticky flag. -/
def setLive (d : TileSt) (a i : Nat) (on : Bool) : TileSt :=
  let c := d.chan a
  let d := d.setChan a { c with live := putBit c.live i on }
  if on then d.stick a i else d

/-- RES_SENSE_VISIT: the sense path of a bank measures one channel, `s` in 1/64 ohm (R133, R134). The channel and the sweep
follow from the instant. -/
def senseVisit (d : TileSt) (bank s : Nat) : TileSt :=
  let i := d.time % sweepT / (2 * usT)
  let a := bank % 4 * 512 + i
  let d := d.setFld (Reg.TILE_BANKSTAT (bank % 4)) F.TILE_BANKSTAT.POS i
  let d := if i = 511 then d.addMod (Reg.TILE_BANKSTAT (bank % 4)) F.TILE_BANKSTAT.SWEEPS 1 else d
  let c := d.chan a
  let valid := !d.vmode a && c.enable && c.currentAtLeast 1 && !bit c.live 0 && !bit c.live 1 && c.bow.isNone &&
    decide (20 * 64 ≤ s ∧ s ≤ 1000 * 64)
  if valid then
    let sh := d.fld Reg.TILE_ACFG F.TILE_ACFG.RFILT
    let res := if c.resValid then ((c.res : Int) + ((s : Int) - c.res) / (2 ^ sh : Nat)).toNat else s
    let k := rheN (16384 * c.rref * 16) res
    let k' := clampN 8192 32768 k
    let d := d.setChan a { c with res := res, kcorr := k', resValid := true, live := putBit c.live 5 (decide (k ≠ k')) }
    if bit (d.liveNow a (d.chan a)) 5 then d.stick a 5 else d
  else d

/-- The channels a load fault concerns, and its flag's index (R144); return group `g` is acts 8g to 8g + 7 (R15). -/
def faultChans : LoadFault → List Nat × Nat
  | .short a => ([a], 0)
  | .comp a => ([a], 1)
  | .extv a => ([a], 2)
  | .pair a b => ([a, b], 3)
  | .reterr g => (upFrom (8 * g) 8, 4)

/-- The part of a fault's condition that the tile's own state decides (R144). -/
def faultMay (d : TileSt) : LoadFault → Bool
  | .short a => d.vmode a || (d.chan a).currentAtLeast 0
  | .comp a => decide ((d.chan a).code ≠ 0)
  | .extv a => decide ((d.chan a).code = 0) || !(d.chan a).enable
  | .pair a b => decide (a ≠ b ∧ a / 8 = b / 8) &&
      decide (100 * 65535 < ((d.chan a).dropMV : Int) - (d.chan b).dropMV ∨ 100 * 65535 < ((d.chan b).dropMV : Int) - (d.chan a).dropMV)
  | .reterr _ => true

/-- A short trip (R145): ENABLE is cleared and TRIP set; the window restarts with the change of ENABLE (R175). -/
def trip (d : TileSt) (a : Nat) : TileSt :=
  let c := d.chan a
  if d.fld Reg.TILE_ACFG F.TILE_ACFG.STRIP = 1 ∧ !bit c.flags 9 then
    d.setChan a { c with enable := false, flags := putBit c.flags 9 true, tripCnt := satInc 65535 c.tripCnt,
                         restart := if c.enable then d.time else c.restart }
  else d

/-- LOAD_FAULT_DETECT: a condition held for 1 us sets, and one absent for 1 us clears, the live flags (R144); a SHORT may trip
the channel (R145). -/
def loadFault (d : TileSt) (f : LoadFault) (on : Bool) : TileSt :=
  let (as, i) := faultChans f
  if on && !d.faultMay f then d else
  let d := as.foldl (fun d a =>
    let d := if on ∧ i = 1 ∧ !bit (d.chan a).live 1 then d.updChan a fun c => { c with compCnt := satInc 65535 c.compCnt } else d
    d.setLive a i on) d
  let d := match f with
    | .reterr g => if on then d.orReg (Reg.TILE_RETERR (g / 32 % 8)) (2 ^ (g % 32)) else d
    | _ => d
  match f with
  | .short a => if on then d.trip a else d
  | _ => d

/-- TILE_MODE_WRITE: a group's mode changes only with every one of its switches open; any other bit is refused under MODEREF
(R127). -/
def writeMode (d : TileSt) (v : Nat) : TileSt :=
  (upFrom 0 32).foldl (fun d g =>
    let old := bit (d.rd Reg.TILE_MODE) g
    if bit v g = old then d
    else if d.chans.any (fun e => e.1 / 64 == g && e.2.enable) then d.setFld Reg.TILE_ASTAT F.TILE_ASTAT.MODEREF 1
    else d.wr Reg.TILE_MODE (putBit (d.rd Reg.TILE_MODE) g (bit v g))) d

/-- A channel in a stroke or its settle hold (R132). -/
def inStroke (d : TileSt) (a : Nat) : Bool := (d.chan a).bow.isSome

/-- The effect of a CHWR to act selector `sel` at its effect frame (R147, R184; R132, R145, R171). -/
def writeAct (d : TileSt) (a sel v : Nat) : TileSt :=
  let c := d.chan a
  match sel with
  -- a sticky flag whose condition is live is set again as it is cleared (R144)
  | 3 => d.setChan a { c with flags := c.flags &&& (0x3FF ^^^ (v % 1024 &&& (0x3FF ^^^ (d.liveNow a c % 64)))) }
  | 4 => d.setChan a { c with openCode := v % 65536 }
  | 5 => if d.inStroke a then d.setChan a { c with newRange := some (v % 4) } else d.rescale a (v % 4)
  | 6 =>
    let on := decide (v % 2 = 1)
    if on && (bit c.flags 0 || bit c.flags 9) then d
    else d.setChan a { c with enable := on, restart := if c.enable = on then c.restart else d.time }
  | 7 =>
    let amp := v % 2048
    if c.amp = amp then d
    else if c.bow.isSome then d.setChan a { c with amp := amp, strokeAmp := d.time }
    else d.setChan a { c with amp := amp, restart := d.time }
  | _ => d

/-- What CHRD of an act selector reads (R147, R184). -/
def readAct (d : TileSt) (a sel : Nat) : Nat :=
  let c := d.chan a
  match sel with
  | 0 => c.code
  | 1 => c.power
  | 2 => c.res % 65536 + 65536 * d.kNow a c
  | 3 => c.flags + 65536 * d.liveNow a c
  | 4 => c.openCode
  | 5 => c.range
  | 6 => b2n c.enable
  | 7 => c.amp + 65536 * (c.obs.getD 0 % 256) + 16777216 * b2n c.obs.isSome +
      33554432 * (match c.reason with | some r => r | none => b2n d.sent)
  | _ => 0

/-! ## Stroke buffers (R246 to R252) -/

/-- A free buffer that a staging may use (R246): while two are reserved for the calendar, an arm uses two at most, and the
calendar two at most. -/
def freeBufFor (d : TileSt) (cal : Bool) : Option Nat :=
  let used := (upFrom 0 4).filter fun k => decide ((d.buf k).state ≠ .free) && (d.buf k).cal == cal
  if (cal || d.calRes) && decide (2 ≤ used.length) then none
  else (upFrom 0 4).find? fun k => decide ((d.buf k).state = .free)

/-- SHARE_STAGE: places a share in a buffer and acknowledges it; refuses it less than 5 us before t_s, in tile hold or in
the power state HOLD, or with no buffer it may use (R246, R388). The shapes that its entries name are copied (R137). -/
def stage (d : TileSt) (x : Str) (slot armSeq ts : Nat) (cal : Bool) (ents : List ShareMsg) (digest : List Byte) : TileSt :=
  -- already staged: a new active string that finishes the PLARM finds it so (R247)
  if d.bufs.any fun e => decide (e.2.state ≠ .free ∧ e.2.armSeq = armSeq) then d.reportTo x (.stageAck slot armSeq true)
  else match d.freeBufFor cal with
  | some k =>
    if d.time + 5 * usT < ts ∧ d.hold = false ∧ d.pwrHold = false then
      let copies := ents.map fun e =>
        let w := d.rd (Reg.TILE_BOWSHAPE (e.shape % 16))
        ⟨e.act, e.p1, e.te, bits w 0 8, bits w 8 3, bits w 12 3⟩
      (d.setBuf k ⟨.staged, cal, slot, armSeq, ts, copies, digest, false, []⟩).reportTo x (.stageAck slot armSeq true)
    else d.reportTo x (.stageAck slot armSeq false)
  | none => d.reportTo x (.stageAck slot armSeq false)

/-- The buffer that holds the share of an ARMSEQ. -/
def bufOf (d : TileSt) (armSeq : Nat) : Option (Nat × Buf) :=
  d.bufs.find? fun e => decide (e.2.state ≠ .free ∧ e.2.armSeq = armSeq)

/-- SHARE_DIGEST: the standby's digest against the share held (R247). -/
def checkDigest (d : TileSt) (slot armSeq : Nat) (digest : List Byte) : TileSt :=
  match d.bufOf armSeq with
  | some (_, b) => if b.digest = digest then d else d.report (.digest slot armSeq)
  | none => d

/-- WITHDRAW_REQUEST: suspends the share and accepts, or refuses less than 5 us before t_s (R252 step 3). The undoing of a staging that has
failed as a whole takes back any share that does not play yet (R246). -/
def withdraw (d : TileSt) (x : Str) (slot armSeq : Nat) (undo : Bool) : TileSt :=
  match d.bufOf armSeq with
  | some (k, b) =>
    if b.state = BufState.staged ∧ (undo ∨ d.time + 5 * usT < b.ts) then
      (d.setBuf k { b with state := .suspended }).reportTo x (.withdrawReply slot armSeq true)
    else d.reportTo x (.withdrawReply slot armSeq false)
  | none => d.reportTo x (.withdrawReply slot armSeq false)

/-- WITHDRAW_COMMIT: frees the buffer of the suspended share (R252 step 5). -/
def withdrawCommit (d : TileSt) (x : Str) (slot armSeq : Nat) : TileSt :=
  let d := match d.bufOf armSeq with
    | some (k, b) => if b.state = BufState.suspended then d.freeBuf k else d
    | none => d
  d.reportTo x (.withdrawAck slot armSeq)

/-- WITHDRAW_RESTORE: releases the suspension (R252 step 5). -/
def withdrawRestore (d : TileSt) (x : Str) (slot armSeq : Nat) : TileSt :=
  let d := match d.bufOf armSeq with
    | some (k, b) => if b.state = BufState.suspended then d.setBuf k { b with state := .staged } else d
    | none => d
  d.reportTo x (.withdrawAck slot armSeq)

end TileSt
end Sys2Proof.Machine
end

