-- ==== Sys2Proof/Machine/Pickup.lean ====
section
/-! DEFINITION. The pickups, converters, window comparators and thermistors of one tile: 06_pickups_adc.md R150 to R169. -/

namespace Sys2Proof.Machine

namespace TileSt

/-- The pickup bank of a tile-local pickup (R36, R150). -/
def bankOf (m : Nat) : Nat := m / 128 % 2

/-- The pickup bank is powered: tile domains 5 and 6 (R36). -/
def bankOn (d : TileSt) (b : Nat) : Bool := d.domOn (5 + b)

/-- The sample period of a bank (R153): 500 ns times 2^RATE, and 4 us in the power state HOLD. -/
def period (d : TileSt) (b : Nat) : Nat :=
  if d.pwrHold then 4 * usT
  else 500 * nsT * 2 ^ d.fld Reg.TILE_PCFG (if b = 0 then F.TILE_PCFG.RATE0 else F.TILE_PCFG.RATE1)

/-- The group samples on the timer: TSRC = 0, or tile hold (R153, R154). -/
def onTimer (d : TileSt) (g : Nat) : Bool := d.hold || decide (d.fld (Reg.TILE_MTRIG g) F.TILE_MTRIG.TSRC = 0)

/-- End of the bank's bias settling. -/
def settle (d : TileSt) (b : Nat) : Nat := if b = 0 then d.settle0 else d.settle1

/-- A sample taken at `t` carries BSET (R150). -/
def biasSettling (d : TileSt) (b t : Nat) : Bool := decide (t < d.settle b ∧ d.settle b ≤ t + 20 * usT)

/-- A sample of pickup `m` taken at `t` carries TEST: its channel's open test is the 2 us from the start of its 8 us slot, and
the mark lasts 1 us more (R156, R161). -/
def underTest (d : TileSt) (m t : Nat) : Bool :=
  decide (d.fld Reg.TILE_PCFG F.TILE_PCFG.OTEST = 1 ∧ t % sweepT / (8 * usT) = m % 128 ∧ t % sweepT % (8 * usT) < 3 * usT)

/-- The full-scale current of a TIA range, in pA (R151). -/
def ifsPA (r : Nat) : Int := if r = 0 then 20000000 else if r = 1 then 200000000 else 2000000000

/-- The code of a conversion (R151, R157, R158), exact halves going up. -/
def convCode (r : Nat) (v : Conv) : Nat :=
  let f := ifsPA r
  let n := (v.zero : Int) * f + v.pA * 64510
  let code := (2 * n + f) / (2 * f)
  if v.sat ∨ 0xFFFE < code then 0xFFFF
  else if 64 * v.pA < -f then 0
  else if code ≤ 0 then 1
  else code.toNat

/-- TILE_PBIAS_WRITE: a change of the bias in force starts a 20 us BSET span; a stored code above 240 acts as 240 (R150). -/
def writeBias (d : TileSt) (b v : Nat) : TileSt :=
  let old := min 240 (d.fld (Reg.TILE_PBIAS b) F.TILE_PBIAS.CODE)
  let d := d.setFld (Reg.TILE_PBIAS b) F.TILE_PBIAS.CODE v
  if min 240 (v % 256) = old then d
  else
    let d := d.setFld (Reg.TILE_PBIAS b) F.TILE_PBIAS.SETTLING 1
    if b = 0 then { d with settle0 := d.time + 20 * usT } else { d with settle1 := d.time + 20 * usT }

/-- BIAS_SETTLE_END: SETTLING clears once the span has passed (R150). -/
def settleDone (d : TileSt) (b : Nat) : TileSt :=
  if d.settle b ≤ d.time then d.setFld (Reg.TILE_PBIAS b) F.TILE_PBIAS.SETTLING 0 else d

/-- A trigger that a channel or path ignores (R155), for the channels `ms` of a group. -/
def ignoreTrig (d : TileSt) (ms : List Nat) : TileSt :=
  match ms with
  | [] => d
  | m :: _ =>
    let d := ms.foldl (fun d k => d.updMon k fun c =>
      { c with flags := putBit c.flags 1 true, trgCnt := satInc 65535 c.trgCnt }) d
    (d.addSat Reg.TILE_TRGOVR F.TILE_TRGOVR.CNT 1).note 10 m

/-- Starts a conversion of every channel of a group at instant `t`; busy channels ignore the trigger (R155). -/
def startGroup (d : TileSt) (g t : Nat) : TileSt :=
  let ms := upFrom (8 * g) 8
  let d' := d.ignoreTrig (ms.filter fun m => (d.mon m).busy.isSome)
  ms.foldl (fun e m => if (d.mon m).busy.isSome then e else e.updMon m fun c =>
    { c with busy := some t, recov := c.recov - 1,
             took := ⟨c.tia, decide (c.recov ≠ 0), d.underTest m t, d.biasSettling (bankOf m) t, none⟩ }) d'

/-- SAMPLE_TRIGGER: the sample timer triggers every channel of a bank's timer groups (R153). -/
def sampleTrigger (d : TileSt) (b : Nat) : TileSt :=
  let b := b % 2
  if d.bankOn b then
    let t := d.time / d.period b * d.period b
    (upFrom (16 * b) 16).foldl (fun d g => if d.onTimer g then d.startGroup g t else d) d
  else d

/-- LOAD_TRIGGER: a delayed trigger whose instant has come starts the group's conversions (R154). -/
def loadTrigger (d : TileSt) (g : Nat) : TileSt :=
  match d.trig.find? (fun e => e.1 == g && !e.2.2 && decide (e.2.1 ≤ d.time)) with
  | some e =>
    if d.bankOn (g / 16) then
      let d := { d with trig := d.trig.map fun (x : Nat × Nat × Bool) => if x.1 = g then (x.1, x.2.1, true) else x }
      d.startGroup g e.2.1
    else { d with trig := d.trig.filter fun (x : Nat × Nat × Bool) => x.1 != g }
  | none => d

/-- The comparator's judgement of a code (R159): none while WIN_LO > WIN_HI (R160). -/
def judge (c : Mon) (code : Nat) : Option Cmp :=
  if c.winHi < c.winLo then none
  else if code = 0xFFFF ∨ c.winHi < code then some .above
  else if code = 0 ∨ code < c.winLo then some .below
  else some .inside

/-- The comparator after a judged sample, and the flag it sets: 2 WLO, 3 WHI (R159); `w` samples make a move. -/
def compare (c : Mon) (w code : Nat) : Mon × Option Nat :=
  match judge c code with
  | none => ({ c with cmp := .unknown, runTo := .unknown, runLen := 0 }, none)
  | some k =>
    if c.cmp = .unknown then ({ c with cmp := k, runTo := .unknown, runLen := 0 }, none)
    else if c.cmp = k then ({ c with runTo := .unknown, runLen := 0 }, none)
    else
      let n := if c.runTo = k then c.runLen + 1 else 1
      if w ≤ n then
        ({ c with cmp := k, runTo := .unknown, runLen := 0 },
          match k with | .below => some 2 | .above => some 3 | _ => none)
      else ({ c with runTo := k, runLen := n }, none)

/-- The comparator after a fit sample: one taken before a change of its window is judged by the window of then, and leaves the comparator
UNKNOWN (R162). -/
def compareTaken (c : Mon) (w code : Nat) : Mon × Option Nat :=
  match c.took.old with
  | none => compare c w code
  | some o =>
    ({ c with cmp := .unknown, runTo := .unknown, runLen := 0 },
      (compare { c with winLo := o.lo, winHi := o.hi, cmp := o.cmp, runTo := o.runTo, runLen := o.runLen } w code).2)

/-- Bits of a sample's marks (R163): OVR 0, REC 1, NREC 2, TEST 3, BSET 4. -/
def unfit (marks : Nat) : Bool := decide (marks / 2 ≠ 0)

/-- Keeps the samples of the latest window and frame (R174). -/
def keepWin (l : List Smp) (t : Nat) : List Smp := l.takeWhile fun s => decide (t ≤ s.t + winT + frameT)

/-- The window after a sample (R174, R268). Only timer groups with TSRC = 0 deliver to the demodulators (R154). -/
def pushWin (d : TileSt) (m t code : Nat) (fit : Bool) : TileSt :=
  let c := d.mon m
  let off : Int := d.fld (Reg.TILE_POFF m) F.TILE_POFF.OFF
  let x : Int := if fit then 16 * (code : Int) - off else match c.lastFit with | some v => 16 * (v : Int) - off | none => 0
  let c := { c with lastFit := if fit then some code else c.lastFit }
  if d.fld (Reg.TILE_MTRIG (m / 8)) F.TILE_MTRIG.TSRC = 0 then
    d.setMon m { c with win := keepWin (⟨t, x, fit⟩ :: c.win) t }
  else d.setMon m c

/-- A sample's code in the statistics of its report interval (R164). -/
def addStat (l : List Stat) (iv code : Nat) : List Stat :=
  match l with
  | [] => [⟨iv, code, code, code, 1⟩]
  | s :: l => if s.iv = iv then ⟨iv, min s.lo code, max s.hi code, s.sum + code, s.cnt + 1⟩ :: l else s :: addStat l iv code

/-- The statistics of the sweep (R164: fit samples coded neither 0x0000 nor 0xFFFF, by their sampling instants) and of the running null slot (R180: fit
samples with instants in the slot). -/
def tally (d : TileSt) (c : Mon) (t code : Nat) (fit : Bool) : Mon :=
  let c := if fit ∧ code ≠ 0 ∧ code ≠ 0xFFFF then { c with stats := addStat c.stats (t / sweepT) code } else c
  if fit ∧ d.nulOn ∧ d.nul.1 ≤ t ∧ t < d.nul.2.1 then
    { c with nMin := if c.nCnt = 0 then code else min c.nMin code, nSum := c.nSum + code, nCnt := c.nCnt + 1 } else c

/-- One conversion completes (R156 to R159), with the sampling instant `t` and its code. Overranged pickups of the same
completion have noted their instants already, since NREC starts at the instant of the overranged sample. -/
def convert (d : TileSt) (v : Conv) (t code : Nat) : TileSt :=
  let m := v.m
  let g := m / 8
  let c := d.mon m
  let isOver := decide (code = 0xFFFF)
  let nrec := (upFrom (8 * g) 8).any fun k => k != m && match (d.mon k).ovrAt with
    | some o => decide (o ≤ t ∧ t < o + 3 * usT)
    | none => false
  let marks := b2n isOver + 2 * b2n c.took.reco + 4 * b2n nrec + 8 * b2n c.took.test + 16 * b2n c.took.bset
  let fit := !unfit marks
  let c := { c with code := code, marks := marks, busy := none, liveOvr := isOver, liveUnder := decide (code = 0),
                    recov := if isOver then 2 else c.recov,
                    ovrCnt := if isOver then satInc 65535 c.ovrCnt else c.ovrCnt,
                    flags := putBit (putBit c.flags 0 (bit c.flags 0 || isOver)) 4 (bit c.flags 4 || decide (code = 0)) }
  let c := d.tally c t code fit
  let (c, flag) := if fit then compareTaken c (d.fld Reg.TILE_PCFG F.TILE_PCFG.WDEB + 1) code else (c, none)
  let c := match flag with
    | some i => { c with flags := putBit c.flags i true, winCnt := satInc 65535 c.winCnt }
    | none => c
  let c := { c with took := Take.none }
  let d := d.setMon m c
  let d := d.pushWin m t code (fit && decide (code ≠ 0 ∧ code ≠ 0xFFFF))
  let d := if isOver then (d.orReg Reg.TILE_OVRSUM (2 ^ (g % 32))).cond 11 m 1 else d
  if flag.isSome then (d.orReg Reg.TILE_WINSUM (2 ^ (g % 32))).event 0 else d

/-- CONVERSION_DONE: conversions that were started complete together (R155 to R159). Their overranges are known before any is
marked, and a load-triggered group's path is free again once none of its channels converts. -/
def conversions (d : TileSt) (vs : List Conv) : TileSt :=
  let live := vs.filterMap fun v => if v.m < 256 then (d.mon v.m).busy.map fun t => (v, t, convCode (d.mon v.m).took.tia v) else none
  let d := live.foldl (fun d e => if e.2.2 = 0xFFFF then d.updMon e.1.m fun c => { c with ovrAt := some e.2.1 } else d) d
  let d := live.foldl (fun d e => d.convert e.1 e.2.1 e.2.2) d
  { d with trig := d.trig.filter fun e => !e.2.2 || (upFrom (8 * e.1) 8).any fun m => (d.mon m).busy.isSome }

/-- Live and sticky POPEN or PSHORT of a pickup (bits 5 and 6): a rise raises the source (R161, R364). -/
def openShort (d : TileSt) (m : Nat) (isOpen isShort : Bool) : TileSt :=
  let c := d.mon m
  let rose := (isOpen && !c.liveOpen) || (isShort && !c.liveShort)
  let d := d.setMon m { c with liveOpen := isOpen, liveShort := isShort,
                               flags := putBit (putBit c.flags 5 (bit c.flags 5 || isOpen)) 6 (bit c.flags 6 || isShort) }
  if rose then d.note 6 m else d

/-- PICKUP_OPEN_TEST: the test of the channel whose 8 us slot this is gives `capq` in 0.01 pF, or none where its step did not
complete in 2 us; a change of bias since the slot began abandons it (R161, R162). -/
def openTest (d : TileSt) (b : Nat) (capq : Option Nat) : TileSt :=
  let b := b % 2
  let i := d.time % sweepT / (8 * usT)
  let start := d.time / sweepT * sweepT + i * (8 * usT)
  let m := 128 * b + i
  let changed := decide (d.settle b ≠ 0 ∧ start + 20 * usT ≤ d.settle b)
  if d.fld Reg.TILE_PCFG F.TILE_PCFG.OTEST = 1 ∧ d.bankOn b ∧ !changed then
    match capq with
    | some q => (d.updMon m fun c => { c with capq := min 65535 q }).openShort m (decide (q < 20)) (decide (50000 < q))
    | none => d.openShort m false true
  else d

/-- CATHODE_LIMIT_TRIP: the cathode current limit has acted for 10 us (R161); it is no result of the test, and says nothing of POPEN. -/
def cathodeLimit (d : TileSt) (m : Nat) : TileSt :=
  let c := d.mon m
  let d := d.setMon m { c with liveShort := true, flags := putBit c.flags 6 true }
  if c.liveShort then d else d.note 6 m

/-- THM_CONVERSION: the thermistor whose 125 us slot this is, `r` in 1/16 ohm, none where its input is open (R165, R166). -/
def thermistor (d : TileSt) (r : Option Nat) : TileSt :=
  let i := d.time % msT / (125 * usT)
  if bit (d.fld Reg.TILE_THMEN F.TILE_THMEN.EN) i then
    -- above 1.5 Mohm and the 5 % of its threshold an input is open, whatever the converter gives
    match r.filter fun v => decide (v ≤ 25200000) with
    -- of a resistance that RES cannot hold, RES is within 5 % where it can be (log entry 2)
    | some v =>
      let low := min 0xFFFFFF (v - v / 20)
      let (q, d) := if v < 0x1000000 then (0, d) else d.draw (0x1000000 - low)
      d.wr (Reg.TILE_THM i) ((if v < 0x1000000 then v else low + q) + 0x1000000)
    | none =>
      let was := d.rd (Reg.TILE_THM i)
      let d := d.wr (Reg.TILE_THM i) (was % 0x1000000 + 0x2000000)
      let d := { d with thmSticky := putBit d.thmSticky i true }
      if bit was 25 then d else d.cond 7 i 6
  else d

/-- A store to TILE_THMEN: a disabled input reads 0 (R166). -/
def writeThmEn (d : TileSt) (v : Nat) : TileSt :=
  let d := d.setFld Reg.TILE_THMEN F.TILE_THMEN.EN v
  (upFrom 0 8).foldl (fun d i => if bit v i then d else d.wr (Reg.TILE_THM i) 0) d

/-- A store to TILE_PCFG: a change of RATEb restarts the windows of the bank (R175). -/
def writePcfg (d : TileSt) (v : Nat) : TileSt :=
  let o0 := d.fld Reg.TILE_PCFG F.TILE_PCFG.RATE0
  let o1 := d.fld Reg.TILE_PCFG F.TILE_PCFG.RATE1
  let d := d.wr Reg.TILE_PCFG (v % 256)
  let d := if v % 4 = o0 then d else { d with restart0 := d.time }
  if v / 4 % 4 = o1 then d else { d with restart1 := d.time }

/-- A conversion under way keeps the comparator as it is before its window is written (R162). -/
def keepBand (c : Mon) : Mon :=
  if c.busy.isSome && c.took.old.isNone then { c with took := { c.took with old := some ⟨c.winLo, c.winHi, c.cmp, c.runTo, c.runLen⟩ } } else c

/-- The effect of a CHWR to mon selector `sel` at its effect frame (R163, R151, R160). -/
def writeMon (d : TileSt) (m sel v : Nat) : TileSt :=
  let c := d.mon m
  match sel with
  | 1 => d.setMon m { c with flags := c.flags &&& (0x7F ^^^ (v % 128)) }
  | 2 => d.setMon m { c with tia := v % 4, recov := if c.tia = v % 4 then c.recov else 2 }
  | 3 => d.setMon m { keepBand c with winLo := v % 65536, cmp := .unknown, runTo := .unknown, runLen := 0 }
  | 4 => d.setMon m { keepBand c with winHi := v % 65536, cmp := .unknown, runTo := .unknown, runLen := 0 }
  | _ => d

def cmpCode : Cmp → Nat
  | .unknown => 0
  | .inside => 1
  | .below => 2
  | .above => 3

/-- What CHRD of a mon selector reads (R163). -/
def readMon (d : TileSt) (m sel : Nat) : Nat :=
  let c := d.mon m
  match sel with
  | 0 => c.code + 65536 * c.marks
  | 1 => c.flags + 65536 * (b2n c.liveOvr + 2 * b2n c.liveUnder + 4 * b2n c.liveOpen + 8 * b2n c.liveShort) +
      4194304 * cmpCode c.cmp
  | 2 => c.tia
  | 3 => c.winLo
  | 4 => c.winHi
  | _ => 0

/-- What CHRD of a thm selector reads (R163). -/
def readThm (d : TileSt) (i sel : Nat) : Nat :=
  let r := d.rd (Reg.TILE_THM i)
  if sel = 0 then r % 0x2000000 else b2n (bit d.thmSticky i) + 256 * b2n (bit r 25)

/-- A CHWR to thm FLAGS (R163). -/
def writeThm (d : TileSt) (i v : Nat) : TileSt :=
  if v % 2 = 1 then { d with thmSticky := putBit d.thmSticky i false } else d

end TileSt
end Sys2Proof.Machine
end

