-- ==== Sys2Proof/Machine/Drone.lean ====
section
/-! DEFINITION. Drone pilots, demodulation, observers, null slots and error records of one tile: 07_drone.md R170 to R185. -/

namespace Sys2Proof.Machine

namespace TileSt

/-- The pilot of a running null slot is silenced (R171, R179). -/
def silenced (d : TileSt) (p : Nat) : Bool := d.nulOn && bit d.nul.2.2 p

/-- Dither would be added to the channel, a null slot apart (R171). -/
def piloted (d : TileSt) (c : Chan) : Bool :=
  decide (c.amp ≠ 0) && !c.noPilot && c.enable && decide (d.fld Reg.TILE_DRNCFG F.TILE_DRNCFG.DEN = 1)

/-- The dither of pilot `p` and amplitude `amp` at instant `t` (R170, R171). -/
def dither (amp p t : Nat) : Int := fxRound ((amp : Int) * sinTurn (((p + 2) * (t % winT) : Nat) : Int) winT)

/-- The dither on one channel (R171, R172): added to the power code of its source, clamped and converted; in tile hold about
the power code behind the held code, with the KCORR in force when the hold began. Where no dither is added any longer the code
is that of the power code alone. -/
def ditherOne (d : TileSt) (a t : Nat) : TileSt :=
  let c := d.chan a
  let k := if d.hold then (if d.vmode a then 16384 else c.holdK) else d.kNow a c
  if d.piloted c && !d.silenced c.pilot then
    let v := (c.power : Int) + dither c.amp c.pilot t
    let pc := (clampI 0 0xFFFF v).toNat
    let (cc, lim) := d.toCode a k pc
    let clamped := decide (v < 0 ∨ 0xFFFF < v)
    let d := d.setChan a { c with code := cc, dith := true, clipAt := if clamped then some t else c.clipAt,
                                  clipPrev := if clamped ∧ c.clipAt ≠ some t then c.clipAt else c.clipPrev }
    let d := if lim then d.stick a 6 else d
    if clamped then d.addSat Reg.TILE_DRNCLIP F.TILE_DRNCLIP.CNT 1 else d
  else if c.dith then d.setChan a { c with code := (d.toCode a k c.power).1, dith := false }
  else d

/-- DITHER_STEP: one step of the 250 ns grid on every channel (R171). -/
def ditherStep (d : TileSt) : TileSt :=
  let t := d.time / gridT * gridT
  d.chanKeys.foldl (fun d a => d.ditherOne a t) d

/-- The number of samples in a full window of a bank (R174). -/
def winLen (d : TileSt) (b : Nat) : Nat := winT / d.period b

/-- The samples of pickup `m` in the window that ends at `b` (R174). -/
def window (d : TileSt) (m b : Nat) : List Smp := (d.mon m).win.filter fun s => decide (s.t < b ∧ b ≤ s.t + winT)

/-- Sum of x' over a window, in 1/16 code. -/
def winSum (l : List Smp) : Int := (l.map (·.x)).sum

/-- The reference angle's turn for a sample at `t` (R174), as a numerator over winT * 65536. -/
def refTurn (p rot t : Nat) : Int := (((p + 2) * (t % winT) * 65536 : Nat) : Int) - ((rot * winT : Nat) : Int)

/-- Sums of x' sin(ref) and x' cos(ref) over a window, in 1/16 code times 2^-40. -/
def refSums (l : List Smp) (p rot : Nat) : Int × Int :=
  l.foldl (fun v s =>
    (v.1 + s.x * sinTurn (refTurn p rot s.t) (winT * 65536), v.2 + s.x * cosTurn (refTurn p rot s.t) (winT * 65536))) (0, 0)

/-- I or Q of a window (R174): 4096 * 65536 * (2/N) sum / (AMP * M), N cancelling, held to -32767 .. 32767; within 1 LSB,
so a free step of -1, 0 or 1 is added (log entry 2). -/
def quotient (sum total : Int) (amp : Nat) (step : Nat) : Int :=
  let den := ((amp : Int) * total * fxOne).toNat
  clampI (-32767) 32767 (rheDiv (4096 * 65536 * 2 * sum) (max 1 den) + (step : Int) - 1)

/-- Boundary `b` lies in the element's STROKE span (R178). -/
def stroking (c : Chan) (b : Nat) : Bool := decide (c.strokeFrom ≤ b ∧ b ≤ c.strokeEnd ∧ c.strokeEnd ≠ 0)

/-- The latest restart of the window of pickup `m` for an element at boundary `b`; a change of the element's AMP or ENABLE counts where `own`
holds (R175, R176), one of AMP during a stroke only after the span of STROKE (R183). -/
def restartOf (d : TileSt) (m : Nat) (c : Chan) (b : Nat) (own : Bool) : Nat :=
  max d.restart (max (if bankOf m = 0 then d.restart0 else d.restart1)
    (if own then max c.restart (if stroking c b then 0 else c.strokeAmp) else 0))

/-- The window has been full since its restart (R175 WARMUP); windows start once RESTORED is 1 (R269). -/
def warm (d : TileSt) (m b since : Nat) : Bool :=
  decide (d.fld Reg.TILE_CALSTAT F.TILE_CALSTAT.RESTORED = 1) &&
    decide (d.winLen (bankOf m) ≤ ((d.window m b).filter fun s => decide (since ≤ s.t)).length)

/-- The window contains a sample from inside the latest null slot, and the slot silences the pilot (R175 NULL). -/
def nulled (d : TileSt) (m b p : Nat) : Bool :=
  bit d.nul.2.2 p && (d.window m b).any fun s => decide (d.nul.1 ≤ s.t ∧ s.t < d.nul.2.1)

/-- Another element of the tile that the pickup's VIS record lists is in its STROKE span (R178). -/
def neighbourStroke (d : TileSt) (m b : Nat) : Bool :=
  decide (d.fld Reg.TILE_DRNCFG F.TILE_DRNCFG.STRKMASK = 1) &&
    (Tab.get (fun _ => []) d.vis m).any fun v => match v.act with
      | some e => stroking (d.chan e) b
      | none => false

/-- The reason that pickup `m`'s window gives for element `a` at `b`, OBSCHG apart: the lowest code that applies (R175). -/
def windowReason (d : TileSt) (a m b : Nat) (own : Bool) : Option Nat :=
  let c := d.chan a
  let w := d.window m b
  let n := d.winLen (bankOf m)
  if !d.piloted c then some 1
  else if !d.warm m b (d.restartOf m c b own) then some 3
  else if stroking c b || d.neighbourStroke m b then some 4
  else if d.nulled m b c.pilot then some 5
  else if d.fld Reg.TILE_DRNCFG F.TILE_DRNCFG.UNFITMAX < (w.filter fun s => !s.fit).length then some 6
  else if winSum w < ((256 * n * d.fld Reg.TILE_DRNCFG F.TILE_DRNCFG.DARKMIN : Nat) : Int) ∨ winSum w ≤ 0 then some 7
  else if winT ≤ 2 * (c.pilot + 2) * d.period (bankOf m) then some 9
  else if clipped c.clipAt || clipped c.clipPrev then some 10
  else none
where
  clipped : Option Nat → Bool
    | some t => decide (b ≤ t + winT ∧ t < b)
    | none => false

/-- The pickups whose VIS record lists element `a`, with their RANK, in rising order (R176). -/
def listing (d : TileSt) (a : Nat) : List (Nat × Nat) :=
  d.vis.filterMap fun e => (e.2.find? fun v => v.act == some a).map fun v => (e.1, v.rank)

/-- A usable observer (R176). -/
def usable (d : TileSt) (m : Nat) : Bool :=
  d.bankOn (bankOf m) && decide (d.fld (Reg.TILE_MTRIG (m / 8)) F.TILE_MTRIG.TSRC = 0) &&
    !(d.mon m).liveOpen && !(d.mon m).liveShort

/-- The preferred pickup of a list: lowest RANK, then lowest index (R177). -/
def preferred (l : List (Nat × Nat)) : Option Nat :=
  (l.foldl (fun (v : Option (Nat × Nat)) e => match v with
    | none => some e
    | some w => if e.2 < w.2 then some e else some w) none).map (·.1)

/-- The observer of element `a` at boundary `b` (R177): the eligible pickups with the boundary since which each has been
eligible, and the choice. -/
def choose (d : TileSt) (a b : Nat) : List (Nat × Nat) × Option Nat :=
  let c := d.chan a
  let use := (d.listing a).filter fun e => d.usable e.1
  let el := use.filter fun e => (d.windowReason a e.1 b false).isNone
  let since := el.map fun e => (e.1, ((c.elig.find? fun x => x.1 == e.1).map (·.2)).getD b)
  let ret := d.fld Reg.TILE_DRNCFG F.TILE_DRNCFG.RETURN * msT
  let rank := fun m => (((d.listing a).find? fun e => e.1 == m).map (·.2)).getD 0
  let back := match c.obs with
    | some o => el.filter fun e => decide (e.2 < rank o) && (since.any fun s => s.1 == e.1 && decide (s.2 + ret ≤ b))
    | none => []
  (since,
    match preferred back with
    | some m => some m
    | none =>
      match c.obs with
      | some o =>
        if el.any (fun e => e.1 == o) then some o
        else match preferred el with
          | some m => some m
          | none => if use.any (fun e => e.1 == o) then some o else preferred use
      | none => match preferred el with
        | some m => some m
        | none => preferred use)

/-- A 16-bit two's complement field. -/
def half (i : Int) : Nat := wrap 16 i

/-- One element's entry of the record at boundary `b` (R174 to R178, R181): its I and Q words. -/
def entry (d : TileSt) (a b : Nat) : TileSt × Nat × Nat :=
  let c := d.chan a
  let (since, o) := d.choose a b
  let changed := decide (c.obs.isSome ∧ o.isSome ∧ c.obs ≠ o)
  let chgEnd := if changed then ceilTo winT b else c.obsChgEnd
  let d := if changed then d.addSat Reg.TILE_DRNOBSCHG F.TILE_DRNOBSCHG.CNT 1 else d
  let why : Option Nat :=
    if !d.piloted c then some 1
    else match o with
      | none => some 2
      | some m =>
        match d.windowReason a m b true with
        | some r => if r < 8 then some r else if b ≤ chgEnd then some 8 else some r
        | none => if b ≤ chgEnd then some 8 else none
  let d := d.setChan a { c with elig := since, obs := o, obsChgEnd := chgEnd, reason := some (why.getD 0) }
  match why, o with
  | none, some m =>
    let w := d.window m b
    let (s, q) := refSums w c.pilot (d.fld (Reg.TILE_DRNROT c.pilot) F.TILE_DRNROT.ROT)
    let (r1, d) := d.draw 3
    let (r2, d) := d.draw 3
    (d, half (quotient s (winSum w) c.amp r1), half (quotient q (winSum w) c.amp r2))
  | some r, _ => (d, 0x8000, r)
  | none, none => (d, 0x8000, 2)

/-- ERROR_RECORD_SEND: at a 100 kHz boundary the tile latches its entries, chooses observers, and sends the record to both
strings (R181). -/
def sendRecord (d : TileSt) (n : Nat) : TileSt :=
  let b := d.time / frameT * frameT
  let (d, ents) := d.chanKeys.foldl (fun (v : TileSt × List (Nat × Nat × Nat)) a =>
    let (d, i, q) := v.1.entry a b
    (d, v.2 ++ [(a, i, q)])) (d, [])
  let nv := (ents.filter fun e => e.2.1 != 0x8000).length
  let no := (ents.filter fun e => e.2.1 == 0x8000 && e.2.2 == 2).length
  let d := d.addMod Reg.TILE_DRNRSEQ F.TILE_DRNRSEQ.RSEQ 1
  let d := (d.setFld Reg.TILE_DRNSTAT F.TILE_DRNSTAT.NVALID nv).setFld Reg.TILE_DRNSTAT F.TILE_DRNSTAT.NNOOBS no
  let d := { d with sent := true }
  d.report (.error ⟨0xD5, n, d.hold, d.freeNow, d.nulOn, d.pwrHold, frameOf b, nv, d.rd Reg.TILE_DRNRSEQ, ents⟩)

/-- NULL_SLOT_START: a slot begins at a whole multiple of PERIOD ms and lasts LEN x 10 us, LEN held to 10 .. PERIOD x 50
(R179). -/
def nullStart (d : TileSt) : TileSt :=
  let per := d.fld Reg.TILE_DRNNPER F.TILE_DRNNPER.PERIOD
  if per = 0 then d else
  let t := d.time / (per * msT) * (per * msT)
  let len := min (per * 50) (max 10 (d.fld Reg.TILE_DRNNPER F.TILE_DRNNPER.LEN))
  let d := { d with nul := (t, t + len * frameT, d.fld Reg.TILE_DRNNULL F.TILE_DRNNULL.MASK), nulOn := true }
  let d := d.setFld Reg.TILE_DRNSTAT F.TILE_DRNSTAT.NULLACT 1
  (d.mons.map (·.1)).foldl (fun d m => d.updMon m fun c => { c with nMin := 0, nSum := 0, nCnt := 0 }) d

/-- A store to TILE_DRNNULL; a running slot silences by the mask stored (R179). -/
def writeNull (d : TileSt) (v : Nat) : TileSt :=
  let d := d.setFld Reg.TILE_DRNNULL F.TILE_DRNNULL.MASK v
  if d.nulOn then { d with nul := (d.nul.1, d.nul.2.1, v % 65536) } else d

/-- One null report (R180). -/
structure NullRep where
  m : Nat
  nmin : Nat
  nmean : Nat
  nres : Nat
  nfit : Nat
  deriving DecidableEq, Repr

/-- NRES of a pickup (R180): the largest |I_raw| + |Q_raw| over the masked pilots of its VIS record, in code LSB; the part
of one LSB that the spec does not round is free (log entry 2). -/
def nullRes (d : TileSt) (m stop mask : Nat) : TileSt × Nat :=
  let w := d.window m stop
  let n := d.winLen (bankOf m)
  let top := ((Tab.get (fun _ => []) d.vis m).filter fun v => bit mask v.pilot).foldl (fun v e =>
    let (s, q) := refSums w e.pilot (d.fld (Reg.TILE_DRNROT e.pilot) F.TILE_DRNROT.ROT)
    max v (s.natAbs + q.natAbs)) 0
  -- (2 / N) * sum, in 1/16 code times 2^-40
  let den := 16 * n * fxOne.toNat
  let (r, d) := d.draw 2
  (d, min 0xFFFF (2 * top / max 1 den + (if 2 * top % max 1 den = 0 then 0 else r)))

/-- NULL_SLOT_END at the tile: the report of each pickup, with the slot's start and mask (R180). -/
def nullEnd (d : TileSt) : TileSt × List NullRep × Nat × Nat :=
  let (start, stop, mask) := d.nul
  if d.nulOn ∧ stop ≤ d.time then
    let (d, l) := (upFrom 0 256).foldl (fun (v : TileSt × List NullRep) m =>
      let (d, r) := v.1.nullRes m stop mask
      let c := d.mon m
      (d, v.2 ++ [⟨m, c.nMin, if c.nCnt = 0 then 0 else c.nSum / c.nCnt, r, min 65535 c.nCnt⟩])) (d, [])
    ({ d with nulOn := false }.setFld Reg.TILE_DRNSTAT F.TILE_DRNSTAT.NULLACT 0, l, start, mask)
  else (d, [], start, mask)

end TileSt
end Sys2Proof.Machine
end

