-- ==== Sys2Proof/Machine/TileReg.lean ====
section
/-! DEFINITION. Loads and stores of a tile's registers, as they reach the tile (R21, R149, R169, R185, R260, R282): what a read
returns, what a read clears, and what a store does. -/

namespace Sys2Proof.Machine

/-- A word stored to a register by the access type of each field (00_scope.md R8, R11): RW and HW take the bit, W1C clears it where
a 1 is written, and every other field keeps its value. -/
def storeFields (fs : List RegField) (old v : Nat) : Nat :=
  fs.foldl (fun w f => match f.acc with
    | .rw => putBits w f.lo f.w (bits v f.lo f.w)
    | .hw => putBits w f.lo f.w (bits v f.lo f.w)
    | .w1c => putBits w f.lo f.w (bits w f.lo f.w &&& (bits v f.lo f.w ^^^ (2 ^ f.w - 1)))
    | _ => w) old

/-- A word after a read that returns its RC fields to their Cold values (R8, R10). -/
def clearRead (fs : List RegField) (old : Nat) : Nat :=
  fs.foldl (fun w f => match f.acc with | .rc => putBits w f.lo f.w f.cold | _ => w) old

/-- What a read returns: WO fields read 0 (R8). -/
def readFields (fs : List RegField) (v : Nat) : Nat :=
  fs.foldl (fun w f => match f.acc with | .wo => putBits w f.lo f.w 0 | _ => w) v

namespace TileSt

/-- The fields of the register at offset `o` of a tile block. -/
def fieldsAt (o : Nat) : List RegField := match findRow rowsTile o with | some (r, _) => r.fields | none => []

def bufCode : BufState → Nat
  | .free => 0
  | .staged => 1
  | .playing => 2
  | .suspended => 3

/-- TILE_SBUF.CAL (R260): the buffer holds an occurrence, or is one of the free buffers, highest first, kept for the calendar. -/
def bufCal (d : TileSt) (k : Nat) : Bool :=
  let b := d.buf k
  if b.state = .free then
    let used := (upFrom 0 4).filter fun j => decide ((d.buf j).state ≠ .free) && (d.buf j).cal
    let above := (upFrom (k + 1) (3 - k)).filter fun j => decide ((d.buf j).state = .free)
    d.calRes && decide (above.length + used.length < 2)
  else b.cal

/-- The word a read of the register at offset `o` returns before anything the read itself does. -/
def view (d : TileSt) (o : Nat) : Nat :=
  if o = Reg.TILE_PLIMEFF then d.plimEff.1 + 32768 * b2n d.plimEff.2
  else if o = Reg.TILE_PSUM then d.steady % 33554432
  else if o = Reg.TILE_ASTAT then putBit (d.rd o) 0 d.guarding
  else if o = Reg.TILE_AFLT then
    (d.chans.filter fun e => bit e.2.live 0).length + 65536 * (d.chans.filter fun e => bit e.2.live 1).length
  else if Reg.TILE_BOWSHAPE 0 ≤ o ∧ o < Reg.TILE_BOWSHAPE 16 then
    putBit (d.rd o) 31 (decide (bits (d.rd o) 8 3 + bits (d.rd o) 12 3 ≤ 6))
  else if o = Reg.TILE_PSTAT then
    (d.mons.filter fun e => e.2.liveOvr).length + 512 * (d.mons.filter fun e => e.2.liveOpen).length +
      262144 * (d.mons.filter fun e => e.2.liveShort).length
  else if Reg.TILE_SBUF 0 ≤ o ∧ o < Reg.TILE_SBUF 4 then
    let k := (o - Reg.TILE_SBUF 0) / 4
    let b := d.buf k
    bufCode b.state + 4 * b2n (d.bufCal k) + 8 * b.slot + 1024 * b.ents.length
  else if Reg.TILE_SBUFT 0 ≤ o ∧ o < Reg.TILE_SBUFT 4 then nsOf (d.buf ((o - Reg.TILE_SBUFT 0) / 4)).ts
  else if Reg.TILE_SBUFSEQ 0 ≤ o ∧ o < Reg.TILE_SBUFSEQ 4 then (d.buf ((o - Reg.TILE_SBUFSEQ 0) / 4)).armSeq
  else readFields (fieldsAt o) (d.rd o)

/-- A read of the register at offset `o`: its word, and what a read clears unless it comes through DBG (R10). TILE_PMEAS is a
measurement, a free value (R149; log entry 2). -/
def loadReg (d : TileSt) (o : Nat) (clears : Bool) : Nat × TileSt :=
  if o = Reg.TILE_PMEAS then d.draw 65536
  else (d.view o, if clears then d.wr o (clearRead (fieldsAt o) (d.rd o)) else d)

/-- A store to the register at offset `o` that reaches the tile. -/
def storeReg (d : TileSt) (o v : Nat) : TileSt :=
  if o = Reg.TILE_MODE then d.writeMode v
  else if o = Reg.TILE_ACFG then (d.wr o (storeFields (fieldsAt o) (d.rd o) v)).restick
  else if o = Reg.TILE_PLIM ∨ o = Reg.TILE_ODBUD then d.wr o (min 24000 (v % 32768))
  else if o = Reg.TILE_PCFG then d.writePcfg v
  else if o = Reg.TILE_PBIAS 0 then d.writeBias 0 v
  else if o = Reg.TILE_PBIAS 1 then d.writeBias 1 v
  else if o = Reg.TILE_THMEN then d.writeThmEn v
  else if o = Reg.TILE_DRNNULL then d.writeNull v
  else d.wr o (storeFields (fieldsAt o) (d.rd o) v)

/-- VHTROK of every bank (R149). -/
def setVhtr (d : TileSt) (on : Bool) : TileSt :=
  (upFrom 0 4).foldl (fun d b => d.setFld (Reg.TILE_BANKSTAT b) F.TILE_BANKSTAT.VHTROK (b2n (on && d.domOn (1 + b)))) d

/-! ## Sweep reports (R148, R164) -/

/-- Words 4 to 7 of an actuator record as a sweep reports them (R148). -/
def actSweep (d : TileSt) (a : Nat) : List Nat :=
  let c := d.chan a
  [c.power + 65536 * c.code, c.res % 65536 + 65536 * d.kNow a c,
   c.flags + 65536 * d.liveNow a c + 2147483648 * b2n c.enable, c.tripCnt + 65536 * c.compCnt]

/-- Words 2 to 6 of a pickup record as a sweep reports them (R164). -/
def monSweep (d : TileSt) (m : Nat) : List Nat :=
  let c := d.mon m
  let s := (c.stats.find? fun s => s.iv + 1 == d.time / sweepT).getD ⟨0, 0, 0, 0, 1⟩
  [c.code + 65536 * s.lo, s.hi + 65536 * (s.sum / s.cnt),
   d.readMon m 1, c.ovrCnt + 65536 * c.trgCnt, c.capq + 65536 * c.winCnt]

/-- After a report the statistics of the intervals before its instant are done with (R164). -/
def sweepReset (d : TileSt) : TileSt :=
  (d.mons.map (·.1)).foldl (fun d m => d.updMon m fun c => { c with stats := c.stats.filter fun s => decide (d.time / sweepT ≤ s.iv) }) d

/-- Every window of the tile starts over (R175). -/
def restartAll (d : TileSt) : TileSt := { d with restart := d.time }

/-- RESTORED is set: the demodulation windows start (R269). -/
def setRestored (d : TileSt) : TileSt := (d.setFld Reg.TILE_CALSTAT F.TILE_CALSTAT.RESTORED 1).restartAll

/-- TILE_RESET (R406): the control domain restarts. Registers take their Cold values, every share is reported missed (R251),
the mirror is emptied, windows restart, the copy of time free-runs and the tile enters hold. Per-channel settings and
flags are kept. -/
def resetCtl (d : TileSt) : TileSt :=
  let held := d.enterHold
  let d := d.bufs.foldl (fun d e => if e.2.state = .free then d else d.report (.missed e.2.slot e.2.armSeq)) held
  let d := d.chanKeys.foldl (fun d a => d.updChan a fun c => { c with bow := none, newRange := none, elig := [] }) d
  let d := (d.mons.map (·.1)).foldl (fun d m => d.updMon m fun c => { c with win := [], lastFit := none, busy := none, took := Take.none }) d
  { d with regs := [], bufs := [], mirror := [], mirrored := false, thmSticky := 0, freeRun := true, nulOn := false,
           trig := [], codesA := [], codesB := [], cmpFrom := none, calRes := false, sent := false }.restartAll

end TileSt
end Sys2Proof.Machine
end

