-- ==== Sys2Proof/Machine/StrOps.lean ====
section
/-! DEFINITION. Reading and writing a string's registers, cores, memory and power domains; the two strings and the tiles in
the module; time passing. -/

namespace Sys2Proof.Machine

/-- Severity of a source of the recorder (16_faults.md R364): 0 NOTE, 1 DEGRADE, 2 LOSS, 3 FATAL; none where it is reserved. -/
def severity (s : Nat) : Option Nat :=
  if s < 32 then
    ([some 3, some 3, some 3, some 3, some 3, some 1, some 0, some 1, some 2, some 1, some 0, some 0, some 1, some 1, some 1,
      some 2, some 1, some 0, some 1, some 1, some 1, some 0, some 0, some 0, some 1, some 1, some 1, some 1, some 1, some 0,
      some 2, none] : List (Option Nat)).getD s none
  else if s < 160 then
    ([some 2, some 3, some 2, some 1, some 1, some 1, some 1, some 1, some 0, some 0, some 0, some 0] : List (Option Nat)).getD
      ((s - 32) % 16) none
  else none

/-- What the layout's Cold column gives by index or by string (R7), added to the constants of the register table. -/
def coldExtra (x : Str) (o : Nat) : Nat :=
  if o = Reg.GEN_STRAP then x.idx
  else if o = Reg.GEN_SERIAL_L then Config.serial.toNat % 4294967296
  else if o = Reg.GEN_SERIAL_H then Config.serial.toNat / 4294967296
  else if o = Reg.GEN_BLKPRES 0 then 0xFFFFFF77
  else if o = Reg.GEN_BLKPRES 1 then 0xFFFFFFFF
  else if o = Reg.GEN_RSTCAUSE then 1
  -- cores 1 to 3 are off until they are released (17_power_thermal_ageing.md R390; log entry 21)
  else if o = Reg.PWR_SDOM 0 then 0xFFFFFFE3
  else if o = Reg.PWR_SDOM 1 then 0xFFFFFFFF
  else if o = Reg.PWR_SDOM 2 then 1
  else if Reg.ENG_ROLE 0 ≤ o ∧ o < Reg.ENG_ROLE 36 then
    let e := (o - Reg.ENG_ROLE 0) / 4
    if e < 32 then 16 * 256 else 1
  else if Reg.ENGMAP_BLK 0 ≤ o ∧ o < Reg.ENGMAP_BLK 512 then (o - Reg.ENGMAP_BLK 0) / 4 / 16
  else if o = Reg.RED_CFG then (if x = .a then 0 else 10 * 65536)
  else if Reg.ETH_QCFG 0 0 ≤ o ∧ o < Reg.ETH_QCFG 0 8 then (o - Reg.ETH_QCFG 0 0) / 4 * 536870912
  else if Reg.ETH_QCFG 1 0 ≤ o ∧ o < Reg.ETH_QCFG 1 8 then (o - Reg.ETH_QCFG 1 0) / 4 * 536870912
  else if Reg.ALV_SRC 0 ≤ o ∧ o < Reg.ALV_SRC 160 then ((severity ((o - Reg.ALV_SRC 0) / 4)).getD 0) * 16
  else 0

/-- The value of a register after a cold reset (R7). -/
def coldWord (x : Str) (o : Nat) : Word :=
  BitVec.ofNat 32 ((regFields o).foldl (fun v f => v + f.cold * 2 ^ f.lo) 0 + coldExtra x o)

/-- A core after a reset: core 0 runs at 0x7F00_0000 at monitor level, cores 1 to 3 wait for GO at 0x7F00_0100 (R40). -/
def coldCore (i : Nat) : CoreSt where
  g := []
  pc := if i = 0 then 0x7F000000 else 0x7F000100
  status := 4
  phrase := 0
  phseqL := 0
  phseqH := 0
  epcFw := 0
  causeFw := 0
  badFw := 0
  tvecFw := 0
  scrFw := 0
  imask := 0
  epcSm := 0
  causeSm := 0
  badSm := 0
  tvecSm := 0x7F000040
  scrSm := 0
  run := if i = 0 then .running else .notReleased
  wait := .idle
  dbgHalt := false
  ended := false
  text := []

/-- Status codes of device operations and services (R56). -/
abbrev sOK : Nat := 0x00
abbrev sORPHAN : Nat := 0x01
abbrev sBUSY : Nat := 0x10
abbrev sFULL : Nat := 0x11
abbrev sEMPTY : Nat := 0x12
abbrev sNOTOPEN : Nat := 0x13
abbrev sBADVAL : Nat := 0x14
abbrev sBADTIME : Nat := 0x15
abbrev sLATE : Nat := 0x16
abbrev sBUDGET : Nat := 0x17
abbrev sCHAIN : Nat := 0x18
abbrev sSTAGEFAIL : Nat := 0x19
abbrev sTEMPBLOCK : Nat := 0x1A
abbrev sGATED : Nat := 0x1B
abbrev sTIMEOUT : Nat := 0x1C

namespace CoreSt

/-- A general register; g0 reads as zero (R39). -/
def reg (c : CoreSt) (r : Nat) : Nat := if r = 0 then 0 else (Tab.get (fun _ => (0 : Word)) c.g r).toNat

/-- Writes a general register; a write to g0 is discarded (R39). -/
def setReg (c : CoreSt) (r v : Nat) : CoreSt :=
  if r = 0 then c else { c with g := Tab.set (fun _ => (0 : Word)) c.g r (BitVec.ofNat 32 v) }

/-- STATUS.PL: 0 secure monitor, 1 firmware, 2 phrase (R43). -/
def pl (c : CoreSt) : Nat := bits c.status.toNat 0 2

/-- STATUS.S (R43). -/
def sec (c : CoreSt) : Bool := bit c.status.toNat 2

def tf (c : CoreSt) : Bool := bit c.status.toNat 4

/-- PHRASE.ACTIVE, which is STATUS.PCX (R57, R69): 1 while the core runs a phrase, and a handler entered from it. -/
def pcx (c : CoreSt) : Bool := bit c.phrase.toNat 31

/-- The core holds a phrase that is not retired. -/
def busy (c : CoreSt) : Bool := c.pcx && !c.ended

def ring (c : CoreSt) : Nat := bits c.phrase.toNat 0 4

/-- PHSEQ: the sequence number of its phrase (R85). -/
def gseq (c : CoreSt) : Nat := c.phseqL.toNat + 4294967296 * c.phseqH.toNat

end CoreSt

/-- Role codes (12_redundancy.md R285). -/
abbrev rBOOT : Nat := 0
abbrev rIDLE : Nat := 1
abbrev rJOINING : Nat := 2
abbrev rSTANDBY : Nat := 3
abbrev rACTIVE : Nat := 4
abbrev rHANDOVER : Nat := 5
abbrev rFAILED : Nat := 6

/-- An address range is one of the reserved ranges of SRAM, or runs past its end (R34). -/
def sramReserved (a n : Nat) : Bool :=
  decide (0x02000000 < a + n) || (decide (a < 0x00800000) && decide (0x00710000 < a + n)) ||
    (decide (a < 0x00F00000) && decide (0x00EFD000 < a + n))

namespace StringSt

/-- The word stored for the register at BAR0 offset `o`. -/
def rd (s : StringSt) (o : Nat) : Nat := (Tab.get (coldWord s.id) s.regs o).toNat

def wr (s : StringSt) (o v : Nat) : StringSt := { s with regs := Tab.set (coldWord s.id) s.regs o (BitVec.ofNat 32 v) }

def fld (s : StringSt) (o : Nat) (f : Fld) : Nat := bits (s.rd o) f.lo f.w

def setFld (s : StringSt) (o : Nat) (f : Fld) (v : Nat) : StringSt := s.wr o (putBits (s.rd o) f.lo f.w v)

/-- A one-bit field. -/
def flag (s : StringSt) (o : Nat) (f : Fld) : Bool := s.fld o f == 1

def addSat (s : StringSt) (o : Nat) (f : Fld) (k : Nat) : StringSt := s.setFld o f (satAdd (2 ^ f.w - 1) (s.fld o f) k)

def addMod (s : StringSt) (o : Nat) (f : Fld) (k : Nat) : StringSt := s.setFld o f (s.fld o f + k)

def orReg (s : StringSt) (o v : Nat) : StringSt := s.wr o (s.rd o ||| v)

def core (s : StringSt) (i : Nat) : CoreSt := Tab.get coldCore s.cores i

def setCore (s : StringSt) (i : Nat) (c : CoreSt) : StringSt := { s with cores := Tab.set coldCore s.cores i c }

def updCore (s : StringSt) (i : Nat) (f : CoreSt → CoreSt) : StringSt := s.setCore i (f (s.core i))

/-- RED_CAPOSTAT.ROLE (R285). -/
def role (s : StringSt) : Nat := s.fld Reg.RED_CAPOSTAT F.RED_CAPOSTAT.ROLE

/-- It claims and serves phrases, and its line is its own: ACTIVE or HANDOVER (R285). -/
def holds (s : StringSt) : Bool := s.role = rACTIVE || s.role = rHANDOVER

/-- The line of the string as it is seen through a 200 ns deglitch (R284, R287). -/
def lineSeen (s : StringSt) : Bool :=
  if s.red.lineAt ≠ 0 ∧ s.time < s.red.lineAt + 200 * nsT then !s.red.line else s.red.line

/-- A standby is joined to it (R293). -/
def joined (s : StringSt) : Bool := s.flag Reg.RED_CAPOSTAT F.RED_CAPOSTAT.PJOINED

/-- Power domain `i` of the string is on (R36). -/
def domOn (s : StringSt) (i : Nat) : Bool := bit (s.rd (Reg.PWR_SDOM (i / 32))) (i % 32)

/-- A health flag is raised: by its bit in RED_HEALTH, or 16 + n for the link of tile n (R298). -/
def markFlag (s : StringSt) (i : Nat) : StringSt :=
  { s with red := { s.red with flagAt := Tab.set (fun _ => none) s.red.flagAt i (some s.time) } }

/-- Every bank that a range of SRAM touches is on (R35, R37). -/
def banksOn (s : StringSt) (a n : Nat) : Bool :=
  (upFrom (a / 0x200000) ((a + n - 1) / 0x200000 + 1 - a / 0x200000)).all fun b => s.domOn (41 + b)

/-- An access to a range of SRAM meets no bus error (R34, R37). -/
def ramOk (s : StringSt) (a n : Nat) : Bool := !sramReserved a n && s.banksOn a n

def word (s : StringSt) (a : Nat) : Nat := s.sram.word a

def setWord (s : StringSt) (a v : Nat) : StringSt := { s with sram := s.sram.setWord a v }

def words (s : StringSt) (a n : Nat) : List Nat := s.sram.words a n

def setWords (s : StringSt) (a : Nat) (l : List Nat) : StringSt := { s with sram := s.sram.writeWords a l }

def bytes (s : StringSt) (a n : Nat) : List Byte := s.sram.bytes a n

def setBytes (s : StringSt) (a : Nat) (l : List Byte) : StringSt := { s with sram := s.sram.writeBytes a l }

/-- The instruction fetch of core `i` sees every store up to now (R76). -/
def refetch (s : StringSt) (i : Nat) : StringSt := s.updCore i fun k => { k with text := s.sram }

/-- The words of a commit, or of a CALLOAD image, enter the calibration record in the order of R267, with the effect frame `t`. -/
def calInto (c : StringSt) (t : Nat) (words : List (Nat × Nat)) : StringSt :=
  let q := (c.rd Reg.CAL_CSEQ + 1) % 4294967296
  let c := words.foldl (fun c w => c.setWord w.1 w.2) (c.setWord 0x00ED8008 q)
  ((c.setWord 0x00ED8030 (nsOf t)).setWord 0x00ED8034 (secOf t % 4294967296)).setWord 0x00ED800C q

/-- The word at `a` of the calibration record as the phrase of sequence number `g` sees it: a commit whose place in the command order comes
before the phrase is in it, though its effect frame has not come (R267; log entry 100). -/
def calSeen (c : StringSt) (g a : Nat) : Nat :=
  match c.cal.commit with
  | some m => if m.gseq ≤ g then (c.calInto m.frame m.words).word a else c.word a
  | none => c.word a

/-- The SRAM with a range zeroed. -/
def zero (s : StringSt) (a n : Nat) : StringSt :=
  { s with sram := s.sram.filter fun e => decide (e.1 < a) || decide (a + n ≤ e.1) }

/-- A word of the peg store by its address (R65). -/
def peg (s : StringSt) (a : Nat) : Nat := (Tab.get (fun _ => (0 : Word)) s.pegs a).toNat

/-- The bridge link is up. -/
def brgUp (s : StringSt) : Bool := s.flag Reg.BRG_STAT F.BRG_STAT.UP

/-- A message goes to the partner over the bridge link; while the link is down it is lost (R303). -/
def send (s : StringSt) (m : BMsg) : StringSt := if s.brgUp then { s with outbox := s.outbox ++ [m] } else s

/-- A message goes to tile `n`. -/
def sendTile (s : StringSt) (n : Nat) (m : TMsg) : StringSt := { s with toTile := s.toTile ++ [(n, m)] }

/-- A free value within a bound, and the state with it drawn (log entry 2). -/
def draw (s : StringSt) (bound : Nat) : Nat × StringSt :=
  ((Config.freeValue s.id.idx s.free).toNat % bound, { s with free := s.free + 1 })

/-- The phrase in flight on ring `r` (R78). -/
def flight (s : StringSt) (r : Nat) : Option Flight := Tab.get (fun _ => none) s.ring.flights r

def setFlight (s : StringSt) (r : Nat) (f : Option Flight) : StringSt :=
  { s with ring := { s.ring with flights := Tab.set (fun _ => none) s.ring.flights r f } }

def updFlight (s : StringSt) (r : Nat) (f : Flight → Flight) : StringSt :=
  match s.flight r with
  | some p => s.setFlight r (some (f p))
  | none => s

/-- The offset of an instruction at `pc` from the header of the phrase in its slot (R88, FPC). -/
def phraseOff (ring slot pc : Nat) : Nat := (pc + 4294967296 - (0x00400000 + ring * 0x10000 + slot * 0x100)) % 4294967296

/-- One instruction of core `i` has completed: at phrase level it counts toward the budget (R81). -/
def countInsn (s : StringSt) (i : Nat) : StringSt :=
  let c := s.core i
  if c.pl = 2 then
    s.updFlight c.ring fun f => { f with count := f.count + 1, fpc := phraseOff c.ring f.slot c.pc.toNat }
  else s

/-- Core `i` completes the instruction at its PC: the PC advances by 4. -/
def stepCore (s : StringSt) (i : Nat) : StringSt :=
  (s.countInsn i).updCore i fun c => { c with pc := c.pc + 4, run := .running, wait := .idle }

/-- A device operation of core `i` completes with a value or a status in gd (R55). -/
def finish (s : StringSt) (i gd v : Nat) : StringSt := (s.stepCore i).updCore i fun c => c.setReg gd v

/-- Core `i` runs a phrase that the partner runs in sympathy (R58). -/
def leads (s : StringSt) (i : Nat) : Bool := s.holds && s.joined && (s.core i).pl = 2

/-- Core `i` runs a phrase as the standby (R58). -/
def follows (s : StringSt) (i : Nat) : Bool := s.role = rSTANDBY && (s.core i).pl = 2

/-- The active string's outcome goes to the standby (R58). -/
def sendOutcome (s : StringSt) (i : Nat) (o : Outc) : StringSt :=
  if s.leads i then s.send (.outcome (s.core i).gseq o) else s

/-- A device operation with an outcome of R58 completes on the active string. -/
def finishOut (s : StringSt) (i gd v : Nat) : StringSt :=
  (s.sendOutcome i ⟨v, 0, 0, false⟩).finish i gd v

/-- Core `i` waits. -/
def hold (s : StringSt) (i : Nat) (w : Wait) : StringSt := s.updCore i fun c => { c with run := .waiting, wait := w }

/-- An effect of the phrase that core `i` runs is bound to the phrase's effect frame (R87). Once the phrase is retired its frame is fixed, and a
handler binds nothing more (log entry 99). -/
def bindEff (s : StringSt) (i : Nat) (e : Effect) : StringSt :=
  if (s.core i).ended then s
  else s.updFlight (s.core i).ring fun f => { f with effects := f.effects ++ [e], bound := true }

end StringSt

/-- The jobs of every block begin anew after the present boundary. -/
def StringSt.freshJobs (s : StringSt) : StringSt :=
  { s with eng := { s.eng with done := [], wait := [], part := [], behind := [], xt := [], base := frameOf s.time } }

namespace State

def str (s : State) : Str → StringSt
  | .a => s.a
  | .b => s.b

def setStr (s : State) (x : Str) (c : StringSt) : State :=
  match x with
  | .a => { s with a := c }
  | .b => { s with b := c }

def updStr (s : State) (x : Str) (f : StringSt → StringSt) : State := s.setStr x (f (s.str x))

/-- Both strings. -/
def updBoth (s : State) (f : StringSt → StringSt) : State := { s with a := f s.a, b := f s.b }

end State

/-- What a stretch of true time adds to a clock that runs at rate `r`, in 2^-8 ppb (14_time.md R329). -/
def elapsed (d : Nat) (r : Int) : Nat := ((d : Int) + (d : Int) * r / 256000000000).toNat

/-- The rate R of a string's time unit (R329). -/
def StringSt.rate (s : StringSt) : Int := sx 32 (s.rd Reg.TIME_RATE)

/-- Tile `n` after a cold reset: tile hold, free-running, every channel cold (R29, R431; log entry 8). -/
def TileSt.cold (n : Nat) : TileSt where
  regs := []
  chans := []
  mons := []
  thmSticky := 0
  bufs := []
  time := 0
  freeRun := true
  timeAt := 0
  stepAt := none
  rate := 0
  capoA := false
  capoB := false
  master := none
  slave := none
  slaveAt := 0
  hold := true
  missRun := 0
  missed := 0
  codesA := []
  codesB := []
  cmpFrom := none
  cmpOff := none
  mmLast := []
  adopted := []
  mirror := []
  mirrored := false
  restart := 0
  restart0 := 0
  restart1 := 0
  nul := (0, 0, 0)
  nulOn := false
  settle0 := 0
  settle1 := 0
  trig := []
  calRes := false
  sent := false
  vis := []
  power := 127
  pwrHold := false
  throttle := 16
  applied := []
  tres := 0
  tmask := 0
  toA := []
  toB := []
  free := n

namespace State

def tile (s : State) (n : Nat) : TileSt := Tab.get TileSt.cold s.tiles n

def setTile (s : State) (n : Nat) (d : TileSt) : State := { s with tiles := Tab.set TileSt.cold s.tiles n d }

def updTile (s : State) (n : Nat) (f : TileSt → TileSt) : State := s.setTile n (f (s.tile n))

/-- Repeats a change over the eight tiles. -/
def eachTile (s : State) (f : Nat → State → State) : State := forEach (List.range 8) f s

/-- The lines as they stand: bit 0 CAPO_A, bit 1 CAPO_B (R283). -/
def lines (s : State) : Nat := b2n s.a.red.line + 2 * b2n s.b.red.line

/-- The string that holds the capo line alone (R25, R283). -/
def capo (s : State) : Option Str :=
  if s.a.red.line && !s.b.red.line then some .a else if s.b.red.line && !s.a.red.line then some .b else none

end State

end Sys2Proof.Machine
end

