-- ==== Sys2Proof/Machine/Events.lean ====
section
/-! DEFINITION. The event fabric of a string (15_events_mailboxes.md R342 to R351), with the two pins that its consumers act
on: re-arming a TOUT pin (14_time.md R337) and a capture on a TCAP pin (R338). -/

namespace Sys2Proof.Machine

def Tout.off : Tout := ⟨0, 0, 0, 0, none, none⟩
def Tcap.off : Tcap := ⟨0, false, false⟩

namespace StringSt

/-! ## TOUT and TCAP -/

def tout (s : StringSt) (i : Nat) : Tout := Tab.get (fun _ => Tout.off) s.tim.touts i

def setTout (s : StringSt) (i : Nat) (p : Tout) : StringSt :=
  { s with tim := { s.tim with touts := Tab.set (fun _ => Tout.off) s.tim.touts i p } }

def tcap (s : StringSt) (j : Nat) : Tcap := Tab.get (fun _ => Tcap.off) s.tim.tcaps j

def setTcap (s : StringSt) (j : Nat) (p : Tcap) : StringSt :=
  { s with tim := { s.tim with tcaps := Tab.set (fun _ => Tcap.off) s.tim.tcaps j p } }

/-- START of TOUT `i` from its registers (R337); seconds [47:32] are those of the time unit at the store. -/
def toutStart (s : StringSt) (i : Nat) : Nat :=
  instant (secOf s.time / 4294967296 * 4294967296 + s.rd (Reg.TIME_TOUTSL i)) (s.rd (Reg.TIME_TOUTNS i)) 0

/-- The first instant START + k x PERIOD at or after `lo`, for any integer k (R337). -/
def toutNext (start period lo : Nat) : Nat := lo + (((start : Int) - (lo : Int)) % (period : Int)).toNat

/-- A store of `v` to TIME_TOUTCFG[i]: it arms, disarms or is refused (R337). MODE 3 acts as 0. -/
def toutStore (s : StringSt) (i v : Nat) : StringSt :=
  let o := Reg.TIME_TOUTCFG i
  let mode := bits v 0 2
  let width := bits v 4 24
  let period := s.rd (Reg.TIME_TOUTPER i)
  let late := (s.flag o F.TIME_TOUTCFG.LATE) && !bit v 28
  let s1 := (((s.setFld o F.TIME_TOUTCFG.POL (bits v 2 1)).setFld o F.TIME_TOUTCFG.WIDTH width).setFld o F.TIME_TOUTCFG.LATE
    (b2n late))
  let p := s.tout i
  if mode = 0 ∨ mode = 3 then (s1.setFld o F.TIME_TOUTCFG.MODE mode).setTout i { p with mode := 0, next := none }
  else if width = 0 ∨ (mode = 2 ∧ (period < 100 ∨ period ≤ width * 10)) then s1.setFld o F.TIME_TOUTCFG.LATE 1
  else
    let start := s.toutStart i
    let s2 := s1.setFld o F.TIME_TOUTCFG.MODE mode
    let lo := s.time + usT
    if mode = 1 then
      if lo ≤ start then
        s2.setTout i { p with mode := 1, start := start, period := period * nsT, width := width * 10 * nsT, next := some start }
      else
        (s2.setFld o F.TIME_TOUTCFG.LATE 1).setTout i
          { p with mode := 1, start := start, period := period * nsT, width := width * 10 * nsT, next := none }
    else
      s2.setTout i { p with
        mode := 2
        start := start
        period := period * nsT
        width := width * 10 * nsT
        next := some (toutNext start (period * nsT) lo) }

/-- A capture on TCAP `j`: the reading less 4 ns of input delay, its count, and OVR where it replaces an unread one (R338). -/
def tcapCapture (s : StringSt) (j : Nat) : StringSt :=
  let c := s.tcap j
  let at_ := s.time - 4 * nsT
  let s1 := s.addMod (Reg.TIME_TCAPCFG j) F.TIME_TCAPCFG.CNT 1
  let s2 := if c.unread then s1.setFld (Reg.TIME_TCAPCFG j) F.TIME_TCAPCFG.OVR 1 else s1
  let s3 := s2.setTcap j { c with at_ := at_, unread := true }
  if c.latched then s3
  else (s3.wr (Reg.TIME_TCAPSL j) (secOf at_ % 4294967296)).wr (Reg.TIME_TCAPFNS j) (fracOf at_)

/-! ## Channels and consumers -/

/-- Group of channel `c` is enabled (R346). -/
def grpOn (s : StringSt) (c : Nat) : Bool := bit (s.rd Reg.EVF_GRP) (c / 8)

/-- Bit `k` of a register array of 32-bit words is set. -/
def orBit (s : StringSt) (base : Nat → Nat) (k : Nat) : StringSt :=
  s.wr (base (k / 32)) (putBit (s.rd (base (k / 32))) (k % 32) true)

/-- The domain a consumer acts in, where it is not the always-on one (R351). -/
def consumerDom (k : Nat) : Option Nat :=
  if 80 ≤ k ∧ k < 84 then some (1 + (k - 80)) else if 85 ≤ k ∧ k < 91 then some 60 else none

/-- The latch of consumer `k` is full; that of consumer 84 until the end of its pulse (R344). -/
def latchFull (s : StringSt) (k : Nat) : Bool :=
  s.evf.full.contains k && !(decide (k = 84) && (match s.evf.outEnd with | some e => decide (e ≤ s.time) | none => false))

def setLatch (s : StringSt) (k : Nat) (on : Bool) : StringSt :=
  { s with evf := { s.evf with full := if on then setIns s.evf.full k else setDel s.evf.full k } }

/-- Consumer `k`, its latch full, acts (R344). What it fires goes on in the answer: a producer with the relays passed through. A
capture's latch empties at the end of the whole activation (log entry 13). -/
def consumerAct (s : StringSt) (k : Nat) (via : List Nat) : StringSt × List (Nat × List Nat) :=
  if k < 64 then (s, [(192 + k, setIns via k)])
  else if k < 72 then ((s.wr Reg.EVF_GRP (putBit (s.rd Reg.EVF_GRP) (k - 64) true)).setLatch k false, [])
  else if k < 80 then ((s.wr Reg.EVF_GRP (putBit (s.rd Reg.EVF_GRP) (k - 72) false)).setLatch k false, [])
  else if k < 84 then (s.wr Reg.EVF_CSTAT (putBit (s.rd Reg.EVF_CSTAT) (k - 80) true), [])
  else if k = 84 then
    let w := s.fld Reg.EVF_CFG F.EVF_CFG.OUTW
    ({ s with evf := { s.evf with outEnd := some (s.time + max 1 w * 10 * nsT) } }, [])
  else if k < 89 then ((s.toutStore (k - 85) (s.rd (Reg.TIME_TOUTCFG (k - 85)))).setLatch k false, [])
  else if k < 91 then (s.tcapCapture (k - 89), [(68 + (k - 89), via)])
  else if k = 91 then
    -- a request stands only in DORMANT, where its source is enabled; any other is taken at once, and asks for nothing (R389; log entry 109)
    if s.fld Reg.PWR_STAT F.PWR_STAT.STATE = 2 ∧ bit (s.fld Reg.PWR_CFG F.PWR_CFG.WAKEEN) 0 then
      ({ s with evf := { s.evf with wakeReq := true } }, [])
    else (s.setLatch k false, [])
  else (s, [])

/-- An activation reaches consumer `k` through the channels `cs`: accepted into an empty latch, or refused (R349); `coinc`: of two events
within one grant (R350). -/
def consume (s : StringSt) (k : Nat) (cs : List Nat) (coinc : Bool) (via : List Nat) : StringSt × List (Nat × List Nat) :=
  let s := if coinc then s.orBit Reg.EVF_KCOINC k else s
  if s.latchFull k then
    let s := (s.orBit Reg.EVF_KOVR k).addSat Reg.EVF_CNT F.EVF_CNT.DROP 1
    if k < 64 && via.contains k then
      (cs.foldl (fun s c => s.setFld (Reg.EVF_CH c) F.EVF_CH.LOOPBACK 1) s, [])
    else (s, [])
  else
    let s := s.setLatch k true
    match consumerDom k with
    | some d =>
      if s.domOn d then s.consumerAct k via
      else ({ s with evf := { s.evf with deferred := setIns s.evf.deferred k } }, [])
    | none => s.consumerAct k via

/-- Channel `c` joins consumer `k` (R342). -/
def joins (s : StringSt) (c k : Nat) : Bool := bit (s.rd (Reg.EVF_C2K c (k / 32))) (k % 32)

/-- A core that waits in EVWAIT for a channel that is seen completes it, clearing SEEN where it asked to (R63). -/
def wakeWaiter (s : StringSt) (i : Nat) : StringSt :=
  match (s.core i).wait with
  | .event gd ch clear _ =>
    if s.flag (Reg.EVF_CH ch) F.EVF_CH.SEEN then
      let s := s.finishOut i gd sOK
      if clear then s.setFld (Reg.EVF_CH ch) F.EVF_CH.SEEN 0 else s
    else s
  | _ => s

/-- The channels `cs`, all of enabled groups, are activated once each, those of `dup` by more than one event of the grant (R345, R350). -/
def activate (s : StringSt) (cs dup via : List Nat) : StringSt × List (Nat × List Nat) :=
  let s := cs.foldl (fun s c => (s.setFld (Reg.EVF_CH c) F.EVF_CH.SEEN 1).addSat (Reg.EVF_CH c) F.EVF_CH.COUNT 1) s
  let s := (List.range 4).foldl wakeWaiter s
  (List.range 92).foldl (fun (p : StringSt × List (Nat × List Nat)) k =>
    let reach := cs.filter fun c => s.joins c k
    if reach.isEmpty then p
    else
      let r := p.1.consume k reach (decide (2 ≤ reach.length) || reach.any dup.contains) via
      (r.1, p.2 ++ r.2)) (s, [])

/-- An event or a fire that its group drops (R346, R347). -/
def gate (s : StringSt) (c : Nat) : StringSt :=
  (s.addSat Reg.EVF_CNT F.EVF_CNT.GATED 1).setFld (Reg.EVF_CH c) F.EVF_CH.GATEDF 1

/-- The channels that producer `p` joins. -/
def rowOf (s : StringSt) (p : Nat) : List Nat := (List.range 64).filter fun c => bit (s.rd (Reg.EVF_P2C p (c / 32))) (c % 32)

/-- The producers `ps` fire within one grant (R345, R350): each event aimed at a disabled group is dropped; a channel is activated once. -/
def produce (s : StringSt) (ps via : List Nat) : StringSt × List (Nat × List Nat) :=
  let aims := ps.flatMap s.rowOf
  let s := (aims.filter fun c => !s.grpOn c).foldl gate s
  let cs := (List.range 64).filter fun c => aims.contains c && s.grpOn c
  s.activate cs (cs.filter fun c => decide (2 ≤ aims.count c)) via

/-- What an activation fires in turn, until nothing is left; every consumer acts at most once, so 80 turns are enough. -/
def settleEvents : Nat → StringSt × List (Nat × List Nat) → StringSt
  | 0, (s, _) => s
  | _ + 1, (s, []) => s
  | n + 1, (s, (p, via) :: q) =>
    let r := s.produce [p] via
    settleEvents n (r.1, q ++ r.2)

/-- The captures of an activation are written (R344, log entry 13). -/
def endCaptures (s : StringSt) : StringSt := (s.setLatch 89 false).setLatch 90 false

/-- The producers `ps` fire within one grant, and everything that follows (R343 to R350). Reserved producers never fire. -/
def fireAll (s : StringSt) (ps : List Nat) : StringSt :=
  match ps.filter fun p => decide (p < 169 ∨ 192 ≤ p) with
  | [] => s
  | ps => (settleEvents 80 (s.produce ps [])).endCaptures

/-- Producer `p` fires, and everything that follows from it. -/
def fire (s : StringSt) (p : Nat) : StringSt := s.fireAll [p]

/-- A software fire of channel `c`: gated, or an activation; and whether it was delivered (R347). -/
def softFire (s : StringSt) (c : Nat) : StringSt × Bool :=
  if s.grpOn c then ((settleEvents 80 (s.activate [c] [] [])).endCaptures, true) else (s.gate c, false)

/-- Clearing LINE bit `i` empties the latch of consumer 80 + i (R344). -/
def clearLine (s : StringSt) (i : Nat) : StringSt :=
  (s.wr Reg.EVF_CSTAT (putBit (s.rd Reg.EVF_CSTAT) i false)).setLatch (80 + i) false

/-! ## Leaving the service (12_redundancy.md R283, R285, R292) -/

/-- Samples not yet committed are dropped and counted (11_calibration.md R266, R279, R280); those of a commit that is placed, where it is
`lost`. -/
def dropOpen (s : StringSt) (lost : Bool) : StringSt :=
  let shut := match s.cal.shut with | some k => k.n | none => 0
  let placed := match s.cal.commit with | some m => if lost then m.n else 0 | none => 0
  let s := s.addSat Reg.CAL_DROP F.CAL_DROP.LO (s.cal.nOpen + shut + placed)
  { s with cal := { s.cal with work := [], nOpen := 0, lags := [], firsts := [], shut := none, commit := none } }

def setRole (c : StringSt) (r : Nat) : StringSt := c.setFld Reg.RED_CAPOSTAT F.RED_CAPOSTAT.ROLE r

/-- The line is driven, or released. -/
def setLine (c : StringSt) (on : Bool) : StringSt :=
  { c with red := { c.red with line := on, lineAt := if c.red.line = on then c.red.lineAt else c.time } }

/-- A phrase that a core gives up without its end: the core is back at firmware, by a trap entry that leaves CAUSE_FW and BAD_FW as they are
(log entry 17). -/
def abandonCore (c : StringSt) (i : Nat) : StringSt :=
  c.updCore i fun k =>
    if k.pcx then
      let k := { k with phrase := BitVec.ofNat 32 (k.phrase.toNat % 2147483648), ended := false }
      if k.pl = 2 then
        { k with
          run := .running
          wait := .idle
          epcFw := k.pc
          pc := k.tvecFw
          status := BitVec.ofNat 32 (putBit (putBit (putBits (putBits (putBit k.status.toNat 2 false) 0 2 1) 6 2 2) 4 true) 3 false) }
      else { k with run := if k.run = .waiting then .running else k.run, wait := .idle }
    else k

/-- A string that no longer runs phrases (R285): those in flight are given up. -/
def endPhrases (c : StringSt) : StringSt :=
  let c := (List.range 4).foldl abandonCore c
  { c with
    ring := { c.ring with flights := [], kept := [], dbWait := [] }
    net := { c.net with acks := [] }
    plan := { c.plan with
      arming := c.plan.arming.map fun (g : Arming) => { g with core := none }
      withdrawing := c.plan.withdrawing.map fun (w : Withdrawal) => { w with core := none } } }

/-- IDLE is entered (R285, R283): the line is deasserted and no phrase runs. -/
def toIdle (c : StringSt) : StringSt :=
  let c := ((c.setLine false).endPhrases).dropOpen (!c.joined)
  ({ c with red := { c.red with
    idleSince := c.time
    xfer := none
    takeReq := false
    forceOut := none
    blamedAt := none
    verdict := false
    joinHeld := false
    owed := none
    reports := []
    cut := [] } }).setRole rIDLE

/-- String A, ACTIVE without a joined standby when CAPO_FORCE_N fell, deasserts its line in its next take window, which opens at the
instant kept, and enters IDLE (R292). -/
def leaveForced (c : StringSt) : StringSt :=
  match c.red.forceOut with
  | some w =>
    if c.time < w then c
    else
      let c := { c with red := { c.red with forceOut := none } }
      if c.role = rACTIVE ∧ !c.joined then
        let c := c.toIdle
        { c with red := { c.red with lineAt := w, idleSince := w } }
      else c
  | none => c

/-! ## The passing of time -/

/-- A period of 12.5 kHz (00_scope.md R23). -/
abbrev slowT : Nat := 8 * frameT

/-- A string whose time unit has passed 12.5 kHz frame boundaries since `old` fires producer 71 for each, where the producer has a
channel (R343, R345). -/
def slowFrames (c : StringSt) (old : Nat) : StringSt :=
  if c.domOn 60 && (decide (c.rd (Reg.EVF_P2C 71 0) ≠ 0) || decide (c.rd (Reg.EVF_P2C 71 1) ≠ 0)) then
    (List.range (c.time / slowT - old / slowT)).foldl (fun c _ => c.fire 71) c
  else c

/-- The time of a string over `d` of true time, at its own rate (R22, R329; log entry 12), with what falls in it. -/
def runTime (c : StringSt) (d : Nat) : StringSt :=
  ({ c with time := c.time + elapsed d c.rate }.leaveForced).slowFrames c.time

end StringSt

/-- The copy of network time in a tile over `d` of true time; a tile that is slaved runs with the string it follows (R336). -/
def TileSt.runTime (e : TileSt) (d : Nat) : TileSt := { e with time := e.time + elapsed d e.rate }

/-- True time moves on to the instant `t`; every clock of the module runs at its own rate (R22, R329; log entry 12). -/
def State.advance (s : State) (t : Nat) : State :=
  if t ≤ s.now then s else
  let d := t - s.now
  ({ s with now := t }.updBoth fun c => c.runTime d).eachTile fun n w => w.updTile n fun e => e.runTime d

end Sys2Proof.Machine
end

