-- ==== Sys2Proof/Machine/Mailbox.lean ====
section
/-! DEFINITION. The sixteen mailboxes of a string (15_events_mailboxes.md R354 to R361): a post, a take, an endpoint reset. -/

namespace Sys2Proof.Machine
namespace StringSt

def mbxRcv (s : StringSt) (k : Nat) : Nat := s.fld (Reg.MBX_CFG k) F.MBX_CFG.RCV

def mbxFull (s : StringSt) (k : Nat) : Bool := s.flag (Reg.MBX_STAT k) F.MBX_STAT.FULL

def mbxSrc (s : StringSt) (k : Nat) : Nat := s.fld (Reg.MBX_STAT k) F.MBX_STAT.SRC

def mbxK4 (s : StringSt) (k : Nat) : Bool := s.flag (Reg.MBX_CFG k) F.MBX_CFG.K4

/-- The power domain of mailbox `k`, its receiver's (R360). -/
def mbxDom (s : StringSt) (k : Nat) : Nat := if s.mbxRcv k = 4 then 59 else 1 + s.mbxRcv k

def setFull (s : StringSt) (k : Nat) (on : Bool) : StringSt :=
  (s.setFld (Reg.MBX_STAT k) F.MBX_STAT.FULL (b2n on)).setFld (Reg.MBX_STAT k) F.MBX_STAT.EMPTY (b2n !on)

/-- Bit `b` of the pending header, and its flag in the status, are set. -/
def markMsg (s : StringSt) (k : Nat) (f : Fld) (b : Nat) : StringSt :=
  (s.setFld (Reg.MBX_STAT k) f 1).wr (Reg.MBX_DATA k 0) (putBit (s.rd (Reg.MBX_DATA k 0)) b true)

/-- MBX_DATA[k] reads 0. -/
def clearData (s : StringSt) (k : Nat) : StringSt := (List.range 16).foldl (fun s w => s.wr (Reg.MBX_DATA k w) 0) s

/-- Endpoint `src` posts a header word and payload words to the empty mailbox `k` (R355, R356, R359). -/
def mbxPost (s : StringSt) (k src h : Nat) (payload : List Nat) : StringSt :=
  let seq := (s.fld (Reg.MBX_STAT k) F.MBX_STAT.LASTSEQ + 1) % 256
  let hdr := bits h 0 5 + 256 * bits h 8 8 + 65536 * seq + 16777216 * src
  let s := s.clearData k
  let s := (hdr :: payload).zipIdx.foldl (fun s e => s.wr (Reg.MBX_DATA k e.2) e.1) s
  let s := s.setFull k true
  let s := s.setFld (Reg.MBX_STAT k) F.MBX_STAT.LASTSEQ seq
  let s := s.setFld (Reg.MBX_STAT k) F.MBX_STAT.SRC src
  let s := s.setFld (Reg.MBX_STAT k) F.MBX_STAT.ORPHAN 0
  let y := s.mbxRcv k
  let crossed := (List.range 16).filter fun j =>
    decide (j ≠ k) && s.mbxFull j && decide (s.mbxSrc j = y) && decide (s.mbxRcv j = src)
  let s := if crossed.isEmpty then s
    else (k :: crossed).foldl (fun s j => s.markMsg j F.MBX_STAT.CROSSED 28) s
  s.fire (80 + k)

/-- The pending message of a full mailbox is taken (R357). -/
def mbxTake (s : StringSt) (k : Nat) : StringSt :=
  let s := (s.setFull k false).setFld (Reg.MBX_STAT k) F.MBX_STAT.ORPHAN 0
  let s := if s.mbxK4 k then s else (s.clearData k).setFld (Reg.MBX_STAT k) F.MBX_STAT.ACKP 1
  s.fire (96 + k)

/-- The words of the pending message: header and payload. -/
def mbxWords (s : StringSt) (k : Nat) : List Nat :=
  (List.range (bits (s.rd (Reg.MBX_DATA k 0)) 0 4 + 1)).map fun w => s.rd (Reg.MBX_DATA k w)

/-- The sender of the pending message was reset (R358). -/
def mbxOrphan (s : StringSt) (k : Nat) : Bool := s.flag (Reg.MBX_STAT k) F.MBX_STAT.ORPHAN

/-- The pending message of mailbox `k` is discarded (R358). -/
def mbxDiscard (s : StringSt) (k : Nat) : StringSt :=
  let o := Reg.MBX_STAT k
  let s := (s.setFull k false).clearData k
  let s := (s.setFld o F.MBX_STAT.RCVRST 1).setFld o F.MBX_STAT.LOSTSEQ (s.fld o F.MBX_STAT.LASTSEQ)
  let s := s.setFld o F.MBX_STAT.ORPHAN 0
  let s := if s.mbxK4 k then s else s.setFld o F.MBX_STAT.ACKP 1
  s.fire (96 + k)

/-- Endpoint `e` is reset (R358): each full mailbox whose receiver it is loses its message, else each whose sender it is is
orphaned. -/
def endpointReset (s : StringSt) (e : Nat) : StringSt :=
  (List.range 16).foldl (fun s k =>
    if s.mbxFull k then
      if s.mbxRcv k = e then s.mbxDiscard k
      else if s.mbxSrc k = e then s.markMsg k F.MBX_STAT.ORPHAN 27
      else s
    else s) s

/-- A host post (R356). -/
def hostPost (s : StringSt) (k : Nat) : StringSt :=
  let h := s.rd (Reg.MBX_HSTAGE 0)
  let len := bits h 0 5
  let done := fun (s : StringSt) (st : Nat) => s.wr Reg.MBX_HRES (st + 256 * k)
  if k < 4 ∨ 15 < len then done s sBADVAL
  else if !s.domOn (s.mbxDom k) then
    { done s sBUSY with evf := { s.evf with hostWake := s.evf.hostWake || decide (s.fld Reg.PWR_STAT F.PWR_STAT.STATE = 2) } }
  else if s.mbxFull k then done s sFULL
  else done (s.mbxPost k 4 h ((List.range len).map fun w => s.rd (Reg.MBX_HSTAGE (w + 1)))) sOK

/-- A host take (R356). -/
def hostTake (s : StringSt) (k : Nat) : StringSt :=
  let done := fun (s : StringSt) (st : Nat) => s.wr Reg.MBX_HRES (st + 256 * k + 4096)
  if k < 4 then done s sBADVAL
  else if !s.domOn (s.mbxDom k) then done s sBUSY
  else if !s.mbxFull k then done s sEMPTY
  else
    let st := if s.mbxOrphan k then sORPHAN else sOK
    done (s.mbxTake k) st

/-- A read of MBX_DATA[k][0] by endpoint `e` takes the message in K4 mode where `e` is the receiver (R357). -/
def k4Read (s : StringSt) (k e : Nat) : StringSt :=
  if s.mbxK4 k && s.mbxFull k && decide (s.mbxRcv k = e) then s.mbxTake k else s

end StringSt
end Sys2Proof.Machine
end

