-- ==== Sys2Proof/Machine/Faults.lean ====
section
/-! DEFINITION. The fault recorder of a string, the string reaction, the heartbeat and the ALIVE pin (16_faults.md R364 to R377). -/

namespace Sys2Proof.Machine
namespace StringSt

/-- The interval of R365, 1.024 ms. -/
abbrev recGap : Nat := sweepT

/-- A FATAL occurrence of a string source (R371, R283): the line falls, the role becomes FAILED, and the PTP ports go to
DISABLED (3). -/
def fatal (s : StringSt) : StringSt :=
  let s := (s.setLine false).dropOpen (!s.joined)
  let s := { s with
    red := { s.red with
      xfer := none
      takeReq := false
      forceOut := none }
    alv := { s.alv with fatal := true } }
  let s := s.setFld Reg.RED_CAPOSTAT F.RED_CAPOSTAT.ROLE rFAILED
  let s := s.setFld Reg.RED_CAPOSTAT F.RED_CAPOSTAT.PJOINED 0
  s.wr Reg.TIME_PTPSTAT (putBits (s.rd Reg.TIME_PTPSTAT) 0 8 0x33)

/-- One recording (R365, R372): the log entry, the sticky bit, the first-fault record, the producer. -/
def record (s : StringSt) (coinc : Bool) (e : Nat × Nat × Bool) : StringSt :=
  let src := e.1
  let sev := (severity src).getD 0
  let q := s.fld Reg.ALV_SUM F.ALV_SUM.LSEQ
  let on := s.domOn 60
  let ns := if on then nsOf s.time else 0
  let sl := if on then secOf s.time % 4294967296 else 0
  let a := 0x00F00000 + 16 * (q % 256)
  let w0 := src + 256 * sev + 1024 * b2n e.2.2 + 2048 * b2n coinc + 65536 * q
  let s := if 256 ≤ s.alv.total then s.addSat Reg.ALV_LOG F.ALV_LOG.WRAP 1 else s
  let s := s.setWords a [w0, e.2.1, ns, sl]
  let s := s.setFld Reg.ALV_SUM F.ALV_SUM.LSEQ (q + 1)
  let s := { s with alv := { s.alv with
    total := s.alv.total + 1
    real := if e.2.2 then s.alv.real else setIns s.alv.real src
    forced := if e.2.2 then setIns s.alv.forced src else s.alv.forced
    lastRec := Tab.set (fun _ => none) s.alv.lastRec src (some s.time) } }
  let s := s.setFld (Reg.ALV_SRC src) (if e.2.2 then F.ALV_SRC.FSTICKY else F.ALV_SRC.STICKY) 1
  let s := if s.flag Reg.ALV_FIRSTFAULT F.ALV_FIRSTFAULT.VALID then s
    else (((s.wr Reg.ALV_FIRSTFAULT (putBit w0 15 true)).wr Reg.ALV_FIRSTINFO e.2.1).wr Reg.ALV_FIRSTNS ns).wr Reg.ALV_FIRSTSL sl
  let s := s.fire (75 + sev)
  if sev = 3 ∧ src < 32 then s.fatal else s

/-- The order of a batch (R366): higher severity, then real before forced, then the lower source. -/
def batchLe (a b : Nat × Nat × Bool) : Bool :=
  let sa := (severity a.1).getD 0
  let sb := (severity b.1).getD 0
  if sa ≠ sb then decide (sb < sa)
  else if a.2.2 ≠ b.2.2 then !a.2.2
  else decide (a.1 ≤ b.1)

/-- An occurrence of its kind has been recorded since the latest reset or clear (R365). -/
def kindSeen (s : StringSt) (e : Nat × Nat × Bool) : Bool :=
  if e.2.2 then s.alv.forced.contains e.1 else s.alv.real.contains e.1

/-- The occurrences of a batch that are recorded (R365): `done` those chosen so far. -/
def choose (s : StringSt) : List (Nat × Nat × Bool) → List (Nat × Nat × Bool) → List (Nat × Nat × Bool)
  | done, [] => done
  | done, e :: l =>
    let kind := s.kindSeen e || done.any fun d => decide (d.1 = e.1) && (d.2.2 == e.2.2)
    let late := if done.any fun d => decide (d.1 = e.1) then false
      else match Tab.get (fun _ => (none : Option Nat)) s.alv.lastRec e.1 with
        | some t => decide (t + recGap ≤ s.time)
        | none => true
    s.choose (if kind && !late then done else done ++ [e]) l

/-- Occurrences within one grant: source, INFO and whether forced (R365, R366). Reserved sources never occur. -/
def occurs (s : StringSt) (l : List (Nat × Nat × Bool)) : StringSt :=
  let l := l.filter fun e => (severity e.1).isSome
  let s := l.foldl (fun s e => s.addSat (Reg.ALV_SRC e.1) F.ALV_SRC.COUNT 1) s
  let recs := s.choose [] (sortBy batchLe l)
  recs.foldl (fun s e => s.record (decide (2 ≤ recs.length)) e) s

/-- A real occurrence of one source. -/
def occur (s : StringSt) (src info : Nat) : StringSt := s.occurs [(src, info % 4294967296, false)]

/-- LIVE of a lasting source of the string's own blocks (R367). -/
def live (s : StringSt) (src : Nat) (on : Bool) : StringSt := s.setFld (Reg.ALV_SRC src) F.ALV_SRC.LIVE (b2n on)

/-- A real occurrence of a lasting source (R367): its condition holds from now on. -/
def occurLive (s : StringSt) (src info : Nat) : StringSt := (s.live src true).occur src info

/-- A store of 1 to FORCE of a source that is not reserved, with the real occurrences of the same grant (R366, R368, R369, R375). -/
def forceWith (s : StringSt) (src : Nat) (real : List (Nat × Nat × Bool)) : StringSt :=
  match severity src with
  | none => s.occurs real
  | some sev =>
    let s := s.setFld (Reg.ALV_SRC src) F.ALV_SRC.FORCE 1
    let s := if sev = 3 ∧ src < 32 then { s with alv := { s.alv with fatal := true } } else s
    s.occurs ((src, 0, true) :: real)

/-- A store of 1 to FORCE alone in its grant. -/
def force (s : StringSt) (src : Nat) : StringSt := s.forceWith src []

/-- The sticky bits of a source are cleared, and with them what R365 looks back to. -/
def clearSticky (s : StringSt) (src : Nat) (real forced : Bool) : StringSt :=
  let s := if real then (s.setFld (Reg.ALV_SRC src) F.ALV_SRC.STICKY 0) else s
  let s := if forced then (s.setFld (Reg.ALV_SRC src) F.ALV_SRC.FSTICKY 0) else s
  { s with alv := { s.alv with
    real := if real then setDel s.alv.real src else s.alv.real
    forced := if forced then setDel s.alv.forced src else s.alv.forced } }

/-- FLTCLR on one source (R370). -/
def clearSource (s : StringSt) (src : Nat) : StringSt :=
  if (severity src).isSome then s.clearSticky src true true else s

/-- The first-fault record is cleared (R370). -/
def clearFirst (s : StringSt) : StringSt :=
  (((s.wr Reg.ALV_FIRSTFAULT 0).wr Reg.ALV_FIRSTINFO 0).wr Reg.ALV_FIRSTNS 0).wr Reg.ALV_FIRSTSL 0

/-- A source counts as present: a sticky bit or FORCE is set (R368, R373). -/
def present (s : StringSt) (src : Nat) : Bool := decide (bits (s.rd (Reg.ALV_SRC src)) 1 3 ≠ 0) && (severity src).isSome

/-- A source has STICKY or FSTICKY set (ALV_PEND). -/
def pendSrc (s : StringSt) (src : Nat) : Bool := decide (bits (s.rd (Reg.ALV_SRC src)) 1 2 ≠ 0) && (severity src).isSome

/-! ## Heartbeat (R374, R375) -/

/-- The deadline of ALV_CFG.HBDL x 100 us. -/
def hbSpan (s : StringSt) : Nat := max 1 (s.fld Reg.ALV_CFG F.ALV_CFG.HBDL) * 100 * usT

/-- ALV_HBSTAT.LEFT: time to the deadline in 10 us. -/
def hbLeft (s : StringSt) : Nat :=
  match s.alv.deadline with
  | some d => if s.alv.missed || s.alv.suspended then 0 else min 4095 ((d - s.time) / (10 * usT))
  | none => 0

/-- A store to ALV_HBEAT (R374). -/
def heartbeat (s : StringSt) (v : Nat) : StringSt :=
  let s := s.wr Reg.ALV_HBEAT v
  if s.alv.missed then s
  else
    -- a heartbeat within 10 % of its deadline (R298, R305)
    let s := if s.alv.deadline.isSome && !s.alv.suspended && decide (s.hbLeft * 10 * (10 * usT) ≤ s.hbSpan) then s.markFlag 2 else s
    let low := match s.alv.deadline with
      | some _ => if s.alv.suspended then s.alv.minLeft
        else some (match s.alv.minLeft with | some m => min m s.hbLeft | none => s.hbLeft)
      | none => s.alv.minLeft
    { s with alv := { s.alv with deadline := some (s.time + s.hbSpan), suspended := false, minLeft := low } }

/-- ALIVE may toggle (R375). -/
def aliveOk (s : StringSt) : Bool :=
  (match s.alv.deadline with | some d => s.alv.suspended || decide (s.time < d) | none => false) && !s.alv.missed && !s.alv.fatal && decide (s.role ≠ rBOOT)

end StringSt
end Sys2Proof.Machine
end

