-- ==== Sys2Proof/Machine/TimeUnit.lean ====
section
/-! DEFINITION. The time unit of a string: samples and the servo, holdover, setting and reading the time, timestamps, the tile
copies and the time pins (14_time.md R327 to R341). -/

namespace Sys2Proof.Machine
namespace StringSt

/-- A set or a step of the time is allowed: BOOT, IDLE, JOINING, FAILED (R329). -/
def stepAllowed (s : StringSt) : Bool := s.role = rBOOT || s.role = rIDLE || s.role = rJOINING || s.role = rFAILED

def timeState (s : StringSt) : Nat := s.fld Reg.TIME_STAT F.TIME_STAT.STATE

/-- HOLDOVER is entered (R330): R = I, HOLDS, NOTE "time holdover", producer 130. -/
def enterHoldover (s : StringSt) : StringSt :=
  let s := (s.setFld Reg.TIME_STAT F.TIME_STAT.STATE 3).addSat Reg.TIME_STAT F.TIME_STAT.HOLDS 1
  let s := s.wr Reg.TIME_RATE (s.rd Reg.TIME_INT)
  let s := { s with tim := { s.tim with exitRun := 0, inRun := 0, outRun := 0 } }
  (s.occurLive 21 0).fire 130

/-- HOLDOVER from LOCKING and LOCKED (R330). -/
def toHoldover (s : StringSt) : StringSt := if s.timeState = 1 ∨ s.timeState = 2 then s.enterHoldover else s

/-- SLEWMAX in 2^-8 ppb (R329). -/
def slewLim (s : StringSt) : Int := ((max 1 (s.fld Reg.TIME_CFG F.TIME_CFG.SLEWMAX) * 2560000 : Nat) : Int)

/-- A value of the servo in its 32-bit register; outside its range the spec states none (log entry 2). -/
def servoWord (s : StringSt) (v : Int) : Nat × StringSt :=
  if satS 32 v = v then (wrap 32 v, s) else s.draw 4294967296

/-- Network time jumps to `t`. Instants that the string keeps to measure spans move with it; those that are themselves network times do not
(R329, R331; log entry 104). -/
def setClock (s : StringSt) (t : Nat) : StringSt :=
  let mv := fun (v : Nat) => v + t - s.time
  let mo := fun (v : Option Nat) => v.map mv
  let mt := fun (m : Tab (Option Nat)) => m.map fun e => (e.1, mo e.2)
  let mp := fun (p : PortUnit) => { p with
    capAt := mv p.capAt
    pol := p.pol.map fun e => (e.1, e.2.map fun q => (q.1, q.2.1, mv q.2.2))
    flying := p.flying.map fun q => (q.1, q.2.1, mv q.2.2) }
  { s with
    time := t
    cores := s.cores.map fun e => (e.1, match e.2.wait with
      | .event gd ch clear stop => { e.2 with wait := .event gd ch clear (mo stop) }
      | _ => e.2)
    evf := { s.evf with outEnd := mo s.evf.outEnd }
    alv := { s.alv with lastRec := mt s.alv.lastRec, deadline := mo s.alv.deadline, wdAt := mo s.alv.wdAt }
    eng := { s.eng with heard := s.eng.heard.map fun e => (e.1, mv e.2) }
    tim := { s.tim with
      lastSample := mv s.tim.lastSample
      touts := s.tim.touts.map fun e => (e.1, { e.2 with pulseEnd := mo e.2.pulseEnd }) }
    red := { s.red with
      lineAt := mv s.red.lineAt
      idleSince := mv s.red.idleSince
      capoAt := mv s.red.capoAt
      skipAt := mo s.red.skipAt
      verdAt := mo s.red.verdAt
      hbAt := mo s.red.hbAt
      prAt := mo s.red.prAt
      flagAt := mt s.red.flagAt }
    pwr := { s.pwr with
      highAt := mt s.pwr.highAt
      partR := s.pwr.partR.map fun q => (q.1, mv q.2)
      vinOut := mo s.pwr.vinOut
      vinIn := mo s.pwr.vinIn
      hkaSpans := s.pwr.hkaSpans.map fun q => (mv q.1, mo q.2) }
    net := { s.net with p0 := mp s.net.p0, p1 := mp s.net.p1 } }

/-- A sample is applied by step or servo (R329); `off` in 2^-16 ns. -/
def applySample (s : StringSt) (off : Int) : StringSt :=
  let thr : Int := ((s.fld Reg.TIME_THR F.TIME_THR.STEPTHR * nsT : Nat) : Int)
  if s.stepAllowed ∧ thr < (off.natAbs : Int) then
    (s.setFld Reg.TIME_STAT F.TIME_STAT.STEPPED 1).setClock ((s.time : Int) - off).toNat
  else
    let i0 := sx 32 (s.rd Reg.TIME_INT)
    let i1 := i0 - rhe (off * 256) (s.fld Reg.TIME_SERVO F.TIME_SERVO.KI + 16)
    let r := clampI (-s.slewLim) s.slewLim (i1 - rhe (off * 256) (s.fld Reg.TIME_SERVO F.TIME_SERVO.KP + 16))
    let w := s.servoWord i1
    let v := w.2.servoWord r
    (v.2.wr Reg.TIME_INT w.1).wr Reg.TIME_RATE v.1

/-- A sample of the effective source (R328 to R330). -/
def sample (s : StringSt) (off : Int) : StringSt :=
  let s := { s with tim := { s.tim with lastSample := s.time } }
  let small := decide ((off.natAbs : Int) ≤ ((s.fld Reg.TIME_THR F.TIME_THR.LOCKTHR * nsT : Nat) : Int))
  let n := max 1 (s.fld Reg.TIME_CFG F.TIME_CFG.LOCKN)
  let state := s.timeState
  if state = 3 then
    let first := if s.tim.exitRun = 0 then off else s.tim.exitFirst
    let k := s.tim.exitRun + 1
    let s := { s with tim := { s.tim with exitRun := k, exitFirst := first } }
    if max 1 (s.fld Reg.TIME_CFG F.TIME_CFG.HOLDEXIT) ≤ k then
      let s := (s.setFld Reg.TIME_STAT F.TIME_STAT.STATE 1).live 21 false
      ({ s with tim := { s.tim with exitRun := 0, inRun := 0, outRun := 0 } }).applySample first
    else s
  else if state = 2 then
    let k := if small then 0 else s.tim.outRun + 1
    let s := { s with tim := { s.tim with outRun := k } }
    let s := if n ≤ k then
      ({ s with tim := { s.tim with outRun := 0, inRun := 0 } }).setFld Reg.TIME_STAT F.TIME_STAT.STATE 1 else s
    s.applySample off
  else
    let k := if small then s.tim.inRun + 1 else 0
    let s := { s with tim := { s.tim with inRun := k } }
    let s := if n ≤ k ∧ state = 1 then
      ({ s with tim := { s.tim with outRun := 0, inRun := 0 } }).setFld Reg.TIME_STAT F.TIME_STAT.STATE 2
      else s.setFld Reg.TIME_STAT F.TIME_STAT.STATE 1
    s.applySample off

/-- The effective source of samples: 1 partner, 0 firmware (R328). -/
def esrcNow (s : StringSt) : Nat :=
  let p := s.fld Reg.RED_CAPOSTAT F.RED_CAPOSTAT.PROLE
  if s.holds then 0 else b2n (s.brgUp && (decide (p = rACTIVE) || decide (p = rHANDOVER)))

/-- ESRC follows the roles; a change of it enters HOLDOVER, and the samples that end HOLDOVER are those of the new source (R328, R330). -/
def refreshEsrc (s : StringSt) : StringSt :=
  let e := s.esrcNow
  if e = s.fld Reg.TIME_STAT F.TIME_STAT.ESRC then s
  else { s.setFld Reg.TIME_STAT F.TIME_STAT.ESRC e with tim := { s.tim with exitRun := 0 } }.toHoldover

/-- A store to TIME_OFFS: a firmware sample, in 1/16 ns (R328). -/
def storeOffs (s : StringSt) (v : Nat) : StringSt :=
  let s := (s.wr Reg.TIME_OFFS v).wr Reg.TIME_MON v
  if s.fld Reg.TIME_STAT F.TIME_STAT.ESRC = 0 then s.sample (sx 32 v * 4096) else s

/-- A partner sample of `off` in 2^-16 ns (R328). -/
def partnerSample (s : StringSt) (off : Int) : StringSt :=
  let w := clampI (-2147483647) 2147483647 (rheDiv off 4096)
  let s := s.wr Reg.TIME_PART (wrap 32 w)
  if s.fld Reg.TIME_STAT F.TIME_STAT.ESRC = 1 then s.sample off else s

/-- A store to TIME_NS (R331). -/
def storeNs (s : StringSt) (v : Nat) : StringSt :=
  if 1000000000 ≤ v then s
  else if !s.stepAllowed then s.setFld Reg.TIME_STAT F.TIME_STAT.SETREF 1
  else s.setClock (instant (s.tim.heldH * 4294967296 + s.tim.heldL) v 0)

/-- A read of TIME_NS (R331). -/
def readNs (s : StringSt) : Nat × StringSt :=
  (nsOf s.time, ((s.wr Reg.TIME_SEC_H (secOf s.time / 4294967296 % 65536)).wr Reg.TIME_SEC_L (secOf s.time % 4294967296)).wr
    Reg.TIME_FNS (fracOf s.time))

/-- A store to TIME_CTL (R330). -/
def storeTimeCtl (s : StringSt) (v : Nat) : StringSt := if bit v 0 then s.toHoldover else s

/-- A store to TIME_PTPCFG (R333, R341): values the profile does not support set CFGERR. -/
def storePtpCfg (s : StringSt) (v : Nat) : StringSt :=
  let profile := bits v 0 2
  let domain := bits v 8 8
  let bad := decide (bits v 2 2 = 3) || decide (bits v 5 2 = 3) || (decide (profile = 2) && decide (bits v 5 2 ≠ 0)) ||
    (decide (profile = 1) && decide (127 < domain)) || (decide (profile = 2) && (decide (domain < 24) || decide (43 < domain)))
  let s := s.wr Reg.TIME_PTPCFG (v % 16777216 + 2147483648 * b2n bad)
  if bad ∨ profile = 0 ∨ profile = 3 then
    if s.role = rFAILED then s else s.wr Reg.TIME_PTPSTAT (putBits (s.rd Reg.TIME_PTPSTAT) 0 8 0) else s

/-- PTP runs on the string's ports: a supported profile, and no FATAL fault (R333, R371). -/
def ptpOn (s : StringSt) : Bool :=
  let p := s.fld Reg.TIME_PTPCFG F.TIME_PTPCFG.PROFILE
  (decide (p = 1) || decide (p = 2)) && !s.flag Reg.TIME_PTPCFG F.TIME_PTPCFG.CFGERR && decide (s.role ≠ rFAILED)

/-! ## Transmit timestamps (R334, R335) -/

def txq (s : StringSt) (n : Nat) : List (Nat × Nat) := if n = 0 then s.tim.txq0 else s.tim.txq1

def setTxq (s : StringSt) (n : Nat) (l : List (Nat × Nat)) : StringSt :=
  { s with tim := if n = 0 then { s.tim with txq0 := l } else { s.tim with txq1 := l } }

/-- The transmit timestamp of a frame that leaves port `n` now (R334). -/
def txTime (s : StringSt) (n : Nat) : Nat := s.time + s.fld (Reg.TIME_LAT n) F.TIME_LAT.EGRESS * 4096

/-- The transmit timestamp of a marked frame on port `n` (R334, R335). -/
def txStamp (s : StringSt) (n ident : Nat) : StringSt :=
  if (s.txq n).length < 16 then
    s.setTxq n (s.txq n ++ [(ident, s.txTime n)])
  else (s.setFld (Reg.TIME_TXQ n) F.TIME_TXQ.OVERFLOW 1).addSat (Reg.TIME_TXQ n) F.TIME_TXQ.OVCNT 1

/-- A read of TIME_TXID[n]; `pops` where it is no DBG read (R335, R10). -/
def readTxid (s : StringSt) (n : Nat) (pops : Bool) : Nat × StringSt :=
  match s.txq n with
  | [] => (0xFFFF, s)
  | (i, t) :: l =>
    (i + 65536 * fracOf t,
      if pops then ((s.setTxq n l).wr (Reg.TIME_TXNS n) (nsOf t)).wr (Reg.TIME_TXSL n) (secOf t % 4294967296) else s)

/-! ## Pins (R337, R338) -/

/-- A pulse of TOUT `i` starts at its instant (R337). -/
def toutPulse (s : StringSt) (i : Nat) : StringSt :=
  let p := s.tout i
  match p.next with
  | none => s
  | some b =>
    if b ≤ s.time then
      (s.setTout i { p with
        pulseEnd := some (b + p.width)
        next := if p.mode = 2 then some (b + p.period) else none }).fire (64 + i)
    else s

/-- A pulse of TOUT `i` ends (R337). -/
def toutEnd (s : StringSt) (i : Nat) : StringSt :=
  let p := s.tout i
  match p.pulseEnd with
  | some e => if e ≤ s.time then s.setTout i { p with pulseEnd := none } else s
  | none => s

/-- An edge on TCAP `j`, rising or falling, the shorter of the levels beside it `held` long: captured where TIME_TCAPCFG selects it and the
level lasts 20 ns or more (R338). -/
def tcapEdge (s : StringSt) (j : Nat) (rising : Bool) (held : Nat) : StringSt :=
  let e := s.fld (Reg.TIME_TCAPCFG j) F.TIME_TCAPCFG.EDGE
  if bit e (if rising then 0 else 1) && decide (20 * nsT ≤ held) then (s.tcapCapture j).fire (68 + j) else s

/-- A read of TIME_TCAPNS[j]: the capture is read and its other words are latched (R338). -/
def readTcap (s : StringSt) (j : Nat) : Nat × StringSt :=
  let c := s.tcap j
  (nsOf c.at_, ((s.setTcap j { c with unread := false, latched := true }).wr (Reg.TIME_TCAPSL j)
    (secOf c.at_ % 4294967296)).wr (Reg.TIME_TCAPFNS j) (fracOf c.at_))

end StringSt

/-! ## Tile copies (R22, R336) -/

/-- Tile `n` takes the time of the string that it follows: it slews by at most 100 ppm of the span since the latest update, which is 1 us, and
steps a difference of more than 50 ns found at a reslaving at the next 100 kHz boundary of its copy. The answer says that it stepped. -/
def TileSt.follow (d : TileSt) (time : Nat) (rate : Int) : TileSt × Bool :=
  let diff : Int := (time : Int) - (d.time : Int)
  let lim : Int := ((min usT (d.time - d.timeAt) / 10000 : Nat) : Int)
  match d.stepAt with
  | some b =>
    if b ≤ d.time then ({ d with time := time, timeAt := time, rate := rate, freeRun := false, stepAt := none }, true) else (d, false)
  | none =>
    if d.freeRun ∧ ((50 * nsT : Nat) : Int) < (diff.natAbs : Int) then ({ d with stepAt := some (ceilTo frameT (d.time + 1)) }, false)
    else
      let t := ((d.time : Int) + clampI (-lim) lim diff).toNat
      ({ d with time := t, timeAt := t, rate := rate, freeRun := false }, false)

/-- TIME_TILE.SYNC of tile `n`: its copy is slaved and within 3 ns (R336). -/
def State.tileSynced (s : State) (n : Nat) : Bool :=
  let d := s.tile n
  !d.freeNow && (match d.slaveNow with
    | some x => decide (((((s.str x).time : Int) - (d.time : Int)).natAbs) ≤ 3 * nsT)
    | none => false)

/-- Tile `n` takes the time, as it stands 1 us after the latest update (R336); in hold, or with its slaving lost, it free-runs. -/
def State.tileTime (s : State) (n : Nat) : State :=
  let d := s.tile n
  let loose := s.updTile n fun d => { d with freeRun := true, stepAt := none }
  match d.slaveNow with
  | some x =>
    if d.hold then loose
    else
      let r := d.follow (s.str x).time (s.str x).rate
      let s := s.setTile n r.1
      if r.2 then s.updStr x fun c => c.occur 22 n else s
  | none => loose

/-- A command at the time unit of string `x` at the instant `t`; with its domain off it does nothing (R341, R37). -/
def State.atTime (s : State) (x : Str) (t : Nat) (f : StringSt → StringSt) : State :=
  (s.advance t).updStr x fun c => if c.domOn 60 then f c else c

/-! ## Commands -/

/-- REFCLK_LOSS (R327). -/
def execRefclkLoss (x : Str) (t : Nat) (s : State) : Out :=
  .next (s.atTime x t fun c =>
    if c.flag Reg.TIME_STAT F.TIME_STAT.REFOK then
      ((c.setFld Reg.TIME_STAT F.TIME_STAT.REFOK 0).setFld Reg.TIME_STAT F.TIME_STAT.REFLOSS 1).occurLive 20 0
    else c)

/-- REFCLK_RETURN, after 10 ms of good edges (R327). -/
def execRefclkReturn (x : Str) (t : Nat) (s : State) : Out :=
  .next (s.atTime x t fun c => (c.setFld Reg.TIME_STAT F.TIME_STAT.REFOK 1).live 20 false)

/-- TIME_OFFS_WRITE: one firmware sample (R328, R329). -/
def execTimeOffsWrite (x : Str) (v : Word) (t : Nat) (s : State) : Out :=
  .next (s.atTime x t fun c => c.storeOffs v.toNat)

/-- PARTNER_TIME_SAMPLE: the offset against the partner, while the bridge link is up (R328, R329; log entry 15). -/
def execPartnerTimeSample (x : Str) (t : Nat) (s : State) : Out :=
  let s := s.advance t
  .next (if (s.str x).brgUp ∧ (s.str x).domOn 60 = true then
    s.updStr x fun c => c.partnerSample ((c.time : Int) - ((s.str x.other).time : Int)) else s)

/-- HOLDOVER_TIMEOUT: no sample for HOLDTO x 10 ms (R330). -/
def execHoldoverTimeout (x : Str) (t : Nat) (s : State) : Out :=
  .next (s.atTime x t fun c =>
    if c.tim.lastSample + max 1 (c.fld Reg.TIME_CFG F.TIME_CFG.HOLDTO) * 10 * msT ≤ c.time then c.toHoldover else c)

/-- TIME_CTL_MCHG (R330). -/
def execTimeCtlMchg (x : Str) (t : Nat) (s : State) : Out :=
  .next (s.atTime x t fun c => c.storeTimeCtl 1)

/-- TIME_NS_WRITE (R331). -/
def execTimeNsWrite (x : Str) (v : Word) (t : Nat) (s : State) : Out :=
  .next (s.atTime x t fun c => c.storeNs v.toNat)

/-- TIME_NS_READ (R331). -/
def execTimeNsRead (x : Str) (t : Nat) (s : State) : Out :=
  .next (s.atTime x t fun c => c.readNs.2)

/-- PTP_TX_TIMESTAMP: a frame that firmware marked with an identifier leaves a port (R334, R335). -/
def execPtpTxTimestamp (x : Str) (port : Fin 2) (ident : Fin 65535) (t : Nat) (s : State) : Out :=
  .next (s.atTime x t fun c => c.txStamp port.val ident.val)

/-- TIME_TXID_READ (R335). -/
def execTimeTxidRead (x : Str) (port : Fin 2) (s : State) : Out :=
  .next (s.atTime x s.now fun c => (c.readTxid port.val true).2)

/-- TILE_TIME_UPDATE (R336). -/
def execTileTimeUpdate (n : Fin 8) (t : Nat) (s : State) : Out := .next ((s.advance t).tileTime n.val)

/-- TOUT_ARM: a store to TIME_TOUTCFG[i] (R337). -/
def execToutArm (x : Str) (i : Fin 4) (v : Word) (t : Nat) (s : State) : Out :=
  .next (s.atTime x t fun c => c.toutStore i.val v.toNat)

/-- TOUT_PULSE (R337). -/
def execToutPulse (x : Str) (i : Fin 4) (t : Nat) (s : State) : Out :=
  .next (s.atTime x t fun c => c.toutPulse i.val)

/-- TOUT_PULSE_END (R337). -/
def execToutPulseEnd (x : Str) (i : Fin 4) (t : Nat) (s : State) : Out :=
  .next (s.atTime x t fun c => c.toutEnd i.val)

/-- TCAP_EDGE (R338). -/
def execTcapEdge (x : Str) (j : Fin 2) (e : Edge) (t : Nat) (s : State) : Out :=
  .next (s.atTime x t fun c => c.tcapEdge j.val e.rising e.held)

/-- TIME_TCAPNS_READ (R338). -/
def execTimeTcapnsRead (x : Str) (j : Fin 2) (s : State) : Out :=
  .next (s.atTime x s.now fun c => (c.readTcap j.val).2)

end Sys2Proof.Machine
end

