-- ==== Sys2Proof/Machine/Recorder.lean ====
section
/-! DEFINITION. The commands of the event fabric, the mailboxes and the fault recorder (15_events_mailboxes.md, 16_faults.md), and
what both strings do when they see the capo lines change (12_redundancy.md R283, R284). -/

namespace Sys2Proof.Machine

/-- A string sees the lines as they now stand: where one line alone is asserted, and it is not the one that was before, the capo has changed
and producer 79 fires (R343; log entry 105). ESRC follows the roles (R328). -/
def StringSt.seeLines (c : StringSt) (l : Nat) : StringSt :=
  if l = c.red.seen ∨ (l ≠ 1 ∧ l ≠ 2) then c.refreshEsrc else ({ c with red := { c.red with seen := l } }.fire 79).refreshEsrc

/-- Both strings see the lines (R283, R284). -/
def State.capoSettle (s : State) : State := s.updBoth fun c => c.seeLines s.lines

/-! ## Event fabric -/

/-- EVF_FIRE_WRITE: a store by firmware or the secure monitor (R347). -/
def execEvfFireWrite (x : Str) (ch : Fin 64) (s : State) : Out :=
  .next (s.updStr x fun c => (c.softFire ch.val).1)

/-- EVF_CSTAT_CLEAR: W1C of LINE (R344). -/
def execEvfCstatClear (x : Str) (v : Fin 16) (s : State) : Out :=
  .next (s.updStr x fun c => (List.range 4).foldl (fun c i =>
    if bit v.val i && bit (c.rd Reg.EVF_CSTAT) i then c.clearLine i else c) c)

/-- RELAY_LATCH_EMPTY: nothing descended from the relay's firing is in flight any more (R344). -/
def execRelayLatchEmpty (x : Str) (r : Fin 64) (s : State) : Out :=
  .next (s.updStr x fun c => c.setLatch r.val false)

/-- EVT_OUT_PULSE_END (R344). -/
def execEvtOutPulseEnd (x : Str) (t : Nat) (s : State) : Out :=
  .next ((s.advance t).updStr x fun c =>
    match c.evf.outEnd with
    | some e => if e ≤ c.time then ({ c with evf := { c.evf with outEnd := none } }).setLatch 84 false else c
    | none => c)

/-- CONSUMER_DEFERRED_ACT: the domain of a consumer with a held activation is on (R351). -/
def execConsumerDeferredAct (x : Str) (k : Fin 192) (s : State) : Out :=
  .next (s.updStr x fun c =>
    match StringSt.consumerDom k.val with
    | some d =>
      if c.evf.deferred.contains k.val && c.domOn d then
        let c := { c with evf := { c.evf with deferred := setDel c.evf.deferred k.val } }
        (StringSt.settleEvents 80 (c.consumerAct k.val [])).endCaptures
      else c
    | none => c)

/-- EVT_IN_EDGE: an edge on EVT_IN, which both strings see; it is accepted where the levels beside it last 10 ns or more (R352). -/
def execEvtInEdge (e : Edge) (s : State) : Out :=
  .next ({ s with evtIn := e.rising }.updBoth fun c =>
    if decide (10 * nsT ≤ e.held) && bit (c.fld Reg.EVF_CFG F.EVF_CFG.INEDGE) (if e.rising then 0 else 1) then c.fire 70 else c)

/-! ## Mailboxes -/

/-- MBX_HPOST (R356), over the string's PCIe endpoint. -/
def execMbxHpost (x : Str) (k : Fin 16) (s : State) : Out := .next (s.updStr x fun c => if c.domOn 59 then c.hostPost k.val else c)

/-- MBX_HTAKE (R356), over the string's PCIe endpoint. -/
def execMbxHtake (x : Str) (k : Fin 16) (s : State) : Out := .next (s.updStr x fun c => if c.domOn 59 then c.hostTake k.val else c)

/-- MBX_K4_HEADER_READ: endpoint `e` reads MBX_DATA[k][0] (R357), where it may read it (R354, R360). -/
def execMbxK4HeaderRead (x : Str) (k : Fin 16) (e : Fin 5) (s : State) : Out :=
  .next (s.updStr x fun c =>
    if c.domOn (c.mbxDom k.val) && !(decide (e.val = 4) && decide (k.val < 4)) then c.k4Read k.val e.val else c)

/-- MBX_EPRST_WRITE: the host resets endpoint 4 only, firmware any (R358, R363). -/
def execMbxEprstWrite (x : Str) (v : Fin 32) (host : Bool) (s : State) : Out :=
  .next (s.updStr x fun c => (List.range 5).foldl (fun c e =>
    if bit v.val e && (!host || decide (e = 4)) then c.endpointReset e else c) c)

/-- ENDPOINT_RESET: a PCIe hot reset or link-down of the string's endpoint (R358). -/
def execEndpointReset (x : Str) (s : State) : Out := .next (s.updStr x fun c => c.endpointReset 4)

/-! ## Recorder -/

/-- String `x` takes the next condition that each tile of `ns` has reported to it: the occurrences of their sources and the producers that
they fire, all within one grant (R343, R350, R364, R366). -/
def State.takeConds (s : State) (x : Str) (ns : List Nat) : List (Nat × Nat × Bool) × List Nat × State :=
  ns.foldl (fun (r : List (Nat × Nat × Bool) × List Nat × State) n =>
    let d := r.2.2.tile n
    match takeFirst (fun q => match q with | .cond k i p => some (k, i, p) | _ => none) (d.reports x) with
    | none => r
    | some ((k, info, p), rest) =>
      (r.1 ++ (match k with | some k => [(32 + 16 * n + k, info % 4294967296, false)] | none => []),
        r.2.1 ++ (match p with | some p => [8 * n + p] | none => []), r.2.2.setTile n (d.setReports x rest))) ([], [], s)

/-- ALV_SRC_FORCE: a store of 1 to FORCE (R368), within one grant of the condition reports of some tiles (R366, R369). -/
def execAlvSrcForce (x : Str) (f : Forced) (s : State) : Out :=
  let r := s.takeConds x (f.ns.map Fin.val)
  .next (r.2.2.updStr x fun c => (c.forceWith f.src.val r.1).fireAll r.2.1).capoSettle

/-- ALV_HBEAT (R374). -/
def execAlvHbeat (x : Str) (v : Word) (t : Nat) (s : State) : Out :=
  .next ((s.advance t).updStr x fun c => c.heartbeat v.toNat)

/-- HEARTBEAT_MISS: the deadline has passed with no store (R374). -/
def execHeartbeatMiss (x : Str) (t : Nat) (s : State) : Out :=
  .next ((s.advance t).updStr x fun c =>
    match c.alv.deadline with
    | some d =>
      if d ≤ c.time ∧ !c.alv.missed ∧ !c.alv.suspended then
        let wd := if c.flag Reg.ALV_CFG F.ALV_CFG.WDEN then
          some (d + max 1 (c.fld Reg.ALV_CFG F.ALV_CFG.WDDLY) * msT) else none
        ({ c with alv := { c.alv with missed := true, wdAt := wd, minLeft := some 0 } }).occurLive 4 0
      else c
    | none => c).capoSettle

/-- ALIVE_TOGGLE: each 50 us the pin toggles, or is driven low (R375). -/
def execAliveToggle (x : Str) (s : State) : Out :=
  .next (s.updStr x fun c => { c with alv := { c.alv with alive := if c.aliveOk then !c.alv.alive else false } })

/-- TILE_FAILED: a fault of the tile control domain, or no record with a correct link check for 64 consecutive 100 kHz boundaries
(R364). -/
def execTileFailed (x : Str) (j : TileJudged) (s : State) : Out :=
  .next ((s.advance j.t).updStr x fun c =>
    if j.fault ∨ Tab.get (fun _ => 0) c.eng.heard j.n.val + 64 * frameT ≤ c.time then c.occurLive (32 + 16 * j.n.val) 0 else c)

/-- TILE_CONDITION_REPORT: the string takes the next condition that each of the tiles `ns` reports, within one grant: the tile sources occur
and the producers fire (R343, R364, R366). -/
def execTileConditionReport (x : Str) (ns : List (Fin 8)) (s : State) : Out :=
  let r := s.takeConds x (ns.map Fin.val)
  .next (r.2.2.updStr x fun c => (c.occurs r.1).fireAll r.2.1).capoSettle

end Sys2Proof.Machine
end

