-- ==== Sys2Proof/Machine/Perm.lean ====
section
/-! DEFINITION. What a core may read and write (02_quinli_isa.md R45, R46; 01_architecture.md R34, R37). -/

namespace Sys2Proof.Machine

/-- What an access meets. -/
inductive Meets where
  | fine
  | buserr
  | priv
  deriving DecidableEq, Repr

/-- A level may read `n` bytes of SRAM from `a`, apart from bus errors (R45). -/
def ramReadPerm (pl : Nat) (sec : Bool) (a : Nat) : Bool :=
  if pl = 0 ∨ pl = 1 then true else if sec then decide (0x400000 ≤ a) else decide (0x440000 ≤ a)

/-- A level may write `n` bytes of SRAM from `a`, apart from bus errors (R45). -/
def ramWritePerm (pl : Nat) (a n : Nat) : Bool :=
  if pl = 0 then true
  else if pl = 1 then decide (a + n ≤ 0x400000) || decide (0x440000 ≤ a)
  else decide (0x500000 ≤ a) && decide (a + n ≤ 0x600000)

namespace StringSt

/-- A device operation of a core at level `pl` reads, or writes, a buffer of `n` bytes (R55): it must lie in SRAM. -/
def buffer (s : StringSt) (pl : Nat) (sec : Bool) (wr : Bool) (a n : Nat) : Meets :=
  if !s.ramOk a n then .buserr
  else if wr then (if ramWritePerm pl a n then .fine else .priv)
  else if ramReadPerm pl sec a then .fine else .priv

/-- A phrase may read, or write, a buffer of `n` bytes: what a firmware service asks of its caller's addresses (R216). -/
def phraseBuf (s : StringSt) (sec : Bool) (wr : Bool) (a n : Nat) : Bool := s.buffer 2 sec wr a n == .fine

end StringSt
end Sys2Proof.Machine
end

