-- ==== Sys2Proof/Machine/Hash.lean ====
section
/-! DEFINITION. The checks and digests the spec names: CRC-32, SHA-256, SHA-512 and their HMAC (FIPS 180-4, RFC 2104), on lists of bytes. -/

namespace Sys2Proof.Machine

/-- The CRC-32 register after one byte (reflected, polynomial 0xEDB88320). -/
def crcByte (c : Nat) (b : Byte) : Nat :=
  (List.range 8).foldl (fun v _ => if v % 2 = 1 then (v / 2) ^^^ 0xEDB88320 else v / 2) (c ^^^ b.toNat)

/-- CRC-32 of a list of bytes (IEEE 802.3). -/
def crc32 (l : List Byte) : Nat := (l.foldl crcByte 0xFFFFFFFF) ^^^ 0xFFFFFFFF

/-- The largest number below 2^k above `r` whose `e`-th power is at most `n`, found bit by bit from bit `k - 1` down. -/
def rootBits (e n : Nat) : Nat → Nat → Nat
  | 0, r => r
  | k + 1, r => rootBits e n k (if (r + 2 ^ k) ^ e ≤ n then r + 2 ^ k else r)

/-- The primes below 410, of which there are eighty: a number below 23 squared that no smaller prime divides. -/
def smallPrimes : List Nat :=
  (upFrom 2 408).filter fun p => [2, 3, 5, 7, 11, 13, 17, 19].all fun d => p == d || p % d != 0

/-- The first `w` bits of the fraction of the `e`-th root of `p` (FIPS 180-4, sections 4.2.2, 4.2.3 and 5.3). -/
def rootFrac (w e p : Nat) : Nat := rootBits e (p * 2 ^ (e * w)) (w + 5) 0 % 2 ^ w

/-- What sets SHA-256 and SHA-512 apart (FIPS 180-4): bits of a word, rounds, the amounts of the functions of the rounds (three
rotations each) and of the schedule (two rotations and a shift each), the round constants and the initial words. -/
structure Sha2 where
  w : Nat
  big0 : Nat × Nat × Nat
  big1 : Nat × Nat × Nat
  small0 : Nat × Nat × Nat
  small1 : Nat × Nat × Nat
  consts : List Nat
  init : List Nat

/-- SHA-256: 64 rounds on words of 32 bits. -/
def Sha2.p256 : Sha2 :=
  ⟨32, (2, 13, 22), (6, 11, 25), (7, 18, 3), (17, 19, 10), (smallPrimes.take 64).map (rootFrac 32 3), (smallPrimes.take 8).map (rootFrac 32 2)⟩

/-- SHA-512: 80 rounds on words of 64 bits. -/
def Sha2.p512 : Sha2 :=
  ⟨64, (28, 34, 39), (14, 18, 41), (1, 8, 7), (19, 61, 6), smallPrimes.map (rootFrac 64 3), (smallPrimes.take 8).map (rootFrac 64 2)⟩

/-- A word rotated right. -/
def Sha2.rot (p : Sha2) (v n : Nat) : Nat := v / 2 ^ n ||| (v * 2 ^ (p.w - n)) % 2 ^ p.w

def Sha2.rot3 (p : Sha2) (k : Nat × Nat × Nat) (v : Nat) : Nat := (p.rot v k.1 ^^^ p.rot v k.2.1) ^^^ p.rot v k.2.2

def Sha2.rotShift (p : Sha2) (k : Nat × Nat × Nat) (v : Nat) : Nat := (p.rot v k.1 ^^^ p.rot v k.2.1) ^^^ (v / 2 ^ k.2.2)

/-- The rounds of a block. `w`: the sixteen words of the schedule from the round's own on; `h`: the eight working words. The word that
enters the schedule is formed as the round uses up the first. -/
def Sha2.rounds (p : Sha2) : List Nat → List Nat → List Nat → List Nat
  | [], _, h => h
  | k :: ks, w0 :: w, [a, b, c, d, e, f, g, h] =>
    let choose := (e &&& f) ||| ((2 ^ p.w - 1 - e) &&& g)
    let major := (a &&& b) ||| (c &&& (a ||| b))
    let x := h + p.rot3 p.big1 e + choose + k + w0
    let next := (p.rotShift p.small1 (w.getD 13 0) + w.getD 8 0 + p.rotShift p.small0 (w.getD 0 0) + w0) % 2 ^ p.w
    Sha2.rounds p ks (w ++ [next]) [(x + p.rot3 p.big0 a + major) % 2 ^ p.w, a, b, c, (d + x) % 2 ^ p.w, e, f, g]
  | _ :: _, _, h => h

/-- Numbers of `k` bytes, most significant byte first, out of a list of bytes: `n` of them. -/
def beSplit (k : Nat) : Nat → List Byte → List Nat
  | 0, _ => []
  | n + 1, l => (l.take k).foldl (fun v b => 256 * v + b.toNat) 0 :: beSplit k n (l.drop k)

/-- The blocks of a padded message, one after another. -/
def Sha2.blocks (p : Sha2) : Nat → List Byte → List Nat → List Nat
  | 0, _, h => h
  | n + 1, l, h =>
    Sha2.blocks p n (l.drop (2 * p.w)) (List.zipWith (fun a b => (a + b) % 2 ^ p.w) h (p.rounds p.consts (beSplit (p.w / 8) 16 l) h))

/-- The bytes of a number, most significant first. -/
def beBytes : Nat → Nat → List Byte
  | 0, _ => []
  | n + 1, v => beBytes n (v / 256) ++ [BitVec.ofNat 8 v]

/-- The bytes of a number, least significant first. -/
def leBytes : Nat → Nat → List Byte
  | 0, _ => []
  | n + 1, v => BitVec.ofNat 8 v :: leBytes n (v / 256)

/-- The number in a list of bytes, least significant first. -/
def leNat : List Byte → Nat
  | [] => 0
  | b :: l => b.toNat + 256 * leNat l

/-- The digest of a list of bytes: the message with a bit set, zeros, and its length in two words, in blocks of sixteen words. -/
def Sha2.digest (p : Sha2) (l : List Byte) : List Byte :=
  let n := l.length
  let blocks := (n + 1 + p.w / 4 + 2 * p.w - 1) / (2 * p.w)
  let zeros := blocks * (2 * p.w) - (n + 1 + p.w / 4)
  ((p.blocks blocks (l ++ (0x80 : Byte) :: List.replicate zeros 0 ++ beBytes (p.w / 4) (8 * n)) p.init).map (beBytes (p.w / 8))).flatten

/-- SHA-256 of a list of bytes. -/
def sha256 (l : List Byte) : List Byte := Sha2.p256.digest l

/-- SHA-512 of a list of bytes. -/
def sha512 (l : List Byte) : List Byte := Sha2.p512.digest l

/-- HMAC (RFC 2104) over either, whose block is sixteen words. -/
def Sha2.hmac (p : Sha2) (key msg : List Byte) : List Byte :=
  let k0 := if key.length > 2 * p.w then p.digest key else key
  let k := k0 ++ List.replicate (2 * p.w - k0.length) (0 : Byte)
  p.digest (k.map (· ^^^ 0x5C) ++ p.digest (k.map (· ^^^ 0x36) ++ msg))

/-- HMAC-SHA-256. -/
def hmacSha256 (key msg : List Byte) : List Byte := Sha2.p256.hmac key msg

/-- The words of a byte list, byte 0 in bits [7:0] of word 0. -/
def leWords : Nat → List Byte → List Nat
  | 0, _ => []
  | n + 1, l => leNat (l.take 4) :: leWords n (l.drop 4)

end Sys2Proof.Machine
end

