-- ==== Sys2Proof/Machine/Slh.lean ====
section
/-! DEFINITION. The signatures of FIPS 205 that the spec names: SLH-DSA-SHA2-192s, which it verifies (04_photonic_seat.md R117, 18_reset_boot_security.md R413,
R419, R420), and SLH-DSA-SHA2-128f, with which a string signs (R417, R421); pure, with an empty context, deterministic. -/

namespace Sys2Proof.Machine

/-- A parameter set (FIPS 205, table 2): bytes of a node, layers of the hypertree, the height of one tree, the height and the count of the FORS
trees, bytes of the message digest; `wide`: SHA-512 where security category 3 asks for it. -/
structure Slh where
  n : Nat
  d : Nat
  hp : Nat
  a : Nat
  k : Nat
  m : Nat
  wide : Bool

def Slh.sha2_192s : Slh := ⟨24, 7, 9, 14, 17, 39, true⟩

def Slh.sha2_128f : Slh := ⟨16, 22, 3, 6, 33, 34, false⟩

/-- An address: layer, tree, type, and the three words that the type gives a meaning. -/
structure Adrs where
  layer : Nat
  tree : Nat
  kind : Nat
  u : Nat
  v : Nat
  w : Nat

/-- Its 22 bytes. -/
def Adrs.bytes (x : Adrs) : List Byte :=
  beBytes 1 x.layer ++ beBytes 8 x.tree ++ beBytes 1 x.kind ++ beBytes 4 x.u ++ beBytes 4 x.v ++ beBytes 4 x.w

/-- The address of the same layer and tree for another use. -/
def Adrs.use (x : Adrs) (kind u v w : Nat) : Adrs := { x with kind, u, v, w }

namespace Slh

/-- Digits of a WOTS+ message and of its checksum: two for each byte, and three. -/
def digits (p : Slh) : Nat := 2 * p.n + 3

/-- Piece `i` of a list of nodes. -/
def node (p : Slh) (l : List Byte) (i : Nat) : List Byte := (l.drop (i * p.n)).take p.n

/-- F and PRF: a hash of one node under an address. -/
def hashF (p : Slh) (seed : List Byte) (x : Adrs) (l : List Byte) : List Byte :=
  (sha256 (seed ++ List.replicate (64 - p.n) (0 : Byte) ++ x.bytes ++ l)).take p.n

/-- H and T: a hash of several nodes under an address. -/
def hashT (p : Slh) (seed : List Byte) (x : Adrs) (l : List Byte) : List Byte :=
  if p.wide then (sha512 (seed ++ List.replicate (128 - p.n) (0 : Byte) ++ x.bytes ++ l)).take p.n else p.hashF seed x l

/-- The hash of the messages: SHA-512 or SHA-256. -/
def msgHash (p : Slh) : Sha2 := if p.wide then Sha2.p512 else Sha2.p256

/-- The message digest, one mask of the mask generation function after another. -/
def hashMsg (p : Slh) (r seed root msg : List Byte) : List Byte :=
  let z := r ++ seed ++ p.msgHash.digest (r ++ seed ++ root ++ msg)
  (((List.range (p.m / 32 + 1)).map fun c => p.msgHash.digest (z ++ beBytes 4 c)).flatten).take p.m

/-- Number `i` of `b` bits in a list of bytes, most significant bit first. -/
def field (l : List Byte) (b i : Nat) : Nat := (l.foldl (fun v c => 256 * v + c.toNat) 0) / 2 ^ (8 * l.length - (i + 1) * b) % 2 ^ b

/-- The digits of a node with those of its checksum. -/
def wotsDigits (p : Slh) (l : List Byte) : List Nat :=
  let d := (List.range (2 * p.n)).map (field l 4)
  let sum := d.foldl (fun v e => v + (15 - e)) 0
  d ++ (List.range 3).map fun i => sum / 16 ^ (2 - i) % 16

/-- A chain of `s` steps from step `i` of chain `j`. -/
def chain (p : Slh) (seed : List Byte) (x : Adrs) (j i : Nat) : Nat → List Byte → List Byte
  | 0, l => l
  | s + 1, l => chain p seed x j (i + 1) s (p.hashF seed (x.use 0 x.u j i) l)

/-- A WOTS+ public key out of a node for each digit: `from_ e` is where the digit's chain has got to. `x.u` is the leaf. -/
def wotsKey (p : Slh) (seed : List Byte) (x : Adrs) (from_ : List Nat) (l : List Byte) : List Byte :=
  p.hashT seed (x.use 1 x.u 0 0) ((from_.zipIdx.map fun e => p.chain seed x e.2 e.1 (15 - e.1) (p.node l e.2)).flatten)

/-- The root above a node, its place, and its authentication path: `f` is the address of the node at a height and a place. -/
def climb (p : Slh) (seed : List Byte) (f : Nat → Nat → Adrs) (at_ : Nat) (l path : List Byte) (height : Nat) : List Byte :=
  (List.range height).foldl
    (fun v j =>
      let side := p.node path j
      p.hashT seed (f (j + 1) (at_ / 2 ^ (j + 1))) (if at_ / 2 ^ j % 2 = 0 then v ++ side else side ++ v)) l

/-- The root of a tree of the hypertree out of a signature of a node by its leaf. -/
def treeRoot (p : Slh) (seed : List Byte) (x : Adrs) (leaf : Nat) (sig l : List Byte) : List Byte :=
  let key := p.wotsKey seed (x.use 0 leaf 0 0) (p.wotsDigits l) sig
  p.climb seed (fun h i => x.use 2 0 h i) leaf key (sig.drop (p.digits * p.n)) p.hp

/-- Bytes of the signature by one tree. -/
def treeLen (p : Slh) : Nat := (p.digits + p.hp) * p.n

/-- The root of the hypertree, from layer `j` on for so many layers. -/
def hyperRoot (p : Slh) (seed : List Byte) : Nat → Nat → Nat → Nat → List Byte → List Byte → List Byte
  | 0, _, _, _, _, l => l
  | s + 1, j, tree, leaf, sig, l =>
    hyperRoot p seed s (j + 1) (tree / 2 ^ p.hp) (tree % 2 ^ p.hp) (sig.drop p.treeLen) (p.treeRoot seed ⟨j, tree, 0, 0, 0, 0⟩ leaf sig l)

/-- The FORS public key out of a signature: for each tree a secret node and its path. `x.u` is the leaf. -/
def forsKey (p : Slh) (seed : List Byte) (x : Adrs) (md sig : List Byte) : List Byte :=
  p.hashT seed (x.use 4 x.u 0 0) (((List.range p.k).map fun i =>
    let at_ := i * 2 ^ p.a + field md p.a i
    let s := sig.drop (i * (p.a + 1) * p.n)
    p.climb seed (fun h k => x.use 3 x.u h k) at_ (p.hashF seed (x.use 3 x.u 0 at_) (s.take p.n)) (s.drop p.n) p.a).flatten)

/-- What a message digest picks: the bytes for FORS, the tree and its leaf. -/
def picks (p : Slh) (g : List Byte) : List Byte × Nat × Nat :=
  let k := (p.k * p.a + 7) / 8
  let t := ((p.d - 1) * p.hp + 7) / 8
  let num := fun (l : List Byte) => l.foldl (fun v c => 256 * v + c.toNat) 0
  (g.take k, num ((g.drop k).take t) % 2 ^ ((p.d - 1) * p.hp), num ((g.drop (k + t)).take ((p.hp + 7) / 8)) % 2 ^ p.hp)

/-- Bytes of a signature. -/
def sigLen (p : Slh) : Nat := p.n + p.k * (p.a + 1) * p.n + p.d * p.treeLen

/-- A message as it is signed: pure, with an empty context. -/
def pure (msg : List Byte) : List Byte := (0 : Byte) :: (0 : Byte) :: msg

/-- Verification (FIPS 205, section 9.3 and 10.3): public key, message, signature. -/
def verify (p : Slh) (pub msg sig : List Byte) : Bool :=
  let seed := pub.take p.n
  let root := (pub.drop p.n).take p.n
  let q := p.picks (p.hashMsg (sig.take p.n) seed root (pure msg))
  let fors := p.forsKey seed ⟨0, q.2.1, 3, q.2.2, 0, 0⟩ q.1 (sig.drop p.n)
  decide (sig.length = p.sigLen) &&
    decide (p.hyperRoot seed p.d 0 q.2.1 q.2.2 (sig.drop (p.n + p.k * (p.a + 1) * p.n)) fors = root)

/-! ## Signing -/

/-- The secret node of a FORS leaf. -/
def forsSecret (p : Slh) (sk seed : List Byte) (x : Adrs) (i : Nat) : List Byte := p.hashF seed (x.use 6 x.u 0 i) sk

/-- A node of the FORS trees by its height and place. -/
def forsNode (p : Slh) (sk seed : List Byte) (x : Adrs) : Nat → Nat → List Byte
  | 0, i => p.hashF seed (x.use 3 x.u 0 i) (p.forsSecret sk seed x i)
  | z + 1, i => p.hashT seed (x.use 3 x.u (z + 1) i) (forsNode p sk seed x z (2 * i) ++ forsNode p sk seed x z (2 * i + 1))

/-- The start of chain `j` of the leaf `x.u`. -/
def wotsSecret (p : Slh) (sk seed : List Byte) (x : Adrs) (j : Nat) : List Byte := p.hashF seed (x.use 5 x.u j 0) sk

/-- A node of a tree of the hypertree by its height and place. -/
def treeNode (p : Slh) (sk seed : List Byte) (x : Adrs) : Nat → Nat → List Byte
  | 0, i =>
    let y := x.use 0 i 0 0
    p.wotsKey seed y (List.replicate p.digits 0) ((List.range p.digits).map (p.wotsSecret sk seed y)).flatten
  | z + 1, i => p.hashT seed (x.use 2 0 (z + 1) i) (treeNode p sk seed x z (2 * i) ++ treeNode p sk seed x z (2 * i + 1))

/-- The neighbour, at height `j`, of the path from place `i`. -/
def beside (i j : Nat) : Nat := (i / 2 ^ j) ^^^ 1

/-- The signature of a node by a leaf of a tree, with the leaf's path. -/
def treeSign (p : Slh) (sk seed : List Byte) (x : Adrs) (leaf : Nat) (l : List Byte) : List Byte :=
  let y := x.use 0 leaf 0 0
  ((p.wotsDigits l).zipIdx.map fun e => p.chain seed y e.2 0 e.1 (p.wotsSecret sk seed y e.2)).flatten ++
    ((List.range p.hp).map fun j => p.treeNode sk seed x j (beside leaf j)).flatten

/-- The signatures of the layers from `j` on. -/
def hyperSign (p : Slh) (sk seed : List Byte) : Nat → Nat → Nat → Nat → List Byte → List Byte
  | 0, _, _, _, _ => []
  | s + 1, j, tree, leaf, l =>
    let x : Adrs := ⟨j, tree, 0, 0, 0, 0⟩
    let sig := p.treeSign sk seed x leaf l
    sig ++ hyperSign p sk seed s (j + 1) (tree / 2 ^ p.hp) (tree % 2 ^ p.hp) (p.treeRoot seed x leaf sig l)

/-- The signature of FORS: each tree's secret node and its path. -/
def forsSign (p : Slh) (sk seed : List Byte) (x : Adrs) (md : List Byte) : List Byte :=
  ((List.range p.k).map fun i =>
    let k := field md p.a i
    p.forsSecret sk seed x (i * 2 ^ p.a + k) ++
      ((List.range p.a).map fun j => p.forsNode sk seed x j (i * 2 ^ (p.a - j) + beside k j)).flatten).flatten

/-- The root of the key pair of three seeds (FIPS 205, section 9.1). -/
def rootOf (p : Slh) (sk seed : List Byte) : List Byte := p.treeNode sk seed ⟨p.d - 1, 0, 0, 0, 0, 0⟩ p.hp 0

/-- A deterministic signature (FIPS 205, sections 9.2 and 10.2) with the key pair of the seeds `sk`, `prf` and `seed`. -/
def sign (p : Slh) (sk prf seed msg : List Byte) : List Byte :=
  let r := (p.msgHash.hmac prf (seed ++ pure msg)).take p.n
  let q := p.picks (p.hashMsg r seed (p.rootOf sk seed) (pure msg))
  let x : Adrs := ⟨0, q.2.1, 3, q.2.2, 0, 0⟩
  let fors := p.forsSign sk seed x q.1
  r ++ fors ++ p.hyperSign sk seed p.d 0 q.2.1 q.2.2 (p.forsKey seed x q.1 fors)

end Slh
end Sys2Proof.Machine
end

