-- ==== Sys2Proof/Machine/Fab.lean ====
section
/-! DEFINITION. The fabric descriptor (04_photonic_seat.md R107 to R125): reading its records, the checks of R123, and the load
services. -/

namespace Sys2Proof.Machine

/-- The bundle area (R107). -/
abbrev fabBase : Nat := 0x00C00000

/-- Base addresses of R33. -/
abbrev actRec (a : Nat) : Nat := 0x00600000 + a * 64
abbrev monRec (m : Nat) : Nat := 0x00700000 + m * 32
abbrev loopRec (a : Nat) : Nat := 0x00800000 + a * 64
abbrev csetRec (k : Nat) : Nat := 0x00900000 + k * 512
abbrev xtRow (a : Nat) : Nat := 0x00A00000 + a * 128
abbrev slotHdr (k : Nat) : Nat := 0x00E00000 + k * 256
abbrev slotEnts (k : Nat) : Nat := 0x01000000 + k * 0x10000

/-- FAB_STAT.STATE codes. -/
abbrev fabNONE : Nat := 0
abbrev fabLOADING : Nat := 1
abbrev fabVALID : Nat := 2
abbrev fabFAILED : Nat := 3

namespace StringSt

def fabState (s : StringSt) : Nat := s.fld Reg.FAB_STAT F.FAB_STAT.STATE
def fabValid (s : StringSt) : Bool := s.fabState = fabVALID

/-- Calibration takes samples (11_calibration.md R266). -/
def calOn (s : StringSt) : Bool := s.holds && s.flag Reg.CAL_CFG F.CAL_CFG.EN && s.fabValid

/-! ## Reading the bundle -/

/-- The word at byte `a` of the bundle. -/
def fw (s : StringSt) (a : Nat) : Nat := s.word (fabBase + a)

/-- The half-word at byte `a` of the bundle. -/
def fh (s : StringSt) (a : Nat) : Nat := s.sram.read (fabBase + a) 2

/-- Offset of section `t` (1 CELL, 2 OUT, 3 ACT, 4 VIS, 5 THM, 6 NBR) from the start of the body (R109). -/
def fabSec (s : StringSt) (t : Nat) : Nat := s.fw (64 + 16 * (t - 1) + 4)

def fabLen (s : StringSt) : Nat := s.fw 8
def fabTopo (s : StringSt) : Nat := bits (s.fw 12) 0 8
def fabStrict (s : StringSt) : Bool := bit (s.fw 12) 8
def fabStages (s : StringSt) : Nat := bits (s.fw 12) 16 16
def fabNin (s : StringSt) : Nat := bits (s.fw 16) 0 16
def fabNout (s : StringSt) : Nat := bits (s.fw 16) 16 16
def fabNcell (s : StringSt) : Nat := bits (s.fw 20) 0 16
def fabNnbr (s : StringSt) : Nat := s.fw (64 + 16 * 5 + 12)

/-- A word of CELL record `c` (R111). -/
def cellW (s : StringSt) (c w : Nat) : Nat := s.fw (s.fabSec 1 + 16 * c + 4 * w)

def cellStage (s : StringSt) (c : Nat) : Nat := bits (s.cellW c 0) 0 8
def cellKind (s : StringSt) (c : Nat) : Nat := bits (s.cellW c 0) 8 8

/-- The link that feeds input `i` of cell `c`. -/
def cellIn (s : StringSt) (c i : Nat) : Nat := bits (s.cellW c 1) (16 * i) 16

/-- The actuators of cell `c`. -/
def cellActs (s : StringSt) (c : Nat) : List Nat :=
  (List.range (min 4 (bits (s.cellW c 0) 16 3))).map fun i => bits (s.cellW c (2 + i / 2)) (16 * (i % 2)) 16

/-- The link that feeds output port `p` (R112). -/
def outLink (s : StringSt) (p : Nat) : Nat := s.fh (s.fabSec 2 + 2 * p)

/-- Word `w` of ACT record `a` (R113). -/
def actW (s : StringSt) (a w : Nat) : Nat := s.fw (s.fabSec 3 + 8 * a + 4 * w)

def actCell (s : StringSt) (a : Nat) : Nat := bits (s.actW a 0) 0 16
def actRole (s : StringSt) (a : Nat) : Nat := bits (s.actW a 0) 16 8
def actPilot (s : StringSt) (a : Nat) : Nat := bits (s.actW a 0) 24 4
def actNoPilot (s : StringSt) (a : Nat) : Bool := bit (s.actW a 0) 28
def actVmode (s : StringSt) (a : Nat) : Bool := bit (s.actW a 0) 29
def actNomres (s : StringSt) (a : Nat) : Nat := bits (s.actW a 1) 0 16
def actPsteady (s : StringSt) (a : Nat) : Nat := bits (s.actW a 1) 16 16

/-- ROLE is PUSH, PULL, TRIM, PHASE or GATE. -/
def actMoves (s : StringSt) (a : Nat) : Bool := decide (1 ≤ s.actRole a ∧ s.actRole a ≤ 5)

/-- Word `w` of VIS record `m` (R114). -/
def visW (s : StringSt) (m w : Nat) : Nat := s.fw (s.fabSec 4 + 72 * m + 4 * w)

def visTap (s : StringSt) (m : Nat) : Nat := bits (s.visW m 0) 21 3
def visWhere (s : StringSt) (m : Nat) : Nat := bits (s.visW m 1) 0 16

/-- The entries of VIS record `m`: element, pilot, rank. -/
def visEnts (s : StringSt) (m : Nat) : List (Nat × Nat × Nat) :=
  (List.range (min 16 (bits (s.visW m 0) 16 5))).map fun i =>
    let w := s.visW m (2 + i)
    (bits w 0 14, bits w 14 4, bits w 18 2)

/-- Word `w` of THM record `t` (R115). -/
def thmW (s : StringSt) (t w : Nat) : Nat := s.fw (s.fabSec 5 + 8 * t + 4 * w)

/-- Word `w` of NBR record `i` (R116). -/
def nbrW (s : StringSt) (i w : Nat) : Nat := s.fw (s.fabSec 6 + 52 * i + 4 * w)

/-- The neighbours that NBR record `i` lists. -/
def nbrList (s : StringSt) (i : Nat) : List Nat :=
  (List.range (min 24 (bits (s.nbrW i 0) 16 5))).map fun k => bits (s.nbrW i (1 + k / 2)) (16 * (k % 2)) 16

/-- The thermal neighbours of act `a`, by its NBR record. -/
def nbrsOf (s : StringSt) (a : Nat) : List Nat :=
  match (List.range s.fabNnbr).find? fun i => bits (s.nbrW i 0) 0 14 == a with
  | some i => s.nbrList i
  | none => []

end StringSt

/-! ## The checks of R123 -/

/-- A failed check: code, byte offset, index. -/
abbrev Failed := Nat × Nat × Nat

abbrev noIdx : Nat := 0xFFFFFFFF

/-- The first failure of a list of conditions that must hold, each with its offset and index. -/
def firstBad (code : Nat) (l : List (Bool × Nat × Nat)) : Option Failed :=
  (l.find? fun e => !e.1).map fun e => (code, e.2.1, e.2.2)

/-- A link names an existing input port or cell output, or none (R110). -/
def linkOk (nin ncell l : Nat) : Bool :=
  decide (l = 0xFFFF) || (if bit l 15 then decide (bits l 11 4 = 0 ∧ bits l 0 11 < nin) else decide (bits l 1 14 < ncell))

/-- A link that names a cell output: the cell and the output. -/
def linkCell (l : Nat) : Option (Nat × Nat) := if l = 0xFFFF ∨ bit l 15 then none else some (bits l 1 14, bits l 0 1)

/-- A link that names an input port. -/
def linkPort (l : Nat) : Option Nat := if l ≠ 0xFFFF ∧ bit l 15 then some (bits l 0 11) else none

namespace StringSt

/-- Check 0x01: the header (R108). -/
def chk1 (s : StringSt) : Option Failed :=
  let t := s.fabTopo
  firstBad 1 ([
    (decide (s.fw 0 = 0x31444649), 0, noIdx),
    (decide (bits (s.fw 4) 0 16 = 1), 4, noIdx),
    (decide (bits (s.fw 4) 16 16 = 64), 6, noIdx),
    (decide ((1 ≤ t ∧ t ≤ 4) ∨ t = 0x7F), 12, noIdx),
    (decide (1 ≤ s.fabStages ∧ s.fabStages ≤ 255), 14, noIdx),
    (decide (1 ≤ s.fabNin ∧ s.fabNin ≤ 2048), 16, noIdx),
    (decide (1 ≤ s.fabNout ∧ s.fabNout ≤ 2048), 18, noIdx),
    (decide (1 ≤ s.fabNcell ∧ s.fabNcell ≤ 16384), 20, noIdx),
    (decide (bits (s.fw 20) 16 4 = 6), 22, noIdx),
    (decide (bits (s.fw 12) 9 7 = 0), 13, noIdx),
    (decide (bits (s.fw 20) 20 12 = 0), 22, noIdx)] ++
    (upFrom 9 7).map fun i => (decide (s.fw (4 * i) = 0), 4 * i, noIdx))

/-- Check 0x02: LENGTH and the trailer (R117), in a bundle of `len` bytes. -/
def chk2 (s : StringSt) (len : Nat) : Option Failed :=
  let n := s.fabLen
  firstBad 2 [
    (decide (n % 16 = 0), 8, noIdx),
    (decide (n + 16 + 16224 ≤ len), n, noIdx),
    (decide (s.fw n = 0x31475349), n, noIdx),
    (decide (bits (s.fw (n + 4)) 0 8 = 1), n + 4, noIdx),
    (decide (bits (s.fw (n + 4)) 8 24 = 0), n + 5, noIdx),
    (decide (s.fw (n + 8) < 8), n + 8, noIdx),
    (decide (s.fw (n + 12) = 16224), n + 12, noIdx)]

/-- Word 0 of configuration key slot `k`, and its public key (R418). -/
def keySlot (s : StringSt) (k : Nat) : Nat := s.peg (0x70001000 + 64 * k)
def slotKey (s : StringSt) (k : Nat) : List Byte :=
  ((upFrom 1 12).map fun i => leBytes 4 (s.peg (0x70001000 + 64 * k + 4 * i))).flatten

/-- Check 0x03: the signature, under a VALID slot with DESC (R418). -/
def chk3 (s : StringSt) : Option Failed :=
  let n := s.fabLen
  let k := s.fw (n + 8)
  firstBad 3 [
    (bit (s.keySlot k) 0 && bit (s.keySlot k) 9, n + 8, noIdx),
    (Slh.sha2_192s.verify (s.slotKey k) (s.bytes fabBase n) (s.bytes (fabBase + n + 16) 16224), n + 16, noIdx)]

/-- Check 0x04: SVN against the descriptor floor. -/
def chk4 (s : StringSt) : Option Failed := firstBad 4 [(decide (s.peg 0x70000004 ≤ s.fw 32), 32, noIdx)]

/-- Record sizes and counts of the six sections (R109). -/
def secSize (t : Nat) : Nat := ([16, 2, 8, 72, 8, 52] : List Nat).getD (t - 1) 0
def secCountOk (s : StringSt) (t n : Nat) : Bool :=
  match t with
  | 1 => decide (n = s.fabNcell)
  | 2 => decide (n = s.fabNout)
  | 3 => decide (n = 16384)
  | 4 => decide (n = 2048)
  | 5 => decide (n = 64)
  | _ => decide (n ≤ 16384)

/-- Check 0x05: the directory. -/
def chk5 (s : StringSt) : Option Failed :=
  firstBad 5 ((upFrom 1 6).map fun t =>
    let d := 64 + 16 * (t - 1)
    let off := s.fw (d + 4)
    let len := s.fw (d + 8)
    let n := s.fw (d + 12)
    [(decide (bits (s.fw d) 0 8 = t), d, noIdx),
     (decide (bits (s.fw d) 8 24 = 0), d + 1, noIdx),
     (decide (off % 16 = 0), d + 4, noIdx),
     (s.secCountOk t n, d + 12, noIdx),
     (decide (len = (n * secSize t + 15) / 16 * 16), d + 8, noIdx),
     (decide (off + len ≤ s.fabLen), d + 4, noIdx),
     (((upFrom 1 (t - 1)).all fun u =>
        decide (off + len ≤ s.fabSec u) || decide (s.fabSec u + s.fw (64 + 16 * (u - 1) + 8) ≤ off)), d + 4, noIdx),
     ((s.bytes (fabBase + off + n * secSize t) (len - n * secSize t)).all (fun b => b = 0), off + n * secSize t, noIdx)]).flatten

/-- The fields of a CELL record are in range (R111). -/
def cellOk (s : StringSt) (c : Nat) : Bool :=
  let n := bits (s.cellW c 0) 16 3
  let k := s.cellKind c
  decide (s.cellStage c < s.fabStages) && decide (k ≤ 2) && decide (1 ≤ n ∧ n ≤ 4) && decide (bits (s.cellW c 0) 19 13 = 0) &&
    linkOk s.fabNin s.fabNcell (s.cellIn c 0) && linkOk s.fabNin s.fabNcell (s.cellIn c 1) &&
    (k = 0 || decide (s.cellIn c 1 = 0xFFFF)) &&
    (List.range 4).all fun i =>
      let a := bits (s.cellW c (2 + i / 2)) (16 * (i % 2)) 16
      if i < n then decide (a < 16384) else decide (a = 0xFFFF)

/-- The fields of an ACT record are in range (R113). -/
def actOk (s : StringSt) (a : Nat) : Bool :=
  if s.actW a 0 = 0 ∧ s.actW a 1 = 0 then true
  else
    let r := s.actRole a
    decide (1 ≤ r ∧ r ≤ 6) && decide (bits (s.actW a 0) 30 2 = 0) &&
      (if r = 6 then decide (s.actCell a = 0xFFFF) else decide (s.actCell a < s.fabNcell)) &&
      (!s.actVmode a || decide (s.actNomres a = 0))

/-- The fields of a VIS record are in range (R114). -/
def visOk (s : StringSt) (m : Nat) : Bool :=
  let n := bits (s.visW m 0) 16 5
  let w := s.visWhere m
  decide (bits (s.visW m 0) 0 11 = m) && decide (bits (s.visW m 0) 11 5 = 0) && decide (n ≤ 16) && decide (s.visTap m ≤ 4) &&
    decide (bits (s.visW m 0) 24 8 = 0) && decide (bits (s.visW m 1) 16 16 = 0) &&
    (match s.visTap m with
     | 0 => decide (w = 0xFFFF)
     | 3 => decide (w < s.fabNin)
     | 4 => decide (w < s.fabNout)
     | _ => decide (w < s.fabNcell)) &&
    (List.range 16).all fun i =>
      if i < n then decide (bits (s.visW m (2 + i)) 20 12 = 0) else decide (s.visW m (2 + i) = 0)

/-- The fields of an NBR record are in range, and it follows the one before it (R116). -/
def nbrOk (s : StringSt) (i : Nat) : Bool :=
  let w := s.nbrW i 0
  let n := bits w 16 5
  decide (bits w 14 2 = 0) && decide (n ≤ 24) && decide (bits w 21 11 = 0) &&
    (decide (i = 0) || decide (bits (s.nbrW (i - 1) 0) 0 14 < bits w 0 14)) &&
    (List.range 24).all fun k =>
      let b := bits (s.nbrW i (1 + k / 2)) (16 * (k % 2)) 16
      if k < n then decide (b < 16384) else decide (b = 0xFFFF)

/-- Check 0x06: every record's fields. -/
def chk6 (s : StringSt) : Option Failed :=
  (firstBad 6 ((List.range s.fabNcell).map fun c => (s.cellOk c, s.fabSec 1 + 16 * c, c))).orElse fun _ =>
  (firstBad 6 ((List.range s.fabNout).map fun p =>
    (decide (s.outLink p = 0xFFFF) || (!bit (s.outLink p) 15 && linkOk s.fabNin s.fabNcell (s.outLink p)),
      s.fabSec 2 + 2 * p, p))).orElse fun _ =>
  (firstBad 6 ((List.range 16384).map fun a => (s.actOk a, s.fabSec 3 + 8 * a, a))).orElse fun _ =>
  (firstBad 6 ((List.range 2048).map fun m => (s.visOk m, s.fabSec 4 + 72 * m, m))).orElse fun _ =>
  (firstBad 6 ((List.range 64).map fun t =>
    (decide (bits (s.thmW t 0) 0 8 ≤ 2 ∧ bits (s.thmW t 0) 8 8 = 0 ∧ bits (s.thmW t 1) 16 16 = 0), s.fabSec 5 + 8 * t, t))).orElse fun _ =>
  firstBad 6 ((List.range s.fabNnbr).map fun i => (s.nbrOk i, s.fabSec 6 + 52 * i, i))

/-- A link that feeds an input of stage `stage` is sound (check 0x07): it is not in `used`, its cell is of a lower stage, and it
is not output 1 of a gate. -/
def feedOk (s : StringSt) (used : List Nat) (stage l : Nat) : Bool :=
  !used.contains l && match linkCell l with
    | some (c, o) => decide (s.cellStage c < stage) && !(decide (s.cellKind c = 2) && decide (o = 1))
    | none => true

/-- The cells judged in order, with the links that feed something so far. -/
def chk7Cells (s : StringSt) : List Nat → List Nat → Option Failed × List Nat
  | used, [] => (none, used)
  | used, c :: cs =>
    let ls := ([s.cellIn c 0, s.cellIn c 1]).filter fun l => l != 0xFFFF
    let dup := match ls with | [a, b] => a == b | _ => false
    if dup || !(ls.all fun l => s.feedOk used (s.cellStage c) l) then (some (7, s.fabSec 1 + 16 * c, c), used)
    else s.chk7Cells (ls ++ used) cs

/-- The output ports judged in order. -/
def chk7Outs (s : StringSt) : List Nat → List Nat → Option Failed
  | _, [] => none
  | used, p :: ps =>
    let l := s.outLink p
    if l = 0xFFFF ∨ !s.feedOk used 256 l then some (7, s.fabSec 2 + 2 * p, p) else s.chk7Outs (l :: used) ps

/-- Check 0x07: the topology; failures of no single record come last (log entry 19). -/
def chk7 (s : StringSt) : Option Failed :=
  let r := s.chk7Cells [] (List.range s.fabNcell)
  r.1.orElse fun _ =>
  (s.chk7Outs r.2 (List.range s.fabNout)).orElse fun _ =>
  (firstBad 7 ((List.range s.fabNin).map fun p => (r.2.contains (0x8000 + p), 16, p))).orElse fun _ =>
  firstBad 7 [((if s.fabTopo = 1 then !s.fabStrict else if s.fabTopo = 0x7F then true else s.fabStrict), 13, noIdx)]

/-- ROLE fits KIND (check 0x08). -/
def roleFits (kind role : Nat) : Bool := if kind = 2 then role = 5 || role = 3 else decide (1 ≤ role ∧ role ≤ 4)

def chk8Cells (s : StringSt) : List Nat → List Nat → Option Failed
  | _, [] => none
  | named, c :: cs =>
    let l := s.cellActs c
    if l.all (fun a => s.actCell a = c && roleFits (s.cellKind c) (s.actRole a) && !named.contains a) && decide l.Nodup then
      s.chk8Cells (l ++ named) cs
    else some (8, s.fabSec 1 + 16 * c, c)

/-- Check 0x09: one VMODE in each mode group. -/
def chk9 (s : StringSt) : Option Failed :=
  firstBad 9 ((List.range 16384).map fun a =>
    (decide (s.actRole a = 0) ||
      (match (upFrom (a / 64 * 64) 64).find? fun b => decide (s.actRole b ≠ 0) with
       | some b => s.actVmode b == s.actVmode a
       | none => true), s.fabSec 3 + 8 * a, a))

/-- Check 0x0A: the elements of each VIS record. -/
def chkA (s : StringSt) : Option Failed :=
  firstBad 10 ((List.range 2048).map fun m =>
    let l := s.visEnts m
    (l.all (fun e => decide (s.actRole e.1 ≠ 0) && !s.actNoPilot e.1 && decide (s.actPilot e.1 = e.2.1)) &&
      decide (l.map (·.1)).Nodup && decide (l.map (·.2.1)).Nodup, s.fabSec 4 + 72 * m, m))

/-- Check 0x0B: every piloted actuator is visible somewhere. -/
def chkB (s : StringSt) : Option Failed :=
  let seen := ((List.range 2048).map fun m => (s.visEnts m).map (·.1)).flatten
  firstBad 11 ((List.range 16384).map fun a =>
    (decide (s.actRole a = 0) || s.actNoPilot a || seen.contains a, s.fabSec 3 + 8 * a, a))

/-- Check 0x0C: the neighbours of each NBR record. -/
def chkC (s : StringSt) : Option Failed :=
  firstBad 12 ((List.range s.fabNnbr).map fun i =>
    let l := s.nbrList i
    (l.all (fun b => decide (s.actRole b ≠ 0) && decide (b ≠ bits (s.nbrW i 0) 0 14)) && decide l.Nodup, s.fabSec 6 + 52 * i, i))

/-- Check 0x0D: the sums of PSTEADY in 10 uW, in act order. -/
def chkDGo (s : StringSt) : Nat → Nat → List Nat → Option Failed
  | _, _, [] => none
  | t, m, a :: as =>
    let t := (if a % 2048 = 0 then 0 else t) + s.actPsteady a
    let m := m + s.actPsteady a
    if 2400000 < t ∨ 16000000 < m then some (13, s.fabSec 3 + 8 * a, a) else s.chkDGo t m as

/-- The checks of R123 in order, on a bundle of `len` bytes. -/
def fabCheck (s : StringSt) (len : Nat) : Option Failed :=
  s.chk1.orElse fun _ => (s.chk2 len).orElse fun _ => s.chk3.orElse fun _ => s.chk4.orElse fun _ =>
  s.chk5.orElse fun _ => s.chk6.orElse fun _ => s.chk7.orElse fun _ => (s.chk8Cells [] (List.range s.fabNcell)).orElse fun _ =>
  s.chk9.orElse fun _ => s.chkA.orElse fun _ => s.chkB.orElse fun _ => s.chkC.orElse fun _ =>
  s.chkDGo 0 0 (List.range 16384)

/-! ## What a load leaves -/

/-- FAB_STAT.STATE with the registers that read 0 while it is not VALID (R118, R120). -/
def setFab (s : StringSt) (st : Nat) : StringSt :=
  let s := s.setFld Reg.FAB_STAT F.FAB_STAT.STATE st
  if st = fabVALID then
    let s := (s.setFld Reg.FAB_STAT F.FAB_STAT.TOPO s.fabTopo).setFld Reg.FAB_STAT F.FAB_STAT.STRICT (b2n s.fabStrict)
    let s := ((s.wr Reg.FAB_SVN (s.fw 32)).wr Reg.FAB_ID_L (s.fw 24)).wr Reg.FAB_ID_H (s.fw 28)
    (leWords 8 (sha256 (s.bytes fabBase s.fabLen))).zipIdx.foldl (fun s e => s.wr (Reg.FAB_DIGEST e.2) e.1) s
  else
    let s := (s.setFld Reg.FAB_STAT F.FAB_STAT.TOPO 0).setFld Reg.FAB_STAT F.FAB_STAT.STRICT 0
    let s := ((s.wr Reg.FAB_SVN 0).wr Reg.FAB_ID_L 0).wr Reg.FAB_ID_H 0
    (List.range 8).foldl (fun s i => s.wr (Reg.FAB_DIGEST i) 0) s

/-- The route tables of a descriptor that has become VALID: every cell UNSET, no port connected (R211, R212). -/
def buildTables (s : StringSt) : StringSt :=
  let s := s.zero 0x00D80000 0x80000
  let s := (List.range s.fabNcell).foldl (fun s c => s.setWords (0x00D88000 + 8 * c) [0xF, 0x0FFF0FFF]) s
  ({ s with rte := ⟨[], [], [], [], s.time, []⟩ }).wr Reg.RTE_STAT 0x80000000

/-- The crosstalk rows of a descriptor that has become VALID: from the NBR records, off and with C = 0 (R227). -/
def buildRows (s : StringSt) : StringSt :=
  let s := s.zero 0x00A00000 0x200000
  let s := (List.range 16384).foldl (fun s a => s.setWord (xtRow a) a) s
  (List.range s.fabNnbr).foldl (fun s i =>
    let a := bits (s.nbrW i 0) 0 14
    let l := s.nbrList i
    l.zipIdx.foldl (fun s e => s.setWord (xtRow a + 32 + 4 * e.2) e.1) (s.setWord (xtRow a) (a + 65536 * l.length))) s

/-- RREF of an actuator in 0.25 ohm (R129). -/
def rrefOf (s : StringSt) (a : Nat) : Nat :=
  if s.actRole a = 0 ∨ s.actVmode a then 0 else if s.actNomres a = 0 then 1000 else s.actNomres a

/-- Words 0 to 2 of the actuator records that a descriptor fixes: VMODE, ROLE, RREF, PILOT, NOPILOT and PFS; RBOL and RMAX begin anew
(R148). -/
def buildActs (s : StringSt) : StringSt :=
  (List.range 16384).foldl (fun s a =>
    let w0 := putBits (putBit (s.word (actRec a)) 19 (s.actVmode a)) 24 8 (s.actRole a)
    let w1 := putBit (putBits (putBits (s.word (actRec a + 4)) 0 16 (s.rrefOf a)) 16 4 (s.actPilot a)) 20 (s.actNoPilot a)
    (((s.setWord (actRec a) w0).setWord (actRec a + 4) w1).setWord (actRec a + 8)
      (if s.actVmode a then 0 else 4 ^ bits w0 16 2 * s.rrefOf a)).setWord (actRec a + 32) 0) s

/-- TILE_MODE of tile `n` from the VMODE fields (R127), and TILE_THMEN from the THM records (R165). -/
def modeOf (s : StringSt) (n : Nat) : Nat :=
  (List.range 32).foldl (fun v g =>
    if (upFrom (2048 * n + 64 * g) 64).any fun a => decide (s.actRole a ≠ 0) && s.actVmode a then v + 2 ^ g else v) 0
def thmenOf (s : StringSt) (n : Nat) : Nat :=
  (List.range 8).foldl (fun v t => if bits (s.thmW (8 * n + t) 0) 0 8 = 0 then v else v + 2 ^ t) 0

/-- The VIS records of tile `n`'s pickups, as the tile takes them (R114). -/
def visOf (s : StringSt) (n : Nat) : Tab (List VisEnt) :=
  (List.range 256).filterMap fun m =>
    let l := (s.visEnts (256 * n + m)).map fun e => (⟨if e.1 / 2048 = n then some (e.1 % 2048) else none, e.2.2, e.2.1⟩ : VisEnt)
    if l.isEmpty then none else some (m, l)

end StringSt
end Sys2Proof.Machine
end

