-- ==== Sys2Proof/Machine/NetOps.lean ====
section
/-! DEFINITION. Network ports: ICT messages, the egress queues with their gates and books, and what waits for an ACK
(13_network.md R309 to R323). -/

namespace Sys2Proof.Machine

def PortUnit.queue (p : PortUnit) (q : Nat) : List OutFrame := Tab.get (fun _ => []) p.queues q
def PortUnit.setQueue (p : PortUnit) (q : Nat) (l : List OutFrame) : PortUnit := { p with queues := Tab.set (fun _ => []) p.queues q l }
def PortUnit.deficit (p : PortUnit) (q : Nat) : Nat := Tab.get (fun _ => 0) p.defs q
def PortUnit.setDeficit (p : PortUnit) (q v : Nat) : PortUnit := { p with defs := Tab.set (fun _ => 0) p.defs q v }

/-- Cells of a frame (R320). -/
def OutFrame.cells (f : OutFrame) : Nat := (f.len + 255) / 256

def PortUnit.cells (p : PortUnit) (q : Nat) : Nat := ((p.queue q).map OutFrame.cells).sum

/-- Cells of the frame being sent (R322). -/
def PortUnit.inflight (p : PortUnit) (now : Nat) : Nat := match p.flying with | some (_, f, e) => if now < e then f.cells else 0 | none => 0

def PortUnit.free (p : PortUnit) (now : Nat) : Nat := 6144 - p.inflight now - ((List.range 8).map p.cells).sum

namespace StringSt

def port (c : StringSt) (n : Nat) : PortUnit := if n = 0 then c.net.p0 else c.net.p1
def setPort (c : StringSt) (n : Nat) (p : PortUnit) : StringSt :=
  { c with net := if n = 0 then { c.net with p0 := p } else { c.net with p1 := p } }
def updPort (c : StringSt) (n : Nat) (f : PortUnit → PortUnit) : StringSt := c.setPort n (f (c.port n))

/-- ETH_CFG.MAXLEN as it acts. -/
def maxLen (c : StringSt) (n : Nat) : Nat := clampN 64 9216 (c.fld (Reg.ETH_CFG n) F.ETH_CFG.MAXLEN)
def tagged (c : StringSt) (n : Nat) : Bool := c.flag (Reg.ETH_CFG n) F.ETH_CFG.TAGGED
def linkUp (c : StringSt) (n : Nat) : Bool := c.flag (Reg.ETH_STAT n) F.ETH_STAT.LINK

/-! ## ICT messages (R309) -/

/-- Network key `k` (18_reset_boot_security.md R418): its word 0, and its HMAC key. -/
def netKeyWord (c : StringSt) (k : Nat) : Nat := c.peg (0x70002000 + 64 * k)
def netKey (c : StringSt) (k : Nat) : List Byte := ((List.range 8).map fun i => leBytes 4 (c.peg (0x70002000 + 64 * k + 32 + 4 * i))).flatten
def netKeyValid (c : StringSt) (k : Nat) : Bool := bit (c.netKeyWord k) 0

/-- The tag of a message without its tag. -/
def ictTag (c : StringSt) (k : Nat) (m : List Byte) : List Byte := (hmacSha256 (c.netKey k) m).take 16

/-- A message of the device: type, ring, key, SEQ, AUX, REPOST, TIME, payload. -/
def ictMsg (c : StringSt) (typ ring key seq aux : Nat) (repost : Bool) (time : Nat) (payload : List Byte) : List Byte :=
  let w := [1 + 256 * typ + 65536 * ring + 1048576 * key + 8388608 * c.id.idx + 16777216 * b2n repost, c.rd Reg.ICT_EPOCH, seq,
    payload.length + 65536 * aux] ++ ts96 time ++ [0]
  let m := (w.map (leBytes 4)).flatten ++ payload
  m ++ c.ictTag key m

def wordBytes (l : List Nat) : List Byte := (l.map (leBytes 4)).flatten

/-- Length of a frame with `k` bytes after its Ethernet header (R308), with padding to 64 bytes (R307). -/
def frameLen (c : StringSt) (n k : Nat) : Nat := max 64 (14 + (if c.tagged n then 4 else 0) + k + 4)

def cargoLen (c : StringSt) (n : Nat) : Cargo → Nat
  | .ict dest m => c.frameLen n ((if dest.v6 then 40 else 20) + 8 + m.length)
  | .arp _ _ => c.frameLen n 28
  | .nd _ _ => c.frameLen n (40 + 32)
  | .echo v6 _ _ b => c.frameLen n ((if v6 then 40 else 20) + 4 + b.length)
  | .ptp f => c.frameLen n (f.length - 14)

end StringSt

/-! ## Frames as they are sent (R307, R309) -/

/-- The sum of 16-bit words of the internet checksum, carries folded. -/
def inetSum : List Byte → Nat
  | a :: b :: l => let v := 256 * a.toNat + b.toNat + inetSum l; v % 65536 + v / 65536
  | [a] => 256 * a.toNat
  | [] => 0

/-- The internet checksum of bytes. -/
def inetCheck (l : List Byte) : List Byte := beBytes 2 (65535 - inetSum l)

/-- The header fields of a sent packet that no rule gives: free values (log entry 60). -/
structure FreeHdr where
  tos : Nat
  ident : Nat
  flags : Nat
  ttl : Nat
  sport : Nat
  deriving DecidableEq, Repr

/-- What the checksums of an upper layer cover besides it: a pseudo-header, by the packet's version. -/
def pseudoHdr (v6 : Bool) (src dst : List Byte) (proto len : Nat) : List Byte :=
  src ++ dst ++ (if v6 then beBytes 4 len ++ [0, 0, 0, BitVec.ofNat 8 proto] else [0, BitVec.ofNat 8 proto] ++ beBytes 2 len)

/-- An IP packet. -/
def ipPacket (h : FreeHdr) (v6 : Bool) (src dst : List Byte) (proto : Nat) (q : List Byte) : List Byte :=
  if v6 then
    beBytes 4 (0x60000000 + 1048576 * h.tos + h.ident) ++ beBytes 2 q.length ++ [BitVec.ofNat 8 proto, BitVec.ofNat 8 h.ttl] ++ src ++ dst ++ q
  else
    let a := [0x45, BitVec.ofNat 8 h.tos] ++ beBytes 2 (20 + q.length) ++ beBytes 2 h.ident ++ beBytes 2 (16384 * h.flags) ++
      [BitVec.ofNat 8 h.ttl, BitVec.ofNat 8 proto]
    a ++ inetCheck (a ++ src ++ dst) ++ src ++ dst ++ q

/-- A UDP datagram with its checksum. -/
def udpDatagram (h : FreeHdr) (v6 : Bool) (src dst : List Byte) (port : Nat) (m : List Byte) : List Byte :=
  let a := beBytes 2 h.sport ++ beBytes 2 port ++ beBytes 2 (8 + m.length)
  let k := inetCheck (pseudoHdr v6 src dst 17 (8 + m.length) ++ a ++ [0, 0] ++ m)
  a ++ (if k = [0, 0] then [0xFF, 0xFF] else k) ++ m

namespace StringSt

def ownMac (c : StringSt) (n : Nat) : List Byte := leBytes 4 (c.rd (Reg.ETH_MAC_L n)) ++ leBytes 2 (c.rd (Reg.ETH_MAC_H n))
def ownIp4 (c : StringSt) (n : Nat) : List Byte := leBytes 4 (c.rd (Reg.ETH_IP4 n))
def ownIp6 (c : StringSt) (n : Nat) : List Byte := ((List.range 4).map fun i => leBytes 4 (c.rd (Reg.ETH_IP6 n i))).flatten
def ownIp (c : StringSt) (n : Nat) (v6 : Bool) : List Byte := if v6 then c.ownIp6 n else c.ownIp4 n

/-- A frame is padded to its length, and its FCS is added (R307). -/
def sealFrame (f : List Byte) : List Byte :=
  let f := f ++ List.replicate (60 - f.length) 0
  f ++ leBytes 4 (crc32 f)

/-- The tag of a sent frame of queue `q`, where the port is tagged (R307, R325). -/
def sentTag (c : StringSt) (n q : Nat) : List Byte :=
  if c.tagged n then [0x81, 0x00] ++ beBytes 2 (8192 * c.fld (Reg.ETH_QCFG n q) F.ETH_QCFG.PCP + c.fld (Reg.ETH_CFG n) F.ETH_CFG.VID) else []

/-- The bytes of a frame of queue `q` of port `n`, from its destination MAC to its FCS (R307 to R309). -/
def frameBytes (c : StringSt) (n q : Nat) (h : FreeHdr) (g : Cargo) : List Byte :=
  let frame := fun (mac : List Byte) (typ : Nat) (p : List Byte) => sealFrame (mac ++ c.ownMac n ++ c.sentTag n q ++ beBytes 2 typ ++ p)
  let ip := fun (v6 : Bool) (mac dst : List Byte) (proto : Nat) (p : List Byte) =>
    frame mac (if v6 then 0x86DD else 0x0800) (ipPacket h v6 (c.ownIp n v6) dst proto p)
  match g with
  | .ict d m => ip d.v6 d.mac d.ip 17 (udpDatagram h d.v6 (c.ownIp n d.v6) d.ip d.udp m)
  | .arp mac a => frame mac 0x0806 ([0, 1, 8, 0, 6, 4, 0, 2] ++ c.ownMac n ++ c.ownIp4 n ++ mac ++ a)
  | .nd mac a =>
    -- a solicited advertisement of the port's address with its MAC
    let b := [0x60, 0, 0, 0] ++ c.ownIp6 n ++ [2, 1] ++ c.ownMac n
    ip true mac a 58 ([136, 0] ++ inetCheck (pseudoHdr true (c.ownIp6 n) a 58 32 ++ [136, 0, 0, 0] ++ b) ++ b)
  | .echo v6 mac a b =>
    let k : List Byte := if v6 then [129, 0] else [0, 0]
    let ps := if v6 then pseudoHdr true (c.ownIp6 n) a 58 (4 + b.length) else []
    ip v6 mac a (if v6 then 58 else 1) (k ++ inetCheck (ps ++ k ++ [0, 0] ++ b) ++ b)
  | .ptp f => sealFrame (f.take 12 ++ c.sentTag n q ++ f.drop 12)

/-- A Sync of one-step mode gets its originTimestamp as it is transmitted, and the UDP checksum of an IPv6 frame is computed again
(14_time.md R334); `f` from the destination MAC to the FCS. -/
def stampSync (c : StringSt) (n : Nat) (f : List Byte) : List Byte :=
  let o := if (f.drop 12).take 2 = [0x81, 0x00] then 16 else 12
  let typ := (f.drop o).take 2
  let ptp := o + 2 + if typ = [0x88, 0xF7] then 0 else if typ = [0x08, 0x00] then 28 else 48
  if !c.flag Reg.TIME_PTPCFG F.TIME_PTPCFG.ONESTEP ∨ ((f.getD ptp 0) &&& 0x0F) ≠ 0 then f
  else
    let t := c.txTime n
    let put := fun (l : List Byte) (a : Nat) (b : List Byte) => l.take a ++ b ++ l.drop (a + b.length)
    let g := put f (ptp + 34) (beBytes 6 (secOf t) ++ beBytes 4 (nsOf t))
    let g := if typ = [0x86, 0xDD] then
        let u := o + 42
        let len := 256 * (g.getD (u + 4) 0).toNat + (g.getD (u + 5) 0).toNat
        let g := put g (u + 6) [0, 0]
        put g (u + 6) (inetCheck (pseudoHdr true ((g.drop (o + 10)).take 16) ((g.drop (o + 26)).take 16) 17 len ++ (g.drop u).take len))
      else g
    sealFrame (g.take (g.length - 4))

/-- A free value of the string's ports (log entry 60). -/
def netDraw (c : StringSt) (bound : Nat) : Nat × StringSt :=
  ((Config.freeValue (3 + c.id.idx) c.net.drawn).toNat % bound, { c with net := { c.net with drawn := c.net.drawn + 1 } })

/-- The header fields of the next packet. -/
def freeHdr (c : StringSt) : FreeHdr × StringSt :=
  let (a, c) := c.netDraw 256
  let (b, c) := c.netDraw 65536
  let (d, c) := c.netDraw 2
  let (e, c) := c.netDraw 256
  let (f, c) := c.netDraw 65536
  (⟨a, b, d, e, f⟩, c)

/-- `k` of `all` cells that are not in use: which, the spec does not say (log entry 60). At most `fuel` cells are looked at. -/
def pickCells (all : Nat) (used : List Nat) : Nat → Nat → Nat → List Nat
  | 0, _, _ => []
  | _, 0, _ => []
  | fuel + 1, k + 1, v =>
    if used.contains v then pickCells all used fuel (k + 1) ((v + 1) % all) else v :: pickCells all used fuel k ((v + 1) % all)

/-- The bytes of a frame enter its cells, of 256 bytes from address `a` on (R320). -/
def fillCells (c : StringSt) (a : Nat) : List Nat → List Byte → StringSt
  | [], _ => c
  | k :: l, b => (c.setBytes (a + 256 * k) (b.take 256)).fillCells a l (b.drop 256)

/-! ## Gates (R318, R319) -/

/-- Transmit time of a frame of length `l`, in 2^-16 ns x 25 (R318). -/
def wire (c : StringSt) (n l : Nat) : Nat :=
  (l + 20) * 8 * nsT * (if c.flag (Reg.ETH_CFG n) F.ETH_CFG.SPEED then 250 else 100) / 100

end StringSt

/-- How long queue `q` stays open from a place in a list of entries, at most `n` entries. -/
def openRun (ents : List (Nat × Nat)) (q : Nat) : Nat → Nat → Nat
  | 0, _ => 0
  | n + 1, i =>
    let e := ents.getD (i % ents.length) (0, 0)
    if bit e.1 q then e.2 + openRun ents q n (i + 1) else 0

/-- The entry that a phase of the cycle lies in, and what is left of it in 2^-16 ns. -/
def entryAt : List (Nat × Nat) → Nat → Nat → Option (Nat × Nat)
  | [], _, _ => none
  | e :: l, i, ph => if ph < e.2 * nsT then some (i, e.2 * nsT - ph) else entryAt l (i + 1) (ph - e.2 * nsT)

/-- How long queue `q` stays open from instant `t` on, in 2^-16 ns; none: for ever. -/
def Gcl.openFor (g : Gcl) (q t : Nat) : Option Nat :=
  if g.ents.all fun e => bit e.1 q then none
  else
    let ph := (((t : Int) - (g.base : Int)) % ((g.cyc * nsT : Nat) : Int)).toNat
    match entryAt g.ents 0 ph with
    | some (i, left) =>
      if bit (g.ents.getD i (0, 0)).1 q then some (left + openRun g.ents q (g.ents.length - 1) (i + 1) * nsT) else some 0
    | none => some 0

/-- The longest window of queue `q`, in 2^-16 ns; none: always open (R319). -/
def Gcl.longest (g : Gcl) (q : Nat) : Option Nat :=
  if g.ents.all fun e => bit e.1 q then none
  else some ((List.range g.ents.length).foldl (fun m i => max m (openRun g.ents q g.ents.length i)) 0 * nsT)

namespace StringSt

/-- The gate list that is operational now: a checked one from its first cycle start on (R319, R324). -/
def gates (c : StringSt) (n : Nat) : Option Gcl :=
  match (c.port n).next with
  | some (g, start) => if start ≤ c.time then some g else (c.port n).op
  | none => (c.port n).op

/-- A frame of queue `q` may start now, as to its gate (R318). -/
def gateOpen (c : StringSt) (n q : Nat) (f : OutFrame) : Bool :=
  match c.gates n with
  | none => true
  | some g => match g.openFor q c.time with
    | none => true
    | some w => decide (c.wire n f.len ≤ 25 * w)

/-- Tokens of the Q6 cap, in 1/256 byte; none: no cap (R318). -/
def capBurst (c : StringSt) (n : Nat) : Nat := 256 * max (c.maxLen n) (64 * c.fld (Reg.ETH_Q6CAP n) F.ETH_Q6CAP.BURST)
def tokens (rate dt : Nat) : Nat := dt * (rate * 8000 * 256) / secT
def capTokens (c : StringSt) (n : Nat) : Option Nat :=
  let rate := c.fld (Reg.ETH_Q6CAP n) F.ETH_Q6CAP.RATE
  if rate = 0 then none
  else
    let p := c.port n
    some (min (c.capBurst n) (c.capBurst n - p.capLack + tokens rate (c.time - p.capAt)))

/-- The head of queue `q` may start now: its gate, and for Q6 the cap (R318). -/
def headReady (c : StringSt) (n q : Nat) (f : OutFrame) : Bool :=
  c.gateOpen n q f && (decide (q ≠ 6) || (match c.capTokens n with | some k => decide (256 * f.len ≤ k) | none => true))

/-- ETH_QSTAT.HELD. -/
def headHeld (c : StringSt) (n q : Nat) : Bool :=
  match (c.port n).queue q with
  | f :: _ => !c.headReady n q f
  | [] => false

/-! ## Queues (R320) and missing numbers (R316) -/

/-- Queue `q` would take a frame of `len` bytes. -/
def hasRoom (c : StringSt) (n q len : Nat) : Bool :=
  let p := c.port n
  let k := (len + 255) / 256
  decide (k ≤ p.free c.time) && decide (p.cells q + k ≤ min 6144 (c.fld (Reg.ETH_QCFG n q) F.ETH_QCFG.LIMIT))

def countTail (c : StringSt) (n q k : Nat) : StringSt := c.addSat (Reg.ETH_QDROP n q) F.ETH_QDROP.TAIL k

/-- A frame joins the tail of a queue. -/
def putFrame (c : StringSt) (n q : Nat) (f : OutFrame) : StringSt :=
  c.updPort n fun p =>
    let p := if q < 6 ∧ (p.queue q).isEmpty then { p with drr := (p.drr.filter fun i => i != q) ++ [q] }.setDeficit q 0 else p
    p.setQueue q (p.queue q ++ [f])

/-- The cells of port `n` in use. -/
def usedCells (c : StringSt) (n : Nat) : List Nat :=
  let p := c.port n
  ((List.range 8).map fun q => ((p.queue q).map OutFrame.place).flatten).flatten ++
    match p.flying with | some (_, f, e) => if c.time < e then f.place else [] | none => []

/-- A frame as it is queued, with its bytes in cells (R320). -/
def makeFrame (c : StringSt) (n q : Nat) (cargo : Cargo) (tel : Option Tel) : OutFrame × StringSt :=
  let (h, c) := c.freeHdr
  let (v, c) := c.netDraw 6144
  let b := c.frameBytes n q h cargo
  let len := c.cargoLen n cargo
  let at_ := pickCells 6144 (c.usedCells n) 6144 ((len + 255) / 256) v
  (⟨len, c.time, cargo, tel, b, at_⟩, c.fillCells (0x01800000 + 0x180000 * n) at_ b)

/-- A frame is queued, or refused and counted (R320); with the link down it is discarded (R323). -/
def enqueue (c : StringSt) (n q : Nat) (cargo : Cargo) (tel : Option Tel) : StringSt × Bool :=
  if c.linkUp n && c.hasRoom n q (c.cargoLen n cargo) then
    let (f, c) := c.makeFrame n q cargo tel
    (c.putFrame n q f, true)
  else (c.countTail n q 1, false)

/-- One ICT message leaves by the port of its peer. -/
def sendIct (c : StringSt) (dest : Peer) (msg : List Byte) : StringSt := (c.enqueue dest.port 6 (.ict dest msg) none).1

/-- Place of a stream on a port in the tables of R316. -/
def telKey (n s : Nat) : Nat := 16 * n + s
def missing (c : StringSt) (n s : Nat) : Nat × Nat := Tab.get (fun _ => (0, 0)) c.net.miss (telKey n s)
def setMissing (c : StringSt) (n s : Nat) (v : Nat × Nat) : StringSt :=
  { c with net := { c.net with miss := Tab.set (fun _ => (0, 0)) c.net.miss (telKey n s) v } }

/-- `k` numbers of a stream from `first` on are missing on a port; the first is the earlier one modulo 2^32. -/
def addMissing (c : StringSt) (n s first k : Nat) : StringSt :=
  let m := c.missing n s
  if k = 0 then c
  else if m.2 = 0 then c.setMissing n s (first, k)
  else c.setMissing n s (if (m.1 + 4294967296 - first) % 4294967296 < 2147483648 then first else m.1, m.2 + k)

/-- A GAP message (R310, R316). -/
def gapMsg (c : StringSt) (dest : Peer) (s first count : Nat) : List Byte :=
  c.ictMsg 0xA1 0 dest.key 0 s false c.time (wordBytes [first, count])

/-- A telemetry message with number `seq` for a stream is queued on port `n` for `to`, after the GAP that is due (R316). -/
def queueTelemetry (c : StringSt) (n q s seq t : Nat) (dest : Peer) (payload : List Byte) : StringSt :=
  let k := telKey n s
  let c := match Tab.get (fun _ => none) c.net.expect k with
    | some e => c.addMissing n s e ((seq + 4294967296 - e) % 4294967296)
    | none => c
  let c := { c with net := { c.net with expect := Tab.set (fun _ => none) c.net.expect k (some ((seq + 1) % 4294967296)) } }
  let m := c.missing n s
  let (c, ok) :=
    if m.2 = 0 then (c, true)
    else
      let (c, ok) := c.enqueue n q (.ict dest (c.gapMsg dest s m.1 m.2)) (some ⟨s, m.1, m.2, true⟩)
      (if ok then c.setMissing n s (0, 0) else c, ok)
  if ok then
    let (c, ok) := c.enqueue n q (.ict dest (c.ictMsg 0xA0 0 dest.key seq s false t payload)) (some ⟨s, seq, 1, false⟩)
    if ok then c else c.addMissing n s seq 1
  else c.addMissing n s seq 1

/-- Numbers that a frame dropped at the head stood for are missing (R316). The next message of the stream in the queue gets a GAP before it, or
its GAP takes them; where a GAP is dropped, the message behind it, which is longer and dropped too, stands for them. Numbers with nothing
queued behind them wait for the stream's next message. -/
def lostTel (c : StringSt) (n q : Nat) (v : Tel) : StringSt :=
  let l := (c.port n).queue q
  let a := l.takeWhile fun f => !(f.tel.any fun u => u.stream == v.stream)
  match l.drop a.length with
  | f :: r => match f.cargo, f.tel with
    | .ict dest _, some u =>
      if v.gap && !u.gap then
        c.updPort n fun p => p.setQueue q (a ++ [{ f with tel := some ⟨u.stream, v.first, v.count + u.count, false⟩ }] ++ r)
      else
        let k := v.count + if u.gap then u.count else 0
        let (g, c) := c.makeFrame n q (.ict dest (c.gapMsg dest v.stream v.first k)) (some ⟨v.stream, v.first, k, true⟩)
        let g := { g with since := f.since }
        c.updPort n fun p => p.setQueue q (if u.gap then a ++ [g] ++ r else a ++ [g] ++ f :: r)
    | _, _ => c.addMissing n v.stream v.first v.count
  | [] => c.addMissing n v.stream v.first v.count

/-- The head of a queue leaves it; an emptied queue leaves the round robin (R318). -/
def popFrame (c : StringSt) (n q : Nat) : StringSt :=
  c.updPort n fun p =>
    let l := (p.queue q).drop 1
    let p := p.setQueue q l
    if l.isEmpty ∧ q < 6 then { p with drr := p.drr.filter fun i => i != q, served := if p.drr.head? = some q then false else p.served }.setDeficit q 0
    else p

/-- Heads that no window of their queue fits are dropped (R319), at most `fuel` of a queue. -/
def dropOversize (c : StringSt) (n q : Nat) : Nat → StringSt
  | 0 => c
  | fuel + 1 =>
    match (c.gates n).bind fun g => g.longest q, (c.port n).queue q with
    | some w, f :: _ =>
      if c.wire n f.len ≤ 25 * w then c
      else
        let c := (c.popFrame n q).addSat (Reg.ETH_QDROP n q) F.ETH_QDROP.OVSG 1
        (match f.tel with | some v => c.lostTel n q v | none => c).dropOversize n q fuel
    | _, _ => c

/-- A GAP is sent, and counted with its numbers (R316, R326). -/
def countGap (c : StringSt) (f : OutFrame) : StringSt :=
  match f.tel with
  | some v => if v.gap then (c.addSat Reg.ICT_TGAP F.ICT_TGAP.LO 1).addSat Reg.ICT_TGAP F.ICT_TGAP.HI v.count else c
  | none => c

/-- The head of queue `q` is sent: the link is busy until its last byte has left. -/
def sendHead (c : StringSt) (n q : Nat) (f : OutFrame) : StringSt :=
  let e := c.time + (c.wire n f.len + 24) / 25
  let f := match f.cargo with | .ptp _ => { f with bytes := c.stampSync n f.bytes } | _ => f
  ((c.popFrame n q).updPort n fun p => { p with flying := some (q, f, e) }).countGap f

/-- Round robin over Q0 to Q5 (R318): the next queue whose head is sent, at most `fuel` visits; `idle` visits in a row found no head that
may start. -/
def roundRobin (c : StringSt) (n : Nat) : Nat → Nat → StringSt
  | 0, _ => c
  | fuel + 1, idle =>
    let p := c.port n
    match p.drr with
    | [] => c
    | q :: l =>
      let rotate := fun (c : StringSt) => c.updPort n fun p => { p with drr := l ++ [q], served := false }
      match p.queue q with
      | [] => (rotate c).roundRobin n fuel (idle + 1)
      | f :: _ =>
        if !c.headReady n q f then
          if p.drr.length ≤ idle + 1 then rotate c else (rotate c).roundRobin n fuel (idle + 1)
        else
          let quantum := max 64 (c.fld (Reg.ETH_QCFG n q) F.ETH_QCFG.QUANTUM)
          let d := p.deficit q + if p.served then 0 else quantum
          if f.len ≤ d then
            (c.updPort n fun p => { p.setDeficit q (d - f.len) with served := true }).sendHead n q f
          else (rotate (c.updPort n fun p => p.setDeficit q d)).roundRobin n fuel 0

/-- A checked gate list becomes operational at its first cycle start (R319). -/
def gclSwitch (c : StringSt) (n : Nat) : StringSt :=
  match (c.port n).next with
  | some (g, start) =>
    if start ≤ c.time then
      (c.setFld (Reg.ETH_GCLCFG n) F.ETH_GCLCFG.PEND 0).updPort n fun p => { p with op := some g, next := none }
    else c
  | none => c

/-- EGRESS_PICK: the link of port `n` is free, and the next frame is picked (R318). -/
def egressPick (c : StringSt) (n : Nat) : StringSt :=
  if !c.linkUp n ∨ (c.port n).inflight c.time ≠ 0 then c
  else
    let c := (List.range 8).foldl (fun c q => c.dropOversize n q 12288) c
    let ready := fun (q : Nat) => match (c.port n).queue q with
      | f :: _ => if c.headReady n q f then some f else none
      | [] => none
    match ready 7, ready 6 with
    | some f, _ => c.sendHead n 7 f
    | none, some f =>
      let c := match c.capTokens n with
        | some k => c.updPort n fun p => { p with capLack := c.capBurst n - (k - 256 * f.len), capAt := c.time }
        | none => c
      c.sendHead n 6 f
    | none, none => c.roundRobin n 4096 0

/-! ## Streams (R315, R302) -/

/-- Destination of stream `s` on port `n` (ICT_DST). -/
def streamPeer (c : StringSt) (n s : Nat) : Peer :=
  let d := c.fld (Reg.ICT_TSTR s) F.ICT_TSTR.DST
  let w := fun (i : Nat) => c.rd (Reg.ICT_DST d i)
  let v6 := bit (w 7) 0
  { port := n
    v6 := v6
    mac := leBytes 4 (w 0) ++ leBytes 2 (w 1)
    ip := if v6 then ((List.range 4).map fun i => leBytes 4 (w (3 + i))).flatten else leBytes 4 (w 2)
    udp := w 1 / 65536
    key := c.fld (Reg.ICT_TSTR s) F.ICT_TSTR.KEYID }

/-- The number `seq` of a snapshot goes out on every port of the stream. -/
def sendSnap (c : StringSt) (s seq t : Nat) (payload : List Byte) : StringSt :=
  (List.range 2).foldl (fun (c : StringSt) n =>
    if bit (c.fld (Reg.ICT_TSTR s) F.ICT_TSTR.PORTS) n then
      c.queueTelemetry n (c.fld (Reg.ICT_TSTR s) F.ICT_TSTR.QUEUE) s seq t (c.streamPeer n s) payload
    else c) c

/-- The longest wait of the standby for a number (R302). -/
abbrev snapWait : Nat := 100 * usT

/-- The standby sends a snapshot whose number has come, in time. -/
def matchSnap (c : StringSt) (s : Nat) : StringSt :=
  match c.net.snaps.find? fun v => v.stream == s && c.net.nums.any fun m => m.1 == s && m.2.2 == v.t with
  | none => c
  | some v =>
    let seq := match c.net.nums.find? fun m => m.1 == s && m.2.2 == v.t with | some m => m.2.1 | none => 0
    let c := { c with net := { c.net with
      snaps := c.net.snaps.filter fun w => !(w.stream == s && w.t == v.t)
      nums := c.net.nums.filter fun m => !(m.1 == s && m.2.2 == v.t) } }
    if c.time ≤ v.t + snapWait then c.sendSnap s seq v.t v.payload else c

/-! ## Acknowledgements and completions (R312, R314) -/

/-- ICT_NEXT of a network ring, 0 of any other. -/
def ictNext (c : StringSt) (r : Nat) : Nat := if 12 ≤ r ∧ r < 16 then c.rd (Reg.ICT_NEXT (r - 12)) else 0

/-- An ACK (R310, R312): ring, the CSEQ answered, result, first slot. -/
def sendAck (c : StringSt) (dest : Peer) (ring cseq result slot : Nat) : StringSt :=
  let c := if result = 1 then c.addSat Reg.ICT_CNT2 F.ICT_CNT2.LO 1
    else if result = 0 then c else c.addSat Reg.ICT_CNT F.ICT_CNT.HI 1
  c.sendIct dest (c.ictMsg 0x81 ring dest.key cseq result false c.time (wordBytes [c.ictNext ring, slot]))

/-- The doorbell of an ACK still waits: for its copy (R84), or for a fencing record (R94). -/
def ackHeld (c : StringSt) (a : AckWait) : Bool :=
  c.ring.dbWait.contains (a.ring, a.prod, a.cmd) || c.ring.kept.contains (a.ring, a.prod, a.cmd)

/-- ACKs whose doorbell has been accepted and mirrored are sent (R312). -/
def settleAcks (c : StringSt) : StringSt :=
  let due := c.net.acks.filter fun a => !c.ackHeld a
  let c := { c with net := { c.net with acks := c.net.acks.filter c.ackHeld } }
  due.foldl (fun c a => c.sendAck a.peer a.ring a.cseq 0 a.slot) c

/-- A doorbell that is refused draws no ACK. -/
def dropAck (c : StringSt) (ring prod cmd : Nat) : StringSt :=
  { c with net := { c.net with acks := c.net.acks.filter fun a => !decide (a.ring = ring ∧ a.prod = prod ∧ a.cmd = cmd) } }

/-- A string keeps the latest 256 records of a network ring (R314). -/
def keepRecordOf (c : StringSt) (ring gseq : Nat) (w : List Nat) : StringSt :=
  if ring < 12 then c
  else
    let l := Tab.get (fun _ => []) c.net.kept ring
    { c with net := { c.net with kept := Tab.set (fun _ => []) c.net.kept ring (((gseq, w) :: l).take 256) } }

/-- A COMPLETION of a record goes to the source of the ring's latest accepted command (R314). -/
def sendCompletion (c : StringSt) (ring : Nat) (w : List Nat) : StringSt :=
  match Tab.get (fun _ => none) c.net.peers ring with
  | some dest => c.sendIct dest (c.ictMsg 0x85 ring dest.key 0 0 (bit (w.getD 0 0) 29) c.time (wordBytes w))
  | none => c

/-- A record of ring `n` is posted: a network ring's is kept and sent (R314). -/
def noteRecord (c : StringSt) (ring gseq : Nat) (w : List Nat) : StringSt :=
  if ring < 12 ∨ !c.flag Reg.ICT_CFG F.ICT_CFG.EN then c.keepRecordOf ring gseq w
  else (c.keepRecordOf ring gseq w).sendCompletion ring w

/-- The ICT state of a network ring that a mirrored doorbell carries. -/
def ictMirror (c : StringSt) (r : Nat) : Option IctMirror :=
  (Tab.get (fun _ => none) c.net.peers r).map fun p => ⟨c.rd Reg.ICT_EPOCH, c.ictNext r, p⟩

def takeMirror (c : StringSt) (r : Nat) (m : Option IctMirror) : StringSt :=
  match m with
  | some m =>
    let c := (c.wr Reg.ICT_EPOCH m.epoch).wr (Reg.ICT_NEXT (r - 12)) m.next
    { c with net := { c.net with peers := Tab.set (fun _ => none) c.net.peers r (some m.peer) } }
  | none => c

end StringSt
end Sys2Proof.Machine
end

