-- ==== Sys2Proof/Machine/Rings.lean ====
section
/-! DEFINITION. Command rings, claims, retirement and completion records (03_rings_ordering.md R77 to R96). -/

namespace Sys2Proof.Machine

/-- STATUS of a completion record (R88). -/
abbrev recDONE : Nat := 0
abbrev recFAULT : Nat := 1
abbrev recHDRERR : Nat := 2
abbrev recKILLED : Nat := 3
abbrev recSKIPPED : Nat := 4
abbrev recFLUSHED : Nat := 5

/-- Address of slot `k` of ring `n` (R77). -/
def slotAddr (n k : Nat) : Nat := 0x00400000 + n * 0x10000 + k % 256 * 0x100

/-- A phrase header's fields (R79). -/
structure Hdr where
  magic : Nat
  kind : Nat
  nslot : Nat
  barrier : Bool
  ninsn : Nat
  tag : Nat
  lead : Nat
  budget : Nat
  args : List Nat
  /-- the must-be-0 fields, and for a pad its pad fields, are 0 -/
  clean : Bool
  deriving DecidableEq, Repr

/-- The header in eight words (R79). IBUDGET is in units of 1,024 instructions, 0 meaning 64 units. -/
def Hdr.of (w : List Nat) : Hdr :=
  let w0 := w.getD 0 0
  let kind := bits w0 8 4
  let pad := decide (kind = 1)
  { magic := bits w0 0 8
    kind := kind
    nslot := bits w0 16 5
    barrier := bit w0 24
    ninsn := bits (w.getD 1 0) 0 16
    tag := bits (w.getD 1 0) 16 16
    lead := bits (w.getD 2 0) 0 16
    budget := (if bits (w.getD 2 0) 16 16 = 0 then 64 else bits (w.getD 2 0) 16 16) * 1024
    args := (w.drop 4).take 4
    clean := decide (bits w0 12 4 = 0) && decide (bits w0 21 3 = 0) && decide (bits w0 25 7 = 0) && decide (w.getD 3 0 = 0) &&
      (!pad || (!bit w0 24 && (w.drop 2).all fun v => decide (v = 0))) }

/-- The detail code of the first check of R80 that a header at slot `k` fails; 0 where it is valid. -/
def Hdr.check (h : Hdr) (k : Nat) : Nat :=
  if h.magic ≠ 0x5A then 1
  else if 1 < h.kind then 2
  else if h.nslot < 1 ∨ 16 < h.nslot then 3
  else if (h.kind = 0 ∧ (h.ninsn < 1 ∨ 1016 < h.ninsn)) ∨ (h.kind = 1 ∧ h.ninsn ≠ 0) ∨ 256 * h.nslot < 32 + 4 * h.ninsn then 4
  else if !h.clean then 5
  else if 256 < k + h.nslot then 6
  else 0

/-- Difference of two slot counts (R82). -/
def cntSub (a b : Nat) : Nat := (a + 65536 - b % 65536) % 65536

/-- A record with nothing bound to a frame and nothing to wait for. -/
def Rec.plain (ring status code slot nslot tag gseq : Nat) (cqEn : Bool) (cqBase : Nat) : Rec :=
  ⟨ring, status, code, slot, nslot, tag, gseq, 0, 0, 0, cqEn, cqBase, none, false, none, [], true, true, true, false, 0, false⟩

namespace StringSt

def ringProd (s : StringSt) (n : Nat) : Nat := s.fld (Reg.RING_DB n) F.RING_DB.PROD
def ringCons (s : StringSt) (n : Nat) : Nat := s.fld (Reg.RING_STAT n) F.RING_STAT.CONS
def fenced (s : StringSt) (n : Nat) : Bool := s.flag (Reg.RING_STAT n) F.RING_STAT.FENCE
def waitb (s : StringSt) (n : Nat) : Bool := s.flag (Reg.RING_STAT n) F.RING_STAT.WAITB
def ringEn (s : StringSt) (n : Nat) : Bool := bit (s.rd Reg.RING_EN) n
def setCons (s : StringSt) (n c : Nat) : StringSt := s.setFld (Reg.RING_STAT n) F.RING_STAT.CONS (c % 65536)

/-- The header of slot `k` of ring `n`. -/
def hdr (s : StringSt) (n k : Nat) : Hdr := Hdr.of (s.words (slotAddr n k) 8)

def cqEn (s : StringSt) (n : Nat) : Bool := s.flag (Reg.RING_CQCFG n) F.RING_CQCFG.EN
def cqBase (s : StringSt) (n : Nat) : Nat := s.rd (Reg.RING_CQBASE_L n) + 4294967296 * s.rd (Reg.RING_CQBASE_H n)

/-- RING_GSEQ and RING_COMMIT (R85, R86). -/
def gseqNext (s : StringSt) : Nat := s.rd Reg.RING_GSEQ_L + 4294967296 * s.rd Reg.RING_GSEQ_H
def commitSeq (s : StringSt) : Nat := s.rd Reg.RING_COMMIT_L + 4294967296 * s.rd Reg.RING_COMMIT_H
def setGseq (s : StringSt) (v : Nat) : StringSt := (s.wr Reg.RING_GSEQ_L v).wr Reg.RING_GSEQ_H (v / 4294967296)
def setCommit (s : StringSt) (v : Nat) : StringSt := (s.wr Reg.RING_COMMIT_L v).wr Reg.RING_COMMIT_H (v / 4294967296)

/-- Phrases in flight, by ring. -/
def inFlight (s : StringSt) : List (Nat × Flight) :=
  (List.range 16).filterMap fun n => (s.flight n).map fun f => (n, f)

/-- It claims phrases: ACTIVE, or in HANDOVER before ACCEPT (R78, R291); claiming is not held by a join (R293), and the boundary of
its seizure has come (R290). -/
def claims (s : StringSt) : Bool :=
  (decide (s.role = rACTIVE) || (decide (s.role = rHANDOVER) && !(s.red.xfer.any fun x => x.accepted))) && !s.red.joinHeld &&
    decide (s.red.claimFrom ≤ s.time)

/-- Ring `n` is ready (R78): its next slot, header and the detail code of a header that fails R80. -/
def ready (s : StringSt) (n : Nat) : Option (Nat × Hdr × Nat) :=
  if s.ringEn n && !s.fenced n && (s.flight n).isNone then
    let k := s.ringCons n % 256
    let h := s.hdr n k
    let det := h.check k
    let avail := cntSub (s.ringProd n) (s.ringCons n)
    if (if det = 0 then h.nslot else 1) ≤ avail ∧ 0 < avail then some (k, h, det) else none
  else none

/-- The order in which rings are served (R78): a ring whose BARRIER phrase waits, then 0 to 3, then 4 to 15 after the ring served
last. -/
def ringOrder (s : StringSt) : List Nat :=
  let l := List.range 4 ++ (List.range 12).map fun i => 4 + (s.ring.rr + i + 9) % 12
  (l.filter s.waitb) ++ l.filter fun n => !s.waitb n

/-- The phrase or pad that the rules choose next, its ring, slot, header and detail code, whether or not a BARRIER holds it. -/
def chosen (s : StringSt) : Option (Nat × Nat × Hdr × Nat) :=
  if !s.claims || s.inFlight.any (fun e => e.2.barrier) then none
  else s.ringOrder.findSome? fun n => (s.ready n).map fun r => (n, r)

/-- The chosen phrase is a BARRIER phrase that waits for records (R79). -/
def barred (s : StringSt) (c : Nat × Nat × Hdr × Nat) : Bool :=
  c.2.2.1.barrier && decide (c.2.2.2 = 0) && decide (c.2.2.1.kind = 0) && !s.inFlight.isEmpty

/-- The next phrase or pad to claim (R78, R79; RING_CLAIM). -/
def nextClaim (s : StringSt) : Option (Nat × Nat × Hdr × Nat) :=
  match s.chosen with
  | some c => if s.barred c then none else some c
  | none => none

/-- The phrase that a claiming load would claim (RING_CLAIM): pads and headers that fail R80, which it passes first, are looked past (log
entry 98). -/
def nextPhrase : Nat → StringSt → Option (Nat × Nat)
  | 0, _ => none
  | fuel + 1, s =>
    match s.nextClaim with
    | none => none
    | some (n, k, h, det) =>
      if det = 0 ∧ h.kind = 0 then some (n, k)
      else
        let s := { s with ring := { s.ring with rr := if 4 ≤ n then n else s.ring.rr } }
        nextPhrase fuel (if det = 0 then s.setCons n (s.ringCons n + h.nslot) else s.setFld (Reg.RING_STAT n) F.RING_STAT.FENCE 1)

/-- Sets WAITB in the ring whose BARRIER phrase has come to be chosen and waits (R78); a ring that is ready no more does not wait. -/
def reselect (s : StringSt) : StringSt :=
  let s := (List.range 16).foldl (fun (s : StringSt) n =>
    if s.waitb n && (s.ready n).isNone then s.setFld (Reg.RING_STAT n) F.RING_STAT.WAITB 0 else s) s
  match s.chosen with
  | some c => if s.barred c then s.setFld (Reg.RING_STAT c.1) F.RING_STAT.WAITB 1 else s
  | none => s

/-- The 256 bytes of each of `n` slots of a ring from slot count `c`. -/
def slotBytes (s : StringSt) (r c n : Nat) : List (Nat × List Byte) :=
  (List.range n).map fun i => ((c + i) % 256, s.bytes (slotAddr r (c + i)) 256)

/-! ## Doorbells (R82, R84, R94) -/

/-- Producer, consumer and fence of ring `n` as the doorbell writes accepted before leave them, those that wait for the standby's
acknowledgement among them (R84, R94, R95). -/
def ringAfter (s : StringSt) (n : Nat) : Nat × Nat × Bool :=
  (s.ring.dbWait.filter fun e => e.1 == n).foldl (fun v e =>
    if e.2.2 = 2 then (v.1, v.1, false) else (e.2.1, v.2.1, v.2.2 && decide (e.2.2 ≠ 1)))
    (s.ringProd n, s.ringCons n, s.fenced n)

/-- The producer check of R82, for a producer A, a consumer C and a fence. -/
def prodOk (v : Nat × Nat × Bool) (prod cmd : Nat) : Bool :=
  decide (cntSub prod v.2.1 ≤ 256) && (decide (cntSub v.1 v.2.1 ≤ cntSub prod v.2.1) || (v.2.2 && decide (cmd = 1)))

/-- An accepted producer, with CMD 1 clearing the fence (R82, R94). -/
def setProd (s : StringSt) (n prod cmd : Nat) : StringSt :=
  let s := s.setFld (Reg.RING_DB n) F.RING_DB.PROD prod
  let s := if cmd = 1 then s.setFld (Reg.RING_STAT n) F.RING_STAT.FENCE 0 else s
  s.reselect

/-- The fence of ring `n` clears (R94). -/
def clearFence (s : StringSt) (n : Nat) : StringSt := s.setFld (Reg.RING_STAT n) F.RING_STAT.FENCE 0

/-- Ring `n` of string `p`, its published slots and its ICT state are copied (R84, R293). -/
def ringCopy (s p : StringSt) (n : Nat) : StringSt :=
  let l := p.slotBytes n (p.ringCons n) (cntSub (p.ringProd n) (p.ringCons n))
  let s := l.foldl (fun s e => s.setBytes (slotAddr n e.1) e.2) s
  ([Reg.RING_DB n, Reg.RING_STAT n, Reg.RING_CQCFG n].foldl (fun s o => s.wr o (p.rd o)) s).takeMirror n (p.ictMirror n)

/-- A doorbell write refused (R82). -/
def refuseDb (s : StringSt) : StringSt := s.addSat Reg.RING_DISC F.RING_DISC.DBREF 1

end StringSt

/-! ## Completion records (R88 to R90) -/

/-- A record is posted: the count of its queue where it has one, CONS, RING_LSEQ, and the end of its phrase's flight (R89, R90, R96). -/
def StringSt.recordDone (c : StringSt) (r : Rec) : StringSt :=
  let n := r.ring
  let c := if r.cqEn && r.oldCnt.isNone then c.addMod (Reg.RING_CQCFG n) F.RING_CQCFG.CNT 1 else c
  let c := c.setCons n (c.ringCons n + r.nslot)
  let c := if r.gseq = 0 then c
    else (c.wr (Reg.RING_LSEQ_L n) r.gseq).wr (Reg.RING_LSEQ_H n) (r.gseq / 4294967296)
  let c := match c.flight n with
    | some f => if f.gseq = r.gseq ∧ r.gseq ≠ 0 then c.setFlight n none else c
    | none => c
  { c with ring := { c.ring with recs := c.ring.recs.filter fun q => decide (q ≠ r) } }

/-- The words of a record (R88). -/
def Rec.words (r : Rec) (x : Str) (phase : Bool) : List Nat :=
  let (ens, esec) := match r.bound, r.eff with
    | true, some e => (nsOf e, secOf e % 65536)
    | _, _ => (0, 0)
  [r.status + 256 * r.code + 65536 * r.slot + 16777216 * r.ring + 268435456 * x.idx + 536870912 * b2n r.repost +
      2147483648 * b2n phase,
    r.tag + 65536 * r.nslot, r.gseq % 4294967296, r.gseq / 4294967296, r.result, r.fpc, ens, esec + 65536 * r.info]

/-- A record that string `x` has posted, on the string that holds its copy (R96, R314). -/
def StringSt.posted (c : StringSt) (x : Str) (r : Rec) : StringSt :=
  let cnt := r.oldCnt.getD (c.fld (Reg.RING_CQCFG r.ring) F.RING_CQCFG.CNT)
  (c.keepRecordOf r.ring r.gseq (r.words x (decide (cnt / 256 % 2 = 0)))).recordDone r

namespace State

/-- String `x` posts a record (R89, R90): words 1 to 7, then word 0, to host memory; then CONS and RING_LSEQ; then, joined, a
posted mark. A record of a pad or a flush reaches the standby with its mark (R96; log entry 16). One that the former active string has
posted is noted as posted. -/
def post (s : State) (x : Str) (r : Rec) : State :=
  let c := s.str x
  let n := r.ring
  let cnt := r.oldCnt.getD (c.fld (Reg.RING_CQCFG n) F.RING_CQCFG.CNT)
  let w := r.words x (decide (cnt / 256 % 2 = 0))
  let a := r.cqBase + 32 * (cnt % 256)
  if r.marked then s.updStr x fun c => (c.posted x.other r).reselect
  else
    let s := if r.cqEn then { s with hostMem := (s.hostMem.writeWords (a + 4) (w.drop 1)).setWord a (w.getD 0 0) } else s
    let c := (c.recordDone r).noteRecord n r.gseq w
    let s := s.setStr x c
    let s := if r.gseq = 0 ∧ c.joined then
        s.updStr x.other fun p => { p with ring := { p.ring with recs := p.ring.recs ++ [r] } }
      else s
    s.updStr x fun c => (if c.joined then c.send (.posted n r.gseq r.slot r.nslot) else c).reselect

/-- String `x` acts on an accepted doorbell write (R82, R94). -/
def acceptDb (s : State) (x : Str) (n prod cmd : Nat) : State :=
  if cmd = 2 then
    let c := s.str x
    let k := cntSub (c.ringProd n) (c.ringCons n)
    let s := s.updStr x fun c => c.clearFence n
    if k = 0 then s.updStr x StringSt.reselect
    else s.post x (Rec.plain n recFLUSHED 0 (c.ringCons n % 256) k 0 0 (c.cqEn n) (c.cqBase n))
  else s.updStr x fun c => c.setProd n prod cmd

/-- String `x` serves phrases and its partner holds the bulk state of a join (R293). -/
def forwards (s : State) (x : Str) : Bool :=
  let p := s.str x.other
  (s.str x).holds && decide (p.role = rJOINING ∧ 6 ≤ p.fld Reg.RED_JOIN F.RED_JOIN.STEP)

/-- A doorbell write on string `x` is judged against the state that the one before leaves (R82, R94, R95) and, where it is accepted, mirrored
or acted on (R84). A string that holds the bulk state of a join gets its copy at once (R293). -/
def judgeDb (s : State) (x : Str) (n prod cmd : Nat) : State :=
  let c := s.str x
  let v := c.ringAfter n
  if cmd = 3 ∨ (cmd ≠ 0 ∧ !v.2.2) ∨ (cmd ≠ 2 ∧ !StringSt.prodOk v prod cmd) then s.updStr x fun c => c.refuseDb.dropAck n prod cmd
  else if c.holds && c.joined then
    s.updStr x fun c =>
      let slots := if cmd = 2 then [] else c.slotBytes n v.2.1 (cntSub prod v.2.1)
      ({ c with ring := { c.ring with dbWait := c.ring.dbWait ++ [(n, prod, cmd)] } }).send (.doorbell n prod cmd slots (c.ictMirror n))
  else
    let s := s.acceptDb x n prod cmd
    if s.forwards x then s.updStr x.other fun p => p.ringCopy (s.str x) n else s

/-- A doorbell write reaches ring `n` of string `x`. From the host it is accepted for rings 4 to 11 only (R446), and discarded on
the standby (R84). A clearing write that meets a fencing record still to be posted is kept (R94). -/
def doorbell (s : State) (x : Str) (n prod cmd : Nat) (host : Bool) : State :=
  let c := s.str x
  if host ∧ (n < 4 ∨ 11 < n) then s
  else if host ∧ c.role = rSTANDBY then s.updStr x fun c => c.addSat Reg.RING_DISC F.RING_DISC.STBYWR 1
  else if (cmd = 1 ∨ cmd = 2) ∧ c.fenced n ∧ (c.flight n).isSome then
    s.updStr x fun c => { c with ring := { c.ring with kept := c.ring.kept ++ [(n, prod, cmd)] } }
  else s.judgeDb x n prod cmd

/-- Posts a record, and then judges the clearing writes kept for its ring (R94). -/
def postKept (s : State) (x : Str) (r : Rec) : State :=
  let s := s.post x r
  let c := s.str x
  if (c.flight r.ring).isSome then s
  else
    let k := c.ring.kept.filter fun e => e.1 == r.ring
    let s := s.updStr x fun c => { c with ring := { c.ring with kept := c.ring.kept.filter fun e => e.1 != r.ring } }
    (k.foldl (fun s e => s.judgeDb x e.1 e.2.1 e.2.2) s).updStr x StringSt.settleAcks

end State

namespace StringSt

/-! ## Retirement (R81, R87, R93) -/

/-- The engines with ROLE working or spare are powered, or none (17_power_thermal_ageing.md R386, R390). -/
def powerEngines (s : StringSt) (on : Bool) : StringSt :=
  (List.range 36).foldl (fun s e =>
    let o := Reg.PWR_SDOM ((5 + e) / 32)
    let up := on && decide (s.fld (Reg.ENG_ROLE e) F.ENG_ROLE.ROLE < 2)
    s.wr o (putBit (s.rd o) ((5 + e) % 32) up)) s

/-- Loop changes of a phrase wait in the engines for their effect frame `e` (R188, R195). -/
def bindLoops (s : StringSt) (l : List Effect) (e : Nat) : StringSt :=
  l.foldl (fun s v =>
    let put := fun n => { s with eng := { s.eng with
      sets := Tab.set (fun _ => []) s.eng.sets n (Tab.get (fun _ => []) s.eng.sets n ++ [(e, v)]) } }
    match v with
    | .loop n _ _ _ _ _ => put n
    | .fret n _ _ => put n
    -- a request for RUN powers the engines from the phrase's retirement (17_power_thermal_ageing.md R388)
    | .pwrReq 0 => s.powerEngines true
    | _ => s) s

/-- A phrase, or a header that failed, is retired: the record is to be posted, the effect frame is fixed where this string serves the
phrase, or is the one that the former active string has fixed (R87, R96), and the ring fences where the status says so. -/
def retireFlight (s : StringSt) (n : Nat) (f : Flight) (status code result fpc info : Nat) : StringSt :=
  let earliest := ceilTo frameT (s.time + max 30 f.lead * usT)
  let eff := match f.entry with
    | some e => e.1
    | none => if f.bound && s.holds then some (max earliest s.ring.lastEff) else none
  let ord := match f.entry with | some e => e.2 | none => s.ring.ord + 1
  let r : Rec :=
    ⟨n, status, code, f.slot, f.nslot, f.tag, f.gseq, result, fpc, info, f.cqEn, f.cqBase, f.oldCnt, f.bound, eff, f.effects,
      f.effects.isEmpty, f.effects.isEmpty, s.holds, f.entry.isSome, ord, f.posted⟩
  let s := { s with ring := { s.ring with
    recs := s.ring.recs ++ [r]
    lastEff := match eff with | some e => max e s.ring.lastEff | none => s.ring.lastEff
    ord := if f.entry.isNone && s.holds then ord else s.ring.ord } }
  let s := match eff with | some e => s.bindLoops f.effects e | none => s
  let s := if s.holds && s.joined && f.entry.isNone then s.send (.retire f.gseq eff) else s
  if status = recFAULT ∨ status = recHDRERR ∨ status = recKILLED then
    let s := s.setFld (Reg.RING_STAT n) F.RING_STAT.FENCE 1
    (s.wr (Reg.RING_FAULT n) (code + 256 * f.slot + 65536 * status)).fire (112 + n)
  else s

/-- The phrase of core `i` is retired. PHRASE.ACTIVE stays 1 in the handler that its end has entered, and clears as the core leaves it
(R57, R69; log entry 99). -/
def retire (s : StringSt) (i status code result fpc info : Nat) : StringSt :=
  let c := s.core i
  let s := match s.flight c.ring with
    | some f => s.retireFlight c.ring f status code result fpc info
    | none => s
  s.updCore i fun c => { c with ended := true }

/-! ## Claims (R78, R81, R85, R86) -/

/-- A claim by core `i` of `nslot` slots at slot `k` loads PHRASE and PHSEQ (R44, RING_CLAIM), and the instruction block becomes fetchable
(R76). -/
def loadPhrase (s : StringSt) (i n k nslot gseq : Nat) : StringSt :=
  s.updCore i fun c => { c with
    text := c.text.writeBytes (slotAddr n k) (s.bytes (slotAddr n k) (256 * nslot))
    phrase := BitVec.ofNat 32 (n + 2147483648)
    phseqL := BitVec.ofNat 32 gseq
    phseqH := BitVec.ofNat 32 (gseq / 4294967296)
    ended := false }

/-- The firmware of core `i` starts the phrase that it has claimed: the start state of R81, and the ERET to phrase level (R44, R71; log entry
24). -/
def startCore (s : StringSt) (i n k : Nat) (args : List Nat) (go : Bool) : StringSt :=
  s.updCore i fun c =>
    let a := slotAddr n k
    let st := putBits (putBit (putBit c.status.toNat 2 (decide (n < 4))) 4 false) 0 2 2
    let c := { c with
      g := []
      pc := BitVec.ofNat 32 (a + 32)
      status := BitVec.ofNat 32 st
      run := if go then .running else .waiting
      wait := if go then .idle else .commit }
    ((((c.setReg 1 a).setReg 2 (args.getD 0 0)).setReg 3 (args.getD 1 0)).setReg 4 (args.getD 2 0)).setReg 5 (args.getD 3 0)

/-- A phrase in flight as its claim makes it. -/
def newFlight (s : StringSt) (i n k gseq det : Nat) (h : Hdr) (committed : Bool) : Flight where
  core := i
  det := det
  committed := committed
  slot := k
  nslot := if det = 0 then h.nslot else 1
  ninsn := h.ninsn
  tag := h.tag
  gseq := gseq
  lead := h.lead
  budget := h.budget
  barrier := h.barrier && decide (det = 0)
  cqEn := s.cqEn n
  cqBase := s.cqBase n
  oldCnt := none
  count := 0
  fpc := 0
  effects := []
  bound := false
  solve := none
  entry := none
  posted := false

/-- The CRC-32 of the slots of a phrase (R86). -/
def slotsCrc (s : StringSt) (n k nslot : Nat) : Nat := crc32 (s.bytes (slotAddr n k) (256 * nslot))

/-- The claim of what the rules chose, by core `i` (R85, R86); `go`: the firmware then starts the phrase. Without a standby it is committed when
it is made. -/
def claim (s : StringSt) (i n k det : Nat) (h : Hdr) (go : Bool) : StringSt :=
  let g := s.gseqNext
  let s := (s.setGseq (g + 1)).setFld (Reg.RING_STAT n) F.RING_STAT.WAITB 0
  let s := { s with ring := { s.ring with rr := if 4 ≤ n then n else s.ring.rr } }
  let f := s.newFlight i n k g det h (!s.joined)
  let s := s.setFlight n (some f)
  let s := if s.joined then s.send (.claim ⟨g, n, k, f.nslot, s.slotsCrc n k f.nslot, det⟩) else s.setCommit g
  if det = 0 then
    let s := s.loadPhrase i n k f.nslot g
    if go then s.startCore i n k h.args (!s.joined) else s
  else if s.joined then s
  else s.retireFlight n f recHDRERR det 0 0 0

/-- A core may claim: at firmware level, running, with no phrase of its own (RING_CLAIM). -/
def mayClaim (s : StringSt) (i : Nat) : Bool :=
  let c := s.core i
  decide (c.pl = 1) && decide (c.run = .running) && !c.busy && !c.dbgHalt

/-- The commit of the claim of sequence number `g` (R86): its core runs, or its header is retired. -/
def commitClaim (s : StringSt) (g : Nat) : StringSt :=
  let s := s.setCommit g
  match s.inFlight.find? fun e => e.2.gseq == g with
  | none => s
  | some (n, f) =>
    let s := s.setFlight n (some { f with committed := true })
    if f.det = 0 then
      s.updCore f.core fun c => if c.wait = .commit then { c with run := .running, wait := .idle } else c
    else s.retireFlight n f recHDRERR f.det 0 0 0

end StringSt

namespace State

/-- The dispatch unit passes pads and headers that fail R80 until it claims a phrase for core `i`, or nothing is left to claim.
At most one pass per slot. -/
def dispatch : Nat → State → Str → Nat → Bool → State
  | 0, s, _, _, _ => s
  | fuel + 1, s, x, i, go =>
    let c := s.str x
    match c.nextClaim with
    | none => s
    | some (n, k, h, det) =>
      if det = 0 ∧ h.kind = 1 then
        let s := s.updStr x fun c => { c with ring := { c.ring with rr := if 4 ≤ n then n else c.ring.rr } }
        (s.post x (Rec.plain n recSKIPPED 0 k h.nslot h.tag 0 (c.cqEn n) (c.cqBase n))).dispatch fuel x i go
      else
        let s := s.updStr x fun c => (c.claim i n k det h go).reselect
        if det = 0 then s else s.dispatch fuel x i go

/-- A word load from RING_CLAIM by a core at firmware level (R78, R86); `go`: with the firmware's start of the phrase (R81). -/
def phraseClaim (s : State) (x : Str) (i : Nat) (go : Bool) : State :=
  if (s.str x).mayClaim i then s.dispatch 4096 x i go else s

/-- The next message of a kind that the partner of `x` has sent is taken from the bridge link. -/
def receive {α : Type} (s : State) (x : Str) (p : BMsg → Option α) : Option (α × State) :=
  match takeFirst p (s.str x.other).outbox with
  | some (v, l) => some (v, s.updStr x.other fun c => { c with outbox := l })
  | none => none

/-- The standby `x` takes the next claim entry, on core `i`, and acknowledges it (R86). -/
def claimEntry (s : State) (x : Str) (i : Nat) : State :=
  let c := s.str x
  match s.receive x (fun m => match m with | .claim e => some e | _ => none) with
  | none => s
  | some (e, s1) =>
    let h := c.hdr e.ring e.slot
    if c.role ≠ rSTANDBY ∨ (e.hdr = 0 ∧ !c.mayClaim i) then s
    else
      let s2 := s1.updStr x fun c =>
        let f := c.newFlight i e.ring e.slot e.gseq e.hdr h true
        let c := ((c.setGseq (e.gseq + 1)).setCommit e.gseq).setFlight e.ring (some f)
        let c := { c with ring := { c.ring with rr := if 4 ≤ e.ring then e.ring else c.ring.rr } }
        if e.hdr = 0 then (c.loadPhrase i e.ring e.slot f.nslot e.gseq).startCore i e.ring e.slot h.args true
        else c.retireFlight e.ring f recHDRERR e.hdr 0 0 0
      s2.updStr x.other fun c => c.commitClaim e.gseq

/-- The standby `x` takes the next mirrored doorbell of a ring with its slots, and the active string then acts on it (R84, R94). A clearing
write is taken once the ring's fencing record is posted here too, so that both strings clear at the same point. -/
def mirrorDb (s : State) (x : Str) : State :=
  let l := (s.str x.other).outbox
  let first := fun (n : Nat) => l.find? fun m => match m with | .doorbell k .. => k == n | _ => false
  match s.receive x (fun m => match m with
      | .doorbell n p c l i =>
        if first n = some m ∧ (c = 0 ∨ ((s.str x).flight n).isNone) then some (n, p, c, l, i) else none
      | _ => none) with
  | none => s
  | some ((n, p, cmd, l, i), s) =>
    let s := s.updStr x fun c =>
      let c := l.foldl (fun c e => c.setBytes (slotAddr n e.1) e.2) c
      (if cmd = 2 then (c.clearFence n).reselect else c.setProd n p cmd).takeMirror n i
    match takeFirst (fun e => if e = (n, p, cmd) then some () else none) (s.str x.other).ring.dbWait with
    | some (_, w) =>
      let s := s.updStr x.other fun c => { c with ring := { c.ring with dbWait := w } }
      (s.acceptDb x.other n p cmd).updStr x.other StringSt.settleAcks
    | none => s

/-- The standby `x` takes the next retire entry once it has itself retired the phrase, and binds its own effects to the frame (R87). At a
change of capo (`late`) the entry of a phrase that still runs is kept with its flight (R96). -/
def retireEntry (s : State) (x : Str) (late : Bool) : State :=
  let c := s.str x
  let l := (s.str x.other).outbox
  let first := l.find? fun m => match m with | .retire .. => true | _ => false
  match s.receive x (fun m => match m with
      | .retire g e =>
        if first = some m ∧ (late || c.ring.recs.any fun r => r.gseq == g && !r.entry) then some (g, e) else none
      | _ => none) with
  | none => s
  | some ((g, e), s) =>
    s.updStr x fun c =>
      let ord := c.ring.ord + 1
      let c := { c with ring := { c.ring with
        ord := ord
        lastEff := match e with | some v => max v c.ring.lastEff | none => c.ring.lastEff } }
      match c.ring.recs.find? fun r => r.gseq == g && !r.entry with
      | some q =>
        let c := match e with | some v => c.bindLoops q.effects v | none => c
        { c with ring := { c.ring with
          recs := c.ring.recs.map fun r => if r.gseq = g then { r with entry := true, eff := e, ord := ord } else r } }
      | none =>
        match c.inFlight.find? fun f => f.2.gseq == g with
        | some f => c.updFlight f.1 fun f => { f with entry := some (e, ord) }
        | none => c

/-- The standby `x` takes a posted mark for a record that it holds (R96). At a change of capo (`late`) the mark of a phrase that still runs is
kept with its flight. -/
def postedMark (s : State) (x : Str) (late : Bool) : State :=
  let c := s.str x
  let held := fun (n g k : Nat) => c.ring.recs.find? fun r => r.ring == n && r.gseq == g && r.slot == k
  match s.receive x (fun m => match m with
      | .posted n g k _ => if late || (held n g k).isSome then some (n, g, held n g k) else none
      | _ => none) with
  | none => s
  | some ((_, _, some r), s) => s.updStr x fun c => c.posted x.other r
  | some ((n, g, none), s) => s.updStr x fun c => c.updFlight n fun f => if f.gseq = g then { f with posted := true } else f

/-- The next record of ring `n` that string `x` may post: nothing of it is still to come (R87 step 10, R93). -/
def postable (c : StringSt) (n : Nat) : Option Rec :=
  c.ring.recs.find? fun r => r.ring == n && r.sent && r.applied

/-- String `x`, which serves phrases, posts the next record of ring `n` (R90). -/
def postNext (s : State) (x : Str) (n : Nat) : State :=
  let c := s.str x
  if c.holds then match postable c n with
    | some r => s.postKept x r
    | none => s
  else s

end State

/-- A phrase of core `i` whose count has reached its budget is retired as KILLED, and the core goes back to firmware by a trap entry
that leaves CAUSE_FW and BAD_FW as they are (R81; log entry 17). -/
def StringSt.kill (s : StringSt) (i : Nat) : StringSt :=
  let c := s.core i
  match s.flight c.ring with
  | some f =>
    if c.pl = 2 ∧ c.run = .running ∧ f.budget ≤ f.count then
      let s := s.retire i recKILLED 0 0 f.fpc 0
      s.updCore i fun c => { c with
        epcFw := c.pc
        pc := c.tvecFw
        status := BitVec.ofNat 32 (putBit (putBit (putBits (putBits (putBit c.status.toNat 2 false) 0 2 1) 6 2 2) 4 true) 3 false) }
    else s
  | none => s

/-! ## Commands -/

/-- RING_DB_PUBLISH (R82, R84). -/
def execRingDbPublish (x : Str) (n : Fin 16) (prod : BitVec 16) (host : Bool) (s : State) : Out :=
  .next (s.doorbell x n.val prod.toNat 0 host)

/-- RING_DB_CONTINUE (R94). -/
def execRingDbContinue (x : Str) (n : Fin 16) (prod : BitVec 16) (host : Bool) (s : State) : Out :=
  .next (s.doorbell x n.val prod.toNat 1 host)

/-- RING_DB_FLUSH (R94). -/
def execRingDbFlush (x : Str) (n : Fin 16) (prod : BitVec 16) (host : Bool) (s : State) : Out :=
  .next (s.doorbell x n.val prod.toNat 2 host)

/-- RING_DB_REFUSED (R94). -/
def execRingDbRefused (x : Str) (n : Fin 16) (prod : BitVec 16) (host : Bool) (s : State) : Out :=
  .next (s.doorbell x n.val prod.toNat 3 host)

/-- PHRASE_CLAIM (R78, R85, R86). -/
def execPhraseClaim (x : Str) (i : Fin 4) (t : Nat) (s : State) : Out := .next ((s.advance t).phraseClaim x i.val true)

/-- PHRASE_KILLED (R81). -/
def execPhraseKilled (x : Str) (i : Fin 4) (t : Nat) (s : State) : Out :=
  .next ((s.advance t).updStr x fun c => c.kill i.val)

/-- RING_CQCFG_ENABLE: a write of 1 to EN (R89); it stays 0 while the queue's address is misaligned. -/
def StringSt.cqEnable (s : StringSt) (n : Nat) (v : Nat) : StringSt :=
  let o := Reg.RING_CQCFG n
  if !bit v 0 then s.setFld o F.RING_CQCFG.EN 0
  else if bits (s.rd (Reg.RING_CQBASE_L n)) 0 13 ≠ 0 then s.setFld o F.RING_CQCFG.EN 0
  else if s.cqEn n then s
  else
    -- the record of a phrase in flight goes to the queue that was in force at its claim (R91)
    let cnt := s.fld o F.RING_CQCFG.CNT
    let s := s.updFlight n fun f => if f.cqEn && f.oldCnt.isNone then { f with oldCnt := some cnt } else f
    (s.setFld o F.RING_CQCFG.EN 1).setFld o F.RING_CQCFG.CNT 0

def execRingCqcfgEnable (x : Str) (n : Fin 16) (s : State) : Out := .next (s.updStr x fun c => c.cqEnable n.val 1)

/-- SEQ_START_GO: a store by the secure monitor (R40). Only a core not released yet starts; its domain is powered (R390). -/
def StringSt.seqStart (s : StringSt) (v : Nat) : StringSt :=
  (List.range 4).foldl (fun s i =>
    if 1 ≤ i ∧ bit v i then
      let s := s.wr Reg.SEQ_START (putBit (s.rd Reg.SEQ_START) i true)
      if (s.core i).run = .notReleased then
        let s := s.wr (Reg.PWR_SDOM 0) (putBit (s.rd (Reg.PWR_SDOM 0)) (1 + i) true)
        (s.refetch i).updCore i fun c => { c with run := .running, pc := 0x7F000100 }
      else s
    else s) s

def execSeqStartGo (x : Str) (v : Fin 16) (s : State) : Out := .next (s.updStr x fun c => c.seqStart v.val)

end Sys2Proof.Machine
end

