-- ==== Sys2Proof/Machine/Loops.lean ====
section
/-! DEFINITION. Loop records, coefficient sets, frets and the arithmetic of one loop frame: 08_loops.md R186 to R201. -/

namespace Sys2Proof.Machine

/-- Words 0 to 3 of a loop record (R186). -/
structure LoopCfg where
  mode : Nat
  rate : Nat
  nsec : Nat
  cset : Nat
  invmax : Nat
  iset : Int
  preload : Nat
  lo : Nat
  hi : Nat
  deriving DecidableEq, Repr

def LoopCfg.of (w0 w1 w2 : Nat) : LoopCfg :=
  ⟨bits w0 0 2, bits w0 2 2, bits w0 4 3, bits w0 8 11, bits w0 24 8, sx 16 w1, bits w1 16 16, bits w2 0 16, bits w2 16 16⟩

/-- Words 4 to 12 of a loop record (R186): the state of a loop. `ys` are Y1 and Y2 of sections 0 to 3. -/
structure LoopVal where
  acc : Nat
  ff : Int
  fret : Nat
  lock : Bool
  frozen : Bool
  blind : Bool
  sat : Bool
  lost : Bool
  invrun : Nat
  x1 : Int
  x2 : Int
  ys : List (Int × Int)
  lastpc : Nat
  lastx : Nat
  frame : Nat
  deriving DecidableEq, Repr

/-- Two q15 values in one word. -/
def pair16 (lo hi : Int) : Nat := wrap 16 lo + 65536 * wrap 16 hi

def LoopVal.words (v : LoopVal) : List Nat :=
  [v.acc,
   wrap 16 v.ff + 65536 * v.fret + 524288 * b2n v.lock + 1048576 * b2n v.frozen + 2097152 * b2n v.blind + 4194304 * b2n v.sat +
     8388608 * b2n v.lost + 16777216 * v.invrun,
   pair16 v.x1 v.x2] ++ (v.ys.map fun y => pair16 y.1 y.2) ++ [v.lastpc + 65536 * v.lastx, v.frame % 4294967296]

def LoopVal.of (w : List Nat) : LoopVal :=
  let g := fun i => w.getD i 0
  let f := g 1
  ⟨g 0, sx 16 f, bits f 16 3, bit f 19, bit f 20, bit f 21, bit f 22, bit f 23, bits f 24 8, sx 16 (g 2), sx 16 (g 2 / 65536),
   (upFrom 3 4).map fun i => (sx 16 (g i), sx 16 (g i / 65536)), bits (g 7) 0 16, bits (g 7) 16 16, g 8⟩

namespace StringSt

def loopCfg (s : StringSt) (a : Nat) : LoopCfg := LoopCfg.of (s.word (loopRec a)) (s.word (loopRec a + 4)) (s.word (loopRec a + 8))
def loopVal (s : StringSt) (a : Nat) : LoopVal := LoopVal.of (s.words (loopRec a + 16) 9)
def setLoopVal (s : StringSt) (a : Nat) (v : LoopVal) : StringSt := s.setWords (loopRec a + 16) v.words

/-- A running mode (R189). -/
def loopRuns (s : StringSt) (a : Nat) : Bool := let m := bits (s.word (loopRec a)) 0 2; m = 1 || m = 2

/-- The loops with MODE other than OFF, by the SRAM that is not zero. -/
def runningLoops (s : StringSt) : List Nat :=
  s.sram.filterMap fun e =>
    if 0x00800000 ≤ e.1 ∧ e.1 < 0x00900000 ∧ e.1 % 64 = 0 ∧ e.2.toNat % 4 ≠ 0 then some ((e.1 - 0x00800000) / 64) else none

/-- A loop that has bit `b` of byte 2 of word 5 set: 5 BLIND, 6 SAT. -/
def loopsWith (s : StringSt) (b : Nat) : Nat :=
  (s.sram.filter fun e => decide (0x00800000 ≤ e.1 ∧ e.1 < 0x00900000 ∧ e.1 % 64 = 22) && bit e.2.toNat b).length

/-! ## Coefficient sets and frets (R190, R194) -/

def csw (s : StringSt) (k f w : Nat) : Nat := s.word (csetRec k + 64 * f + 4 * w)

def fretValid (s : StringSt) (k f : Nat) : Bool := bit (s.csw k f 13) 8

/-- NF: frets 0 to NF - 1 are valid. -/
def fretCount (s : StringSt) (k : Nat) : Nat := ((List.range 8).takeWhile fun f => s.fretValid k f).length

def fretLo (s : StringSt) (k f : Nat) : Nat := bits (s.csw k f 12) 0 16
def fretHyst (s : StringSt) (k f : Nat) : Nat := bits (s.csw k f 12) 16 16

/-- The band fret of a value: the highest valid fret whose LO is at or below it (R194). -/
def bandFret (s : StringSt) (k : Nat) (v : Int) : Nat :=
  (List.range (s.fretCount k)).foldl (fun b f => if (s.fretLo k f : Int) ≤ v then f else b) 0

/-- Automatic selection (R194): up while the value reaches the next fret's upper edge, then down below its own lower edge. -/
def fretUp (s : StringSt) (k : Nat) (v : Int) : Nat → Nat → Nat
  | 0, f => f
  | n + 1, f =>
    if f + 1 < s.fretCount k ∧ ((s.fretLo k (f + 1) + s.fretHyst k (f + 1) : Nat) : Int) ≤ v then s.fretUp k v n (f + 1) else f

def fretDown (s : StringSt) (k : Nat) (v : Int) : Nat → Nat
  | 0 => 0
  | f + 1 => if v < (s.fretLo k (f + 1) : Int) - s.fretHyst k (f + 1) then s.fretDown k v f else f + 1

def autoFret (s : StringSt) (k f : Nat) (v : Int) : Nat := s.fretDown k v (s.fretUp k v 8 f)

/-- A coefficient set in 128 words is valid (R190). -/
def csetOk (w : List Nat) : Bool :=
  let g := fun f i => w.getD (16 * f + i) 0
  let ok := fun f => bit (g f 13) 8
  let nf := ((List.range 8).takeWhile ok).length
  decide (1 ≤ nf) &&
  (List.range 8).all fun f =>
    if f < nf then
      let lo := bits (g f 12) 0 16
      let hy := bits (g f 12) 16 16
      (List.range 4).all (fun i => decide (bits (g f (3 * i + 2)) 19 13 = 0)) && decide (bits (g f 13) 5 3 = 0) &&
        decide (bits (g f 13) 9 23 = 0) && decide (bits (g f 14) 16 16 = 0) && decide (g f 15 = 0) &&
        decide (bits (g f 13) 0 5 ≤ 16) &&
        (if f = 0 then decide (lo = 0 ∧ hy = 0)
         else decide (bits (g (f - 1) 12) 0 16 < lo ∧ hy ≤ lo ∧ lo + hy ≤ 0xFFFF))
    else (List.range 16).all fun i => decide (g f i = 0)

/-- Every LOOPSET that a phrase of this string has executed and that is not in force (R191). -/
def loopSetsOpen (s : StringSt) : List Effect :=
  (s.inFlight.map fun e => e.2.effects).flatten ++ (s.ring.recs.filterMap fun r => if r.eff.isNone then some r.effects else none).flatten ++
    ((s.eng.sets.map fun e => e.2.map (·.2)).flatten)

/-- A set is in use (R191). -/
def csetUsed (s : StringSt) (k : Nat) : Bool :=
  (s.runningLoops.any fun a => (s.loopCfg a).cset == k) ||
  s.loopSetsOpen.any fun e => match e with
    | .loop _ _ w0 _ _ _ => bits w0 0 2 != 0 && bits w0 8 11 == k
    | _ => false

/-- CSETLOAD (R191): index g3, address g4. -/
def csetLoad (s : StringSt) (sec : Bool) (g3 g4 : Nat) : Nat × StringSt :=
  if 2048 ≤ g3 then (sBADVAL, s)
  else if g4 = 0 then (if s.csetUsed g3 then (sBUSY, s) else (sOK, s.zero (csetRec g3) 512))
  else if g4 % 64 ≠ 0 ∨ s.phraseBuf sec false g4 512 = false then (sBADVAL, s)
  else
    let w := s.words g4 128
    if !csetOk w then (sBADVAL, s)
    else if s.csetUsed g3 then (sBUSY, s)
    else (sOK, s.setWords (csetRec g3) w)

/-- A loop record image for loop `a` is valid (R187). -/
def loopImageOk (s : StringSt) (a : Nat) (w0 w1 w2 w3 : Nat) : Bool :=
  let c := LoopCfg.of w0 w1 w2
  s.fabValid && decide (c.mode ≠ 3) && decide (1 ≤ c.nsec ∧ c.nsec ≤ 4) && s.fretValid c.cset 0 && !bit w0 7 &&
    decide (bits w0 19 5 = 0) && decide (w3 = 0) && decide (bits w1 0 16 ≠ 0x8000) && decide (c.lo ≤ c.hi) &&
    (c.mode = 0 || s.actMoves a)

/-! ## One frame (R192 to R201) -/

/-- Saturation to q15. -/
def sat16 (v : Int) : Int := clampI (-32768) 32767 v

/-- ACC clamped to the limits of a configuration. -/
def clampAcc (c : LoopCfg) (v : Int) : Nat := (clampI (c.lo * 65536 : Nat) (c.hi * 65536 : Nat) v).toNat

/-- The output of a frame. -/
def outPc (c : LoopCfg) (acc : Nat) (ff : Int) : Nat := (clampI c.lo c.hi (rhe acc 16 + ff)).toNat

/-- One second-order section (R192). -/
def section2 (s : StringSt) (k f i : Nat) (x h1 h2 y1 y2 : Int) : Int :=
  let w0 := s.csw k f (3 * i)
  let w1 := s.csw k f (3 * i + 1)
  let w2 := s.csw k f (3 * i + 2)
  let acc := 2 * (sx 16 w0 * x + sx 16 (w0 / 65536) * h1 + sx 16 w1 * h2 - sx 16 (w1 / 65536) * y1 - sx 16 w2 * y2)
  sat16 (rhe (acc * (2 ^ bits w2 16 3 : Nat)) 16)

/-- The cascade from section `i` on, `n` sections: its output and the new histories. -/
def cascade (s : StringSt) (k f : Nat) : Nat → Nat → Int → Int → Int → List (Int × Int) → Int × List (Int × Int)
  | _, 0, x, _, _, ys => (x, ys)
  | _, _ + 1, x, _, _, [] => (x, [])
  | i, n + 1, x, h1, h2, (y1, y2) :: ys =>
    let y := s.section2 k f i x h1 h2 y1 y2
    let r := s.cascade k f (i + 1) n y y1 y2 ys
    (r.1, (y, y1) :: r.2)

/-- A computed frame with the entry's I (R192): ACC, histories, SAT. -/
def computeFrame (s : StringSt) (c : LoopCfg) (v : LoopVal) (i : Int) : LoopVal :=
  let x := sat16 (c.iset - i)
  let r := s.cascade c.cset v.fret 0 c.nsec x v.x1 v.x2 v.ys
  let d := r.1 * (2 ^ min 16 (bits (s.csw c.cset v.fret 13) 0 5) : Nat)
  let dmax := bits (s.csw c.cset v.fret 14) 0 16
  let d := if dmax = 0 then d else clampI (-((dmax * 65536 : Nat) : Int)) (dmax * 65536 : Nat) d
  let a := (v.acc : Int) + d
  { v with
    ys := r.2
    x2 := v.x1
    x1 := x
    acc := clampAcc c a
    sat := decide (a < (c.lo * 65536 : Nat) ∨ ((c.hi * 65536 : Nat) : Int) < a)
    lastx := wrap 16 x }

/-- The feed-forward bound to the latest 100 kHz frame at or before frame `f` (R193). -/
def ffAt (s : StringSt) (a f : Nat) : Int :=
  match (Tab.get (fun _ => []) s.eng.ff a).find? fun e => decide (e.1 / 2 ≤ f) with
  | some e => e.2
  | none => 0

/-- A LOOPSET's image and mode take effect on words 0 to 3 and on a state (R188). -/
def applySet (s : StringSt) (a : Nat) (v : LoopVal) : Effect → StringSt × LoopVal
  | .loop _ mode w0 w1 w2 w3 =>
    let c := LoopCfg.of w0 w1 w2
    let s := s.setWords (loopRec a) [w0, w1, w2, w3]
    let zero := v.ys.map fun _ => ((0 : Int), (0 : Int))
    if mode = 0 then
      (s, { v with acc := clampAcc c v.acc, fret := min v.fret (s.fretCount c.cset - 1) })
    else
      let acc := clampAcc c (if mode = 1 then 0 else (c.preload * 65536 : Nat))
      (s, { v with
        acc := acc
        x1 := 0
        x2 := 0
        ys := zero
        fret := if v.lock then v.fret else s.bandFret c.cset (rhe acc 16)
        invrun := 0
        blind := false
        lost := false })
  | .fret _ f lock =>
    let nf := s.fretCount (s.loopCfg a).cset
    (s, { v with fret := min f (nf - 1), lock := lock })
  | _ => (s, v)

def cnt (s : StringSt) (a : Nat) : LoopCnt := Tab.get (fun _ => ⟨0, 0, 0, 0⟩) s.eng.cnts a
def setCnt (s : StringSt) (a : Nat) (c : LoopCnt) : StringSt :=
  { s with eng := { s.eng with cnts := Tab.set (fun _ => ⟨0, 0, 0, 0⟩) s.eng.cnts a c } }

/-- The strokes that name element `a`, with its entry. -/
def strokesOf (s : StringSt) (a : Nat) : List (Stroke × StrokeEnt) :=
  s.plan.strokes.filterMap fun k => (k.ents.find? fun e => e.act == a).map fun e => (k, e)

/-- The frame that starts at `t`, of a loop of period `p`, is frozen (R199, R201). -/
def frozenAt (s : StringSt) (a t p : Nat) : Bool :=
  (s.strokesOf a).any fun k =>
    decide (k.1.ts ≤ t + 2 * p ∧ t ≤ k.2.te) && (match k.1.stopped with | some x => decide (t < x) | none => true)

/-- The entry whose resume frame the frame at `t` is, where there is one (R200, R251): of several the one that plays last (R250). It is the
loop's first frame after t_e; a loop that starts from OFF (`ran` false) has one only within its first period after t_e (R209; log entry 94). -/
def resumeOf (s : StringSt) (a t p : Nat) (ran : Bool) : Option StrokeEnt :=
  ((s.strokesOf a).foldl (fun (m : Option (Stroke × StrokeEnt)) k =>
    if k.2.te < t ∧ (ran ∨ t ≤ k.2.te + p) ∧ k.1.resumed.contains a = false ∧ k.1.withdrawn = false ∧ k.1.stopped.isNone ∧
        bit k.1.missed (a / 2048) = false then
      match m with
      | some q => if q.1.ts < k.1.ts ∨ (q.1.ts = k.1.ts ∧ q.1.armSeq < k.1.armSeq) then some k else m
      | none => some k
    else m) none).map (·.2)

/-- Loop `a` has had a frame after t_e of its strokes (R200). -/
def markResumed (s : StringSt) (a t : Nat) : StringSt :=
  let mark := fun (k : Stroke) =>
    if (k.ents.any fun e => e.act == a && decide (e.te < t)) && !k.resumed.contains a then { k with resumed := a :: k.resumed } else k
  { s with plan := { s.plan with strokes := s.plan.strokes.map mark } }

/-- The resume of a loop (R200). -/
def resumeLoop (s : StringSt) (c : LoopCfg) (v : LoopVal) (e : StrokeEnt) (ff : Int) : LoopVal :=
  let acc := clampAcc c (((e.p1 : Int) - ff) * 65536)
  { v with
    acc := acc
    x1 := 0
    x2 := 0
    ys := v.ys.map fun _ => ((0 : Int), (0 : Int))
    invrun := 0
    blind := false
    fret := match e.fret with
      | some f => min f (s.fretCount c.cset - 1)
      | none => s.bandFret c.cset (rhe acc 16) }

/-- Keeps 12 ms of a loop's frames. -/
def logFrame (s : StringSt) (a : Nat) (m : LoopSmp) : StringSt :=
  { s with eng := { s.eng with
    logs := Tab.set (fun _ => []) s.eng.logs a
      (m :: (Tab.get (fun _ => []) s.eng.logs a).takeWhile fun q => decide (m.t ≤ q.t + 12 * msT)) } }

/-- The changes bound for loop `a`, by effect frame (R188, R195). -/
def setsOf (s : StringSt) (a : Nat) : List (Nat × Effect) := Tab.get (fun _ => []) s.eng.sets a

/-- The loop is to be OFF at instant `t` by a LOOPSET not yet in force: its codes tagged for then are discarded (R189). -/
def offBy (s : StringSt) (a t : Nat) : Bool :=
  (s.setsOf a).any fun e => decide (e.1 ≤ t) && match e.2 with | .loop _ _ w0 _ _ _ => bits w0 0 2 == 0 | _ => false

/-- The codes of loop `a` that are tagged for instant `e` or later are discarded (R189). -/
def dropCodes (s : StringSt) (a e : Nat) : StringSt :=
  let stays := fun (k : Nat × Nat × Nat × Nat) => decide (k.1 ≠ a / 2048 ∨ k.2.2.1 ≠ a % 2048 ∨ k.2.1 * frameT < e)
  { s with eng := { s.eng with codes := s.eng.codes.filter stays } }

/-- A code of a frame, finished at instant `now` (R197, R198): kept for its code record, or, its deadline passed, counted and reported. -/
def emitCode (s : StringSt) (a eng t p pc now : Nat) : StringSt :=
  let at_ := t + 2 * p
  if s.offBy a at_ then s
  else if now + 500 * nsT < at_ then
    { s with eng := { s.eng with codes := s.eng.codes ++ [(a / 2048, frameOf at_, a % 2048, pc)] } }
  else
    let k := s.cnt a
    let s := (s.setCnt a { k with miss := satInc 65535 k.miss }).addSat Reg.ENG_MISS F.ENG_MISS.LATE 1
    let iv := now / sweepT
    if s.eng.lateNote = some iv then s
    else ({ s with eng := { s.eng with lateNote := some iv } }).occur 11 eng

/-- The changes of loop `a` that have come by frame `f`. -/
def setsDue (s : StringSt) (a f : Nat) : List (Nat × Effect) := (s.setsOf a).filter fun e => decide (e.1 ≤ f * frameT)

/-- The period of loop `a` at frame `f`, with the changes that have come (R188, R197). -/
def periodAt (s : StringSt) (a f : Nat) : Nat :=
  TileSt.ratePeriod ((s.setsDue a f).foldl (fun r e => match e.2 with | .loop _ _ w0 _ _ _ => bits w0 2 2 | _ => r) (s.loopCfg a).rate)

/-- A frame of loop `a` starts at frame `f`, where it runs or a change has come for it. -/
def starts (s : StringSt) (a f : Nat) : Bool :=
  (s.loopRuns a || !(s.setsDue a f).isEmpty) && decide (f * frameT % s.periodAt a f = 0)

/-- The frame of loop `a` that starts at 100 kHz frame `f`, if it has one there, with the entry's I where it is valid, finished at `now`. -/
def loopFrame (s : StringSt) (a eng f : Nat) (i : Option Nat) (now : Nat) : StringSt :=
  let t := f * frameT
  let p := s.periodAt a f
  if t % p ≠ 0 then s
  else
    let due := s.setsDue a f
    let ran := s.loopRuns a
    let s := { s with eng := { s.eng with
      sets := Tab.set (fun _ => []) s.eng.sets a ((s.setsOf a).filter fun e => !decide (e.1 ≤ t)) } }
    let r := due.foldl (fun (r : StringSt × LoopVal) e => r.1.applySet a r.2 e.2) (s, s.loopVal a)
    let s := r.1
    let v := r.2
    let s := if due.any fun e => match e.2 with | .loop _ _ _ _ _ _ => true | _ => false then
        { s with eng := { s.eng with cfgAt := Tab.set (fun _ => 0) s.eng.cfgAt a t } }
      else s
    let c := s.loopCfg a
    if c.mode = 0 ∨ c.mode = 3 then (if due.isEmpty then s else s.setLoopVal a { v with frozen := false })
    else if s.frozenAt a t p then
      (s.setLoopVal a { v with frozen := true }).logFrame a ⟨t, v.acc, v.acc, v.lastpc, 0, false, false, true, v.blind, false, Tab.get (fun _ => 0) s.eng.cfgAt a, p⟩
    else
      let ff := s.ffAt a f
      let res := s.resumeOf a t p ran
      let s := s.markResumed a t
      let v := match res with | some e => s.resumeLoop c v e ff | none => v
      let v := { v with frozen := false, frame := f }
      let k := s.cnt a
      let run := decide (c.mode = 1)
      let (s, v, k) := match run, i with
        | true, some w =>
          let v := s.computeFrame c v (sx 16 w)
          (s, { v with ff := ff, invrun := 0, blind := false }, if v.sat then { k with sat := satInc 65535 k.sat } else k)
        | true, none =>
          let n := satInc 255 v.invrun
          let blind := decide (c.invmax ≠ 0 ∧ c.invmax ≤ n)
          let s := if blind && !v.blind then s.occur 10 a else s
          (s, { v with lastx := 0x8000, sat := false, invrun := n, blind := blind || v.blind }, { k with inv := satInc 65535 k.inv })
        | false, _ => (s, { v with lastx := 0x8000, sat := false }, k)
      let pc := outPc c v.acc ff
      let pre := (match res with | some e => (s.resumeLoop c r.2 e ff).acc | none => r.2.acc)
      let nf := if v.lock then v.fret else s.autoFret c.cset v.fret (rhe v.acc 16)
      let k := if nf ≠ v.fret then { k with fret := satInc 65535 k.fret } else k
      let s := (s.setCnt a k).setLoopVal a { v with fret := nf, lastpc := pc }
      let s := s.logFrame a ⟨t, pre, v.acc, pc, (match i with | some w => sx 16 w | none => 0), i.isNone, v.sat, false, v.blind, run,
        Tab.get (fun _ => 0) s.eng.cfgAt a, p⟩
      s.emitCode a eng t p pc now

end StringSt
end Sys2Proof.Machine
end

