-- ==== Sys2Proof/Machine/Engines.lean ====
section
/-! DEFINITION. Engines, the allotment of blocks to them, and the jobs that they have still to run: 08_loops.md R202 to R208. -/

namespace Sys2Proof.Machine
namespace StringSt

def role_ (s : StringSt) (e : Nat) : Nat := s.fld (Reg.ENG_ROLE e) F.ENG_ROLE.ROLE

/-- The engine that runs block `j`, where it has one. -/
def blkEngine (s : StringSt) (j : Nat) : Nat := s.fld (Reg.ENGMAP_BLK j) F.ENGMAP_BLK.ENGINE
def unplaced (s : StringSt) (j : Nat) : Bool := s.flag (Reg.ENGMAP_BLK j) F.ENGMAP_BLK.UNPLACED
def movingBlk (s : StringSt) (j : Nat) : Bool := s.flag (Reg.ENGMAP_BLK j) F.ENGMAP_BLK.MOVING

/-- Blocks allotted to engine `e` (ENG_ROLE.NBLK). -/
def blocksOf (s : StringSt) (e : Nat) : List Nat :=
  (List.range 512).filter fun j => s.blkEngine j == e && !s.unplaced j

/-- ENG_LOAD.DEMAND in MAC/s (R203). -/
def demand (s : StringSt) (e : Nat) : Nat :=
  (s.runningLoops.filter fun a => s.blkEngine (a / 32) == e && !s.unplaced (a / 32)).foldl (fun v a =>
    let c := s.loopCfg a
    v + 5 * c.nsec * (100000 / 2 ^ c.rate)) 0

/-- Words 13 to 15 of a loop's record (R186). -/
def writeCounts (s : StringSt) (a : Nat) : StringSt :=
  let k := s.cnt a
  s.setWords (loopRec a + 52) [k.inv + 65536 * k.fret, k.sat + 65536 * k.miss, s.blkEngine (a / 32)]

/-- The running loops of a block. -/
def blkLoops (s : StringSt) (j : Nat) : List Nat := (upFrom (32 * j) 32).filter s.loopRuns

def setMoving (s : StringSt) (j : Nat) (m : Option (Nat × Nat)) : StringSt :=
  ({ s with eng := { s.eng with moving := Tab.set (fun _ => none) s.eng.moving j m } }).setFld (Reg.ENGMAP_BLK j)
    F.ENGMAP_BLK.MOVING (b2n m.isSome)

/-- The jobs of block `j` of boundaries before the present one, and one that was begun, are lost with its engine and caught up (R206). -/
def fallBehind (s : StringSt) (j : Nat) : StringSt :=
  let begun := match Tab.get (fun _ => (none : Option (Nat × Nat))) s.eng.part j with | some q => q.1 + 1 | none => 0
  let upTo := max (Tab.get (fun _ => 0) s.eng.behind j) (max begun (frameOf s.time))
  { s with eng := { s.eng with behind := Tab.set (fun _ => 0) s.eng.behind j upTo } }

/-- The present engine of block `j` serves it from now on. -/
def serveNow (s : StringSt) (j : Nat) : StringSt :=
  { s with eng := { s.eng with placed := Tab.set (fun _ => 0) s.eng.placed j s.time } }

/-- Block `j` goes to engine `e` at once, as after a failure (R202, R205): its lost frames are caught up (R206). -/
def placeNow (s : StringSt) (j e : Nat) : StringSt :=
  let s := ((s.setFld (Reg.ENGMAP_BLK j) F.ENGMAP_BLK.ENGINE e).setFld (Reg.ENGMAP_BLK j) F.ENGMAP_BLK.UNPLACED 0).setMoving j none
  (s.blkLoops j).foldl writeCounts ((s.fallBehind j).serveNow j)

/-- The move of block `j` ends: the first job goes to the new engine, and the counts follow (R186, R202 step 4). -/
def release (s : StringSt) (j : Nat) : StringSt := (s.blkLoops j).foldl writeCounts ((s.setMoving j none).serveNow j)

/-- Engine `e` is declared failed with cause `c` (R204), and its blocks are dealt over the spares or become unplaced (R205). -/
def failEngine (s : StringSt) (e c : Nat) : StringSt :=
  if s.role_ e = 2 then s else
  let s := s.markFlag 1
  let s := (s.setFld (Reg.ENG_ROLE e) F.ENG_ROLE.ROLE 2).setFld (Reg.ENG_ROLE e) F.ENG_ROLE.FCAUSE c
  let s := s.wr (Reg.PWR_SDOM ((5 + e) / 32)) (putBit (s.rd (Reg.PWR_SDOM ((5 + e) / 32))) ((5 + e) % 32) false)
  let s := (s.fire (132 + e)).occur 7 e
  -- a block that still drains from the failed engine is released
  let s := (List.range 512).foldl (fun s j => match Tab.get (fun _ => none) s.eng.moving j with
    | some (o, _) => if o = e then (s.fallBehind j).release j else s
    | none => s) s
  let l := s.blocksOf e
  let spares := (List.range 36).filter fun k => decide (s.role_ k = 1)
  if l.isEmpty then s
  else if s.flag Reg.ENG_CFG F.ENG_CFG.AUTOSPARE && !spares.isEmpty then
    l.zipIdx.foldl (fun s q => s.placeNow q.1 (spares.getD (q.2 % spares.length) 0)) s
  else
    let s := l.foldl (fun s j => (s.setFld (Reg.ENGMAP_BLK j) F.ENGMAP_BLK.UNPLACED 1).setMoving j none) s
    s.occur 8 ((List.range 512).filter fun j => s.unplaced j).length

/-- A store to ENGMAP_BLK[j] (R202, R209): a move to the engine named; one that is failed, off or does not exist is ignored. -/
def mapWrite (s : StringSt) (j v : Nat) : StringSt :=
  let e := bits v 0 6
  if 36 ≤ e ∨ s.role_ e = 2 ∨ s.role_ e = 3 then s
  else if s.unplaced j then
    let s := ((s.setFld (Reg.ENGMAP_BLK j) F.ENGMAP_BLK.ENGINE e).setFld (Reg.ENGMAP_BLK j) F.ENGMAP_BLK.UNPLACED 0)
    (s.fallBehind j).setMoving j (some (e, 0))
  else if s.blkEngine j = e ∧ s.movingBlk j = false then s
  else
    let old := if s.movingBlk j then Tab.get (fun _ => none) s.eng.moving j else some (s.blkEngine j, frameOf s.time)
    (s.setFld (Reg.ENGMAP_BLK j) F.ENGMAP_BLK.ENGINE e).setMoving j old

/-- A store to ENG_ROLE[e] (R210); an engine with ROLE off, or in HOLD, is not powered (17_power_thermal_ageing.md R390). -/
def roleWrite (s : StringSt) (e v : Nat) : StringSt :=
  let r := bits v 0 2
  if s.role_ e = 2 ∨ r = 2 ∨ (r = 3 ∧ (s.blocksOf e).isEmpty = false) then s
  else
    let o := Reg.PWR_SDOM ((5 + e) / 32)
    let up := decide (r < 2) && decide (s.fld Reg.PWR_STAT F.PWR_STAT.STATE ≠ 1)
    (s.setFld (Reg.ENG_ROLE e) F.ENG_ROLE.ROLE r).wr o (putBit (s.rd o) ((5 + e) % 32) up)

/-- The string computes loops: not in BOOT, IDLE or FAILED (R285). -/
def computes (s : StringSt) : Bool :=
  decide (s.role = rJOINING) || decide (s.role = rSTANDBY) || decide (s.role = rACTIVE) || decide (s.role = rHANDOVER)

/-- An engine can run a job: working or spare, and its domain on. -/
def engineOk (s : StringSt) (e : Nat) : Bool := (decide (s.role_ e = 0) || decide (s.role_ e = 1)) && s.domOn (5 + e)

/-- The record history of tile `n` (R207), newest first. -/
def hist (s : StringSt) (n : Nat) : List ErrRec := Tab.get (fun _ => []) s.eng.hist n

def recordOf (s : StringSt) (n f : Nat) : Option ErrRec := (s.hist n).find? fun r => r.frame == f

def isAbsent (s : StringSt) (n f : Nat) : Bool := s.eng.absent.contains (n, f)

/-- The boundaries of tile `n` that a job can be ready for: from the oldest record held to the newest, those found absent among them. -/
def frameSpan (s : StringSt) (n : Nat) : Option (Nat × Nat) :=
  let l := (s.hist n).map (·.frame) ++ s.eng.absent.filterMap fun k => if k.1 = n then some k.2 else none
  match l with
  | [] => none
  | f :: r => some (r.foldl min f, r.foldl max f)

/-- The oldest record held of tile `n`. -/
def oldest (s : StringSt) (n : Nat) : Nat := match (s.hist n).getLast? with | some r => r.frame | none => 0

/-- The latest boundary that the jobs of block `j` have come to. -/
def lastJob (s : StringSt) (j : Nat) : Nat := (Tab.get (fun _ => none) s.eng.done j).getD s.eng.base

def waitOf (s : StringSt) (j : Nat) : List Nat := Tab.get (fun _ => []) s.eng.wait j

/-- The loops that a job of block `j` holds at boundary `f` (R198). -/
def jobLoopsAt (s : StringSt) (j f : Nat) : List Nat := (upFrom (32 * j) 32).filter fun a => s.starts a f

/-- The boundaries whose jobs of block `j` are still to be run, and can be, by the records that are held or awaited (R208). -/
def undone (s : StringSt) (j : Nat) : List Nat :=
  match s.frameSpan (j / 64) with
  | none => []
  | some (lo, hi) =>
    let lo := max lo (s.oldest (j / 64))
    let from_ := max (s.lastJob j + 1) lo
    ((s.waitOf j).filter fun f => decide (lo ≤ f)) ++ ((upFrom from_ (hi + 1 - from_)).filter fun f => !(s.jobLoopsAt j f).isEmpty)

/-- The blocks that have loops to run. -/
def busyBlocks (s : StringSt) : List Nat :=
  ((s.runningLoops.map (· / 32)) ++ s.eng.sets.map fun (e : Nat × List (Nat × Effect)) => e.1 / 32).eraseDups

/-- The engine that the job of block `j` at boundary `f` goes to, where it has one (R202 steps 2 and 4). -/
def jobTo (s : StringSt) (j f : Nat) : Option Nat :=
  if s.unplaced j then none
  else match Tab.get (fun _ => none) s.eng.moving j with
    | some (old, fm) => if f ≤ fm then some old else none
    | none => some (s.blkEngine j)

end StringSt
end Sys2Proof.Machine
end

