-- ==== Sys2Proof/Machine/Xtalk.lean ====
section
/-! DEFINITION. Crosstalk rows, snapshots, feed-forward frames, and the crosstalk jobs of the blocks: 09_routing_crosstalk.md R227 to R232. -/

namespace Sys2Proof.Machine
namespace StringSt

/-- Terms of the crosstalk row of act `a`: neighbour and coefficient (R227). -/
def rowTerms (s : StringSt) (a : Nat) : List (Nat × Int) :=
  (List.range (min 24 (bits (s.word (xtRow a)) 16 5))).map fun k =>
    let w := s.word (xtRow a + 32 + 4 * k)
    (bits w 0 14, sx 16 (bits w 16 16))

def rowOn (s : StringSt) (a : Nat) : Bool := bit (s.word (xtRow a)) 24

def rowMax (s : StringSt) (a : Nat) : Int :=
  let m := bits (s.word (xtRow a + 4)) 0 16
  if m = 0 then 32767 else (m : Int)

/-- The feed-forward frame of a stroke: B - 20 us (R231). -/
def ffInstant (k : Stroke) : Nat := ceilTo frameT k.ts - 2 * frameT

/-- No feed-forward frame is bound for a stroke cancelled with an effect frame at or before it (R231, R235). -/
def ffCancelled (k : Stroke) : Bool :=
  match k.stopped with | some e => decide (e ≤ ffInstant k) | none => false

/-- The target that a moving element is taken at, at snapshot `t` (R230): of several strokes the later. The instant of a stroke's
feed-forward frame counts with SFF = 0 too, where a stroke reaches feed-forward through the snapshots (R231; log entry 27). -/
def moverAt (s : StringSt) (a t : Nat) : Option Nat :=
  let p := TileSt.ratePeriod (s.loopCfg a).rate
  let runs := s.loopRuns a
  ((s.strokesOf a).foldl (fun (m : Option (Stroke × StrokeEnt)) k =>
    let resume := if runs then (k.2.te / p + 1) * p else (k.2.te / frameT + 1) * frameT
    if k.1.withdrawn = false ∧ bit k.1.missed (a / 2048) = false ∧ ffInstant k.1 ≤ t + 10 * frameT ∧
        t < resume + 10 * frameT then
      match m with
      | some q => if q.1.ts < k.1.ts ∨ (q.1.ts = k.1.ts ∧ q.1.armSeq < k.1.armSeq) then some k else m
      | none => some k
    else m) none).map fun q => q.2.p1

/-- The source of act `a` at snapshot `t` (R230). -/
def sourceAt (s : StringSt) (a t : Nat) : XtSrc :=
  let w := s.word (actRec a)
  if bit w 19 ∨ bits w 24 8 = 0 ∨ !bit w 18 then ⟨false, 0⟩
  else match s.moverAt a t with
    | some p => ⟨false, p⟩
    | none => ⟨s.loopRuns a, bits w 0 16⟩

/-- The source power of act `a` in a snapshot of instant `t` (R230): the code of a loop is that of its latest frame computed or hold-stepped,
under the configuration in force at `t`, that starts at or before t - 100 us. -/
def sourcePower (s : StringSt) (t : Nat) (tab : Tab XtSrc) (a : Nat) : Nat :=
  let q := Tab.get (fun _ => ⟨false, 0⟩) tab a
  let l := Tab.get (fun _ => []) s.eng.logs a
  let f := if q.loop then
      match l.find? fun m => decide (m.t ≤ t) with
      | some c => l.find? fun m => decide (m.t + 10 * frameT ≤ t) && m.cfg == c.cfg && !m.frozen
      | none => none
    else none
  match f with
  | some m => m.pc
  | none => q.open_

/-- The source has been computed for a snapshot of instant `t`, or its block has no engine to compute it (R232). -/
def sourceDone (s : StringSt) (t : Nat) (tab : Tab XtSrc) (a : Nat) : Bool :=
  let j := a / 32
  !(Tab.get (fun _ => (⟨false, 0⟩ : XtSrc)) tab a).loop || s.unplaced j || !s.engineOk (s.blkEngine j) ||
    !((s.undone j).any fun g => decide (g * frameT + 10 * frameT ≤ t) && s.starts a g)

/-- The source powers of the latest snapshot (R224, R230). -/
def snapPower (s : StringSt) (k : Nat) : Nat :=
  match s.eng.snaps with
  | q :: _ => s.sourcePower q.1 q.2 k
  | [] => 0

/-- FF of act `a` from source powers, and whether FFMAX clamped it (R229). -/
def feedForward (s : StringSt) (a : Nat) (sp : Nat → Nat) : Int × Bool :=
  if !s.rowOn a || !s.flag Reg.XT_CFG F.XT_CFG.EN then (0, false)
  else
    let ff := rhe ((s.rowTerms a).map fun q => q.2 * (sp q.1 : Int)).sum 16
    let v := clampI (-s.rowMax a) (s.rowMax a) ff
    (v, decide (v ≠ ff))

/-- A value of FF bound to a frame, the newest first; a feed-forward frame's goes before a snapshot's of the same frame (R235). -/
def bindFf (s : StringSt) (a key : Nat) (v : Int) : StringSt :=
  let l := Tab.get (fun _ => []) s.eng.ff a
  if l.isEmpty ∧ v = 0 then s
  else
    let up := l.takeWhile fun e => decide (key < e.1)
    let low := (l.drop up.length).filter fun e => e.1 != key
    { s with eng := { s.eng with ff := Tab.set (fun _ => []) s.eng.ff a ((up ++ (key, v) :: low).take 64) } }

/-! ## Crosstalk jobs (R232) -/

/-- The rows of block `j` that a job computes: at a snapshot those with terms, or with a value bound before; at a feed-forward frame those that
list a moving element (R230, R231). -/
def xtRows (s : StringSt) (q : XtJob) (j : Nat) : List Nat :=
  (upFrom (32 * j) 32).filter fun a =>
    if q.key % 2 = 0 then decide (bits (s.word (xtRow a)) 16 5 ≠ 0) || !(Tab.get (fun _ => []) s.eng.ff a).isEmpty
    else (s.rowTerms a).any fun e => q.movers.any fun m => m.1 == e.1

/-- The source powers of a job: of two movers the later in the order of play (R235). -/
def xtSource (s : StringSt) (q : XtJob) (a : Nat) : Nat :=
  match q.movers.reverse.find? fun e => e.1 == a with
  | some e => e.2
  | none => s.sourcePower q.snap q.tab a

/-- Every source that the job of block `j` names has been computed. -/
def xtReady (s : StringSt) (q : XtJob) (j : Nat) : Bool :=
  (s.xtRows q j).all fun a => (s.rowTerms a).all fun e =>
    (q.movers.any fun m => m.1 == e.1) || s.sourceDone q.snap q.tab e.1

/-- The job of block `j` computes its rows and binds their values. -/
def xtRun (s : StringSt) (q : XtJob) (j : Nat) : StringSt :=
  let s := (s.xtRows q j).foldl (fun s a =>
    let v := s.feedForward a (s.xtSource q)
    let s := if v.2 then s.addSat Reg.XT_SATCNT F.XT_SATCNT.CNT 1 else s
    s.bindFf a q.key v.1) s
  let s := s.wr Reg.XT_BIND (q.key / 2 % 4294967296)
  let less := fun (r : XtJob) => if r.key = q.key then { r with left := setDel r.left j } else r
  { s with eng := { s.eng with xt := (s.eng.xt.map less).filter fun r => !r.left.isEmpty } }

/-- The crosstalk jobs of block `j` bound at or before frame `f` run, in their order, as far as their sources allow. -/
def xtUpTo (s : StringSt) (j f : Nat) : StringSt :=
  (s.eng.xt.filter fun q => decide (q.key / 2 ≤ f) && q.left.contains j).foldl (fun s q => if s.xtReady q j then s.xtRun q j else s) s

/-- A crosstalk job that block `j` has still to run before its loops at frame `f`. -/
def xtWaits (s : StringSt) (j f : Nat) : Bool :=
  s.eng.xt.any fun q => decide (q.key / 2 ≤ f) && q.left.contains j && !s.xtReady q j

/-- The jobs bound before instant `t` run in every block that has an engine, so that they use what was in force before (R228). -/
def xtFlush (s : StringSt) (t : Nat) : StringSt :=
  let due := s.eng.xt.filter fun q => decide (q.key / 2 * frameT < t)
  due.foldl (fun s q => q.left.foldl (fun s j =>
    if !s.unplaced j && s.engineOk (s.blkEngine j) && s.xtReady q j then s.xtRun q j else s) s) s

/-- Puts the jobs of a snapshot or a feed-forward frame in line, in the order of their frames; those of one key are one (R235). -/
def xtAdd (s : StringSt) (q : XtJob) : StringSt :=
  if q.left.isEmpty then s
  else
    let l := s.eng.xt.filter fun r => r.key != q.key
    { s with eng := { s.eng with xt := (insertBy (fun (a b : XtJob) => decide (a.key ≤ b.key)) q l).drop (l.length + 1 - 64) } }

/-- The blocks with rows that a job computes. -/
def xtBlocks (s : StringSt) (q : XtJob) : List Nat := (List.range 512).filter fun j => !(s.xtRows q j).isEmpty

/-- XT_SNAPSHOT: the snapshot of the latest multiple of 100 us, once (R230); the jobs of earlier frames have run by then. Strokes that are
judged and long past are let go. -/
def snapshot (s : StringSt) : StringSt :=
  let k := s.time / (10 * frameT) * (10 * frameT)
  if s.eng.snaps.any fun q => decide (k ≤ q.1) then s
  else
    let s := s.xtFlush (k + 1)
    let used := (((List.range 16384).map fun a => (s.rowTerms a).map (·.1)).flatten).eraseDups
    let tab := used.foldl (fun m a => Tab.set (fun _ => ⟨false, 0⟩) m a (s.sourceAt a k)) []
    let s := { s with eng := { s.eng with snaps := ((k, tab) :: s.eng.snaps).take 4 } }
    let q : XtJob := ⟨2 * (k / frameT + 10), k, tab, [], []⟩
    let s := s.xtAdd { q with left := s.xtBlocks q }
    { s with plan := { s.plan with strokes := s.plan.strokes.filter fun q =>
      !((q.withdrawn || (q.past && q.xtDone && q.calDone)) && decide ((q.ents.foldl (fun m e => max m e.te) q.ts) + 8 * msT < s.time)) } }

/-- A PLCANCEL of the stroke with an effect frame at or before `t`, in a phrase whose effects have not been applied yet (R231, R235). -/
def cancelDue (s : StringSt) (armSeq t : Nat) : Bool :=
  s.ring.recs.any fun r => (match r.eff with | some e => decide (e ≤ t) | none => false) && r.effects.contains (.cancel (some armSeq))

/-- FF_FRAME: the strokes whose feed-forward frame has come, together where they share it (R231, R235). -/
def ffFrame (s : StringSt) : StringSt :=
  let due := s.plan.strokes.filter fun k => !k.ffDone && decide (ffInstant k ≤ s.time)
  let mark := fun (k : Stroke) => if ffInstant k ≤ s.time then { k with ffDone := true } else k
  let live := s.plan.strokes.filter fun k => !ffCancelled k && !s.cancelDue k.armSeq (ffInstant k)
  let s := { s with plan := { s.plan with strokes := s.plan.strokes.map mark } }
  if !s.flag Reg.XT_CFG F.XT_CFG.SFF then s
  else
    ((due.map ffInstant).eraseDups).foldl (fun s t =>
      let ks := sortBy (fun (a b : Stroke) => decide (a.ts < b.ts) || (decide (a.ts = b.ts) && decide (a.armSeq ≤ b.armSeq)))
        (live.filter fun k => decide (ffInstant k = t))
      let snap := match s.eng.snaps.find? fun q => decide (q.1 + 10 * frameT ≤ t) with | some q => q | none => (0, [])
      let q : XtJob := ⟨2 * frameOf t + 1, snap.1, snap.2, (ks.map fun k => k.ents.map fun e => (e.act, e.p1)).flatten, []⟩
      s.xtAdd { q with left := s.xtBlocks q }) s

end StringSt
end Sys2Proof.Machine
end

