-- ==== Sys2Proof/Machine/Jobs.lean ====
section
/-! DEFINITION. The jobs of the engines, and the records and codes that pass between tiles and strings: 08_loops.md R198 to R210, 07_drone.md R182,
01_architecture.md R25, 12_redundancy.md R289. -/

namespace Sys2Proof.Machine
namespace StringSt

/-- The record of tile `n` for frame `f` is there or found absent, since `t` at the latest (R198). -/
def recordBy (s : StringSt) (n f t : Nat) : Bool :=
  ((s.recordOf n f).isSome || s.isAbsent n f) && s.eng.came.all fun k => decide (k.1 ≠ n ∨ k.2.1 ≠ f ∨ k.2.2 ≤ t)

/-- The job of block `j` at boundary `f` is ready at instant `t` (R198): its record is there, and none of its loops waits in an earlier
boundary's job (R206, R207), nor for the crosstalk of its block (R232). -/
def jobReady (s : StringSt) (j f t : Nat) : Bool :=
  let l := s.undone j
  l.contains f && s.recordBy (j / 64) f t && decide (Tab.get (fun _ => 0) s.eng.placed j ≤ t) &&
    (l.all fun g => decide (f ≤ g) || !((s.jobLoopsAt j f).any fun a => s.starts a g)) && !s.xtWaits j f

/-- The earliest code deadline of a job, without the 500 ns that all have (R25, R198). -/
def jobDue (s : StringSt) (j f : Nat) : Nat :=
  match (s.jobLoopsAt j f).map fun a => f * frameT + 2 * s.periodAt a f with
  | [] => 0
  | d :: l => l.foldl min d

/-- Job (k, g) is served before job (j, f) (R198). -/
def jobBefore (s : StringSt) (k g j f : Nat) : Bool :=
  decide (s.jobDue k g < s.jobDue j f ∨ (s.jobDue k g = s.jobDue j f ∧ (k < j ∨ (k = j ∧ g < f))))

/-- The engine that starts the job of block `j` at boundary `f` at instant `t`: the job is ready, and no ready job of that engine goes
before it (R198). -/
def jobEngine (s : StringSt) (j f t : Nat) : Option Nat :=
  match s.jobTo j f with
  | none => none
  | some e =>
    if s.engineOk e && s.jobReady j f t && (s.busyBlocks.all fun k => (s.undone k).all fun g =>
        !(s.jobTo k g == some e && s.jobReady k g t && s.jobBefore k g j f)) then some e else none

/-- The old engine's queue of the block is drained: the first job goes to the new engine (R202 step 4). -/
def moveRelease (s : StringSt) (j : Nat) : StringSt :=
  match Tab.get (fun _ => none) s.eng.moving j with
  | some (_, fm) => if (s.undone j).any fun f => decide (f ≤ fm) then s else s.release j
  | none => s

/-- A job that can run needs the record of tile `n` for frame `f` (R207). -/
def needed (s : StringSt) (n f : Nat) : Bool :=
  s.busyBlocks.any fun j => decide (j / 64 = n) && !s.unplaced j && s.engineOk (s.blkEngine j) && (s.undone j).contains f

/-- A record of tile `n` for frame `f` has come, or is known to be absent, at last: the jobs of earlier boundaries that waited with it catch
up (R206, R207). -/
def arrived (s : StringSt) (n f : Nat) : StringSt :=
  let late := s.eng.asked.contains (n, f)
  let s := { s with eng := { s.eng with
    came := (n, f, s.time) :: s.eng.came.filter fun k => decide (k.1 ≠ n ∨ f ≤ k.2.1 + 64)
    asked := s.eng.asked.filter fun e => decide (e ≠ (n, f)) } }
  if late then (s.busyBlocks.filter fun j => decide (j / 64 = n)).foldl fallBehind s else s

/-- A record enters the history of tile `n`; a second copy of one boundary is discarded (R207, R209). A record leaves with the 33rd after it,
once no job needs it. -/
def keepRecord (s : StringSt) (n : Nat) (r : ErrRec) : StringSt :=
  if (s.recordOf n r.frame).isSome then s
  else
    let l := insertBy (fun (a b : ErrRec) => decide (b.frame ≤ a.frame)) r (s.hist n)
    let l := (l.take 32) ++ (l.drop 32).filter fun q => s.needed n q.frame
    ({ s with eng := { s.eng with hist := Tab.set (fun _ => []) s.eng.hist n l } }).arrived n r.frame

/-- Loop `a` cannot be caught up (R208); with no partner joined LOST clears at once (12_redundancy.md R297). -/
def loseLoop (s : StringSt) (a : Nat) : StringSt :=
  let v := s.loopVal a
  let s := s.markFlag 7
  let s := (s.setLoopVal a { v with lost := s.joined || decide (s.role = rSTANDBY) }).addSat Reg.ENG_LOSTCNT F.ENG_LOSTCNT.CNT 1
  let iv := s.time / sweepT
  if s.eng.lostNote = some iv then s
  else ({ s with eng := { s.eng with lostNote := some iv } }).occur 9 a

/-- A frame of loop `a` was to be run whose record has left the history: its state is older than the oldest record held (R208). -/
def loopGap (s : StringSt) (a : Nat) : Bool :=
  let j := a / 32
  let lo := s.oldest (j / 64)
  let p := s.periodAt a lo / frameT
  s.loopRuns a && (decide ((s.lastJob j / p + 1) * p < lo) || (s.waitOf j).any fun f => decide (f < lo) && s.starts a f)

/-- The start of a job of block `j`: loops that a gap or an unreadable record loses (R208), and nothing that has left the history is waited
for any longer. -/
def jobStart (s : StringSt) (j bad : Nat) : StringSt :=
  let lo := s.oldest (j / 64)
  let lost := (upFrom (32 * j) 32).filter fun a => s.loopGap a || (s.loopRuns a && bit bad (a % 32))
  let s := lost.foldl loseLoop s
  { s with eng := { s.eng with
    done := Tab.set (fun _ => none) s.eng.done j (some (max (s.lastJob j) (lo - 1)))
    wait := Tab.set (fun _ => []) s.eng.wait j ((s.waitOf j).filter fun f => decide (lo ≤ f)) } }

/-- The MAC count of loop `a` at the frame of instant `t` (R193, R203): 5 x NSEC where it was computed. -/
def macOf (s : StringSt) (a t : Nat) : Nat :=
  match (Tab.get (fun _ => []) s.eng.logs a).head? with
  | some m => if m.t = t ∧ m.run ∧ !m.invalid then 5 * (s.loopCfg a).nsec else 0
  | none => 0

/-- One loop of a job, finished at instant `now`. -/
def jobLoop (s : StringSt) (a e f now : Nat) : StringSt :=
  let n := a / 2048
  let i := match s.recordOf n f with
    | some r => (match r.ents.find? fun x => x.1 == a % 2048 with
        | some x => if x.2.1 = 0x8000 then none else some x.2.1
        | none => none)
    | none => none
  let behind := decide (f < Tab.get (fun _ => 0) s.eng.behind (a / 32))
  let before := (s.loopVal a).frame
  let s := s.loopFrame a e f i now
  if behind && s.loopRuns a && decide ((s.loopVal a).frame ≠ before) then s.addSat Reg.ENG_MISS F.ENG_MISS.CATCHUP 1 else s

/-- The latency monitor of engine `e` takes a job (R203): RATE is MAC / (4 x busy time) over the jobs of the latest millisecond, RMIN its
lowest, and BUSY the highest part of a millisecond that they fill (log entry 38). -/
def measure (s : StringSt) (e : Nat) (r : JobRun) : StringSt :=
  let l := r :: (Tab.get (fun _ => []) s.eng.runs e).filter fun q => decide (r.stop < q.stop + msT)
  let mac := (l.map (·.mac)).foldl (· + ·) 0
  let busy := (l.map fun q => q.stop - q.start).foldl (· + ·) 0
  let in_ := (l.map fun q => q.stop - max q.start (r.stop - msT)).foldl (· + ·) 0
  let s := { s with eng := { s.eng with runs := Tab.set (fun _ => []) s.eng.runs e l } }
  let s := s.setFld (Reg.ENG_LOAD e) F.ENG_LOAD.BUSY (max (s.fld (Reg.ENG_LOAD e) F.ENG_LOAD.BUSY) (min 1000 (in_ * 1000 / msT)))
  if busy = 0 then s
  else
    let rate := min 65535 (mac * usT / (4 * busy))
    let low := s.fld (Reg.ENG_LAT e) F.ENG_LAT.RMIN
    (s.setFld (Reg.ENG_LAT e) F.ENG_LAT.RATE rate).setFld (Reg.ENG_LAT e) F.ENG_LAT.RMIN (if low = 0 then rate else min low rate)

/-- The end of the job of block `j` at boundary `f`: `open_` are the earlier boundaries whose jobs are still to be run. -/
def jobEnd (s : StringSt) (j f : Nat) (open_ : List Nat) : StringSt :=
  { s with eng := { s.eng with
    done := Tab.set (fun _ => none) s.eng.done j (some (max (s.lastJob j) f))
    wait := Tab.set (fun _ => []) s.eng.wait j open_
    part := Tab.set (fun _ => none) s.eng.part j (match Tab.get (fun _ => none) s.eng.part j with
      | some q => if q.1 = f then none else some q
      | none => none)
    codes := s.eng.codes.filter fun k => decide (frameOf s.time < k.2.1)
    absent := s.eng.absent.filter fun k => decide (k.1 ≠ j / 64 ∨ f ≤ k.2 + 64) } }

/-- JOBTO in force (R204, R210). -/
def jobTimeout (s : StringSt) : Nat := max 5 (s.fld Reg.ENG_CFG F.ENG_CFG.JOBTO) * usT

/-- A record of tile `n` for frame `f` cannot be had (R207). -/
def declareAbsent (s : StringSt) (n f : Nat) : StringSt :=
  if s.isAbsent n f ∨ (s.recordOf n f).isSome then s
  else (({ s with eng := { s.eng with absent := s.eng.absent ++ [(n, f)] } }).arrived n f).addSat Reg.ENG_HIST F.ENG_HIST.ABSENT 1

/-- A partner is joined, for the active string and for its standby. -/
def paired (s : StringSt) : Bool := s.joined || decide (s.role = rSTANDBY)

/-- The first entry of each element in each report interval that is large enough for a lag sample (R276). Those of twelve intervals are held; one that is
then overwritten is dropped (R266; log entry 101). -/
def lagEntries (s : StringSt) (n : Nat) (r : ErrRec) : StringSt :=
  if !s.calOn then s else
  let iv := r.frame * frameT / sweepT
  let small : Int := ((16 * s.fld Reg.CAL_CFG2 F.CAL_CFG2.LAGMIN : Nat) : Int)
  r.ents.foldl (fun s e =>
    let a := 2048 * n + e.1
    let l := Tab.get (fun _ => []) s.cal.firsts a
    if e.2.1 = 0x8000 ∨ ((sx 16 e.2.1).natAbs : Int) < small ∨ l.any (fun q => q.1 == iv) then s
    else
      let s := if 12 ≤ l.length then s.addSat Reg.CAL_DROP F.CAL_DROP.LO 1 else s
      { s with cal := { s.cal with firsts := Tab.set (fun _ => []) s.cal.firsts a ((iv, sx 16 e.2.1, sx 16 e.2.2) :: l.take 11) } }) s

/-- A record arrives from tile `n` with the header bits [10:0] of word 0 as received (R182). -/
def takeRecord (s : StringSt) (n hdr : Nat) (r : ErrRec) : StringSt :=
  if bits hdr 0 8 ≠ 0xD5 ∨ bits hdr 8 3 ≠ n then s.addSat (Reg.DRN_RXSTAT n) F.DRN_RXSTAT.BADHDR 1
  else
    let last := s.fld (Reg.DRN_LASTRSEQ n) F.DRN_LASTRSEQ.RSEQ
    let gap := (r.rseq + 4294967296 - (last + 1) % 4294967296) % 4294967296
    let s := if gap = 0 then s else s.addSat (Reg.DRN_RXSTAT n) F.DRN_RXSTAT.LOST gap
    ((s.wr (Reg.DRN_LASTRSEQ n) r.rseq).keepRecord n r).lagEntries n r

end StringSt

namespace State

/-- The instant of string `x`'s clock at a past instant of true time. -/
def instOf (s : State) (x : Str) (t : Nat) : Nat := (s.str x).time - elapsed (s.now - t) (s.str x).rate

/-- The loops of a job one after the other, each finished at its own instant: those that a failed engine has finished are not run again, nor
any after the instant `stop` at which this one fails (R198, R204, R206). How many are finished, and their MAC count. -/
def jobLoops (s : State) (x : Str) (j e f stop : Nat) (ts : List Nat) : State × Nat × Nat :=
  let first := match Tab.get (fun _ => (none : Option (Nat × Nat))) (s.str x).eng.part j with | some q => if q.1 = f then q.2 else 0 | none => 0
  ts.zipIdx.foldl (fun (r : State × Nat × Nat) q =>
    let a := 32 * j + q.2
    if q.2 < first ∨ !(r.1.str x).starts a f then (if r.2.1 = q.2 then (r.1, q.2 + 1, r.2.2) else r)
    else if stop < q.1 ∨ r.2.1 < q.2 then r
    else
      let s := r.1.updStr x fun c => c.jobLoop a e f (r.1.instOf x q.1)
      (s, q.2 + 1, r.2.2 + (s.str x).macOf a (f * frameT))) (s, 0, 0)

/-- A job of block `j` at boundary `f` that starts at `t0` and ends at `te`, when the command arrives (R198). `ts`: the instants at which its 32
loops are finished. `bad`: loops whose record read with an uncorrectable error (R208). `store`: the engine's local
store reported one, and no loop is finished (R204). A job not completed JOBTO after its start ends there with its engine's failure (R204). -/
def engineJob (s : State) (x : Str) (j f t0 : Nat) (ts : List Nat) (te bad : Nat) (store : Bool) : State :=
  let s' := s.advance te
  match (if (s'.str x).computes then (s'.str x).jobEngine j f (s'.instOf x t0) else none) with
  | none => s'
  | some e =>
    if store then s'.updStr x fun c => c.failEngine e 3
    else
      let open_ := ((s'.str x).undone j).filter fun g => decide (g < f ∨ (g ≠ f ∧ g ≤ (s'.str x).lastJob j))
      let stop := t0 + (s'.str x).jobTimeout
      let s := s'.updStr x fun c => (c.xtUpTo j f).jobStart j bad
      let r := s.jobLoops x j e f stop ts
      if r.2.1 < 32 ∨ stop < te then
        r.1.updStr x fun c => ({ c with eng := { c.eng with part := Tab.set (fun _ => none) c.eng.part j (some (f, r.2.1)) } }).failEngine e 1
      else
        r.1.updStr x fun c => (c.jobEnd j f open_).measure e ⟨r.1.instOf x t0, r.1.instOf x te, r.2.2⟩

/-- RECORD_FETCH (R207): 4 us after its boundary, a record that is missing is asked of the partner, or is absent without one. -/
def recordFetch (s : State) (x : Str) (n f : Nat) : State :=
  s.updStr x fun c =>
    if (c.recordOf n f).isSome ∨ c.isAbsent n f ∨ c.time < f * frameT + 4 * usT then c
    else if c.paired && c.brgUp then
      ({ c with eng := { c.eng with asked := (n, f) :: c.eng.asked.filter fun e => decide (e ≠ (n, f)) } }).send (.recReq n f)
    else if c.paired then c
    else c.declareAbsent n f

/-- PARTNER_RECORD_REQUEST (R207): string `x` takes its partner's request and replies; the reply acts on the partner at once. -/
def recordRequest (s : State) (x : Str) : State :=
  match takeFirst (fun m => match m with | BMsg.recReq n f => some (n, f) | _ => none) (s.str x.other).outbox with
  | none => s
  | some ((n, f), l) =>
    let had := (s.str x).recordOf n f
    s.updStr x.other fun c =>
      let c := { c with outbox := l }
      match had with
      | some r => if (c.recordOf n f).isSome then c else ((c.keepRecord n r).lagEntries n r).addSat Reg.ENG_HIST F.ENG_HIST.FETCH 1
      | none => c.declareAbsent n f

/-- ERROR_RECORD_RECEIVE: string `x` takes the next record of tile `n` (R181, R182), with a correct link check or without (R207). -/
def recordReceive (s : State) (x : Str) (n hdr : Nat) (check : Bool) : State :=
  let d := s.tile n
  match takeFirst (fun r => match r with | TRep.error r => some r | _ => none) (d.reports x) with
  | none => s
  | some (r, l) =>
    (s.setTile n (d.setReports x l)).updStr x fun c =>
      -- a link check that fails is a tile link fault of the health report (12_redundancy.md R300); a correct one ends source k = 0 (R364)
      if check then
        let c := { c with eng := { c.eng with heard := Tab.set (fun _ => 0) c.eng.heard n c.time } }
        (c.live (32 + 16 * n) false).takeRecord n hdr r
      else ((c.addSat (Reg.TLK_ERR n) F.TLK_ERR.CRCERR 1).markFlag (16 + n)).markFlag 5

/-- The codes of tile `n` that string `c` holds for frame `f`. -/
def codesFor (c : StringSt) (n f : Nat) : List (Nat × Nat) :=
  let own := c.eng.codes.filterMap fun k => if k.1 = n ∧ k.2.1 = f then some k.2.2 else none
  if c.fld Reg.PWR_STAT F.PWR_STAT.STATE = 1 then
    -- held frames in the power state HOLD, with the feed-forward as last bound (17_power_thermal_ageing.md R388)
    own ++ (c.runningLoops.filter fun a => a / 2048 == n && decide (f * frameT % TileSt.ratePeriod (c.loopCfg a).rate = 0) &&
      !own.any fun k => k.1 == a % 2048).map fun a =>
        (a % 2048, StringSt.outPc (c.loopCfg a) (c.loopVal a).acc (c.ffAt a (f - 2 * 2 ^ (c.loopCfg a).rate)))
  else own

/-- The running set of tile `n` (R289): its loops in RUN or COAST with their rates. -/
def runningSet (c : StringSt) (n : Nat) : List (Nat × Nat) :=
  (c.runningLoops.filter fun a => a / 2048 == n && c.loopRuns a).map fun a => (a % 2048, (c.loopCfg a).rate)

/-- CODE_RECORD (R25, R289): string `x` sends tile `n` the codes due at frame `f`; the tile counts those it discards as late (20_register_map.md
R450). -/
def codeRecord (s : State) (n : Nat) (x : Str) (f : Nat) : State :=
  let c := s.str x
  if c.holds || decide (c.role = rSTANDBY) then
    let l := codesFor c n f
    let first := c.holds && c.red.firstRec.contains n
    let r := (s.tile n).takeCodes x ⟨f, l, if first then some (runningSet c n) else none⟩
    (s.setTile n r.1).updStr x fun c =>
      let c := { c with
        eng := { c.eng with codes := c.eng.codes.filter fun k => decide (k.1 ≠ n ∨ k.2.1 ≠ f) }
        red := { c.red with firstRec := if first && r.2 then setDel c.red.firstRec n else c.red.firstRec } }
      let c := c.wr (Reg.TLK_CODES n) ((c.rd (Reg.TLK_CODES n) + 1) % 4294967296)
      if r.2 then c else c.addSat (Reg.TLK_DISC n) F.TLK_DISC.LATE l.length
  else s

/-- CODE_DEADLINE (R296): the comparison at tile `n`, counted by both strings. -/
def codeDeadline (s : State) (n : Nat) : State :=
  let r := (s.tile n).deadline
  (s.setTile n r.1).updBoth fun c =>
    let o := Reg.RED_CMPERR n
    let c := ((c.addSat o F.RED_CMPERR.MM r.2.mm).addSat o F.RED_CMPERR.MISSOTHER r.2.missOther).addSat o F.RED_CMPERR.MISSCAPO
      r.2.missCapo
    let del := if r.2.missCapo = 0 ∨ !r.2.delivered then 0 else Tab.get (fun _ => 0) c.red.missDel n + 1
    let any := if r.2.missCapo = 0 then 0 else Tab.get (fun _ => 0) c.red.missAny n + 1
    { c with red := { c.red with
      missDel := Tab.set (fun _ => 0) c.red.missDel n del
      missAny := Tab.set (fun _ => 0) c.red.missAny n any } }

end State

/-! ## Commands -/

/-- ERROR_RECORD_SEND (R181). -/
def execErrorRecordSend (n : Fin 8) (t : Nat) (s : State) : Out :=
  .next ((s.advance t).updTile n.val fun d => if d.domOn 0 then d.sendRecord n.val else d)

/-- ERROR_RECORD_RECEIVE (R182, R207). -/
def execErrorRecordReceive (x : Str) (n : Fin 8) (hdr : BitVec 11) (check : Bool) (s : State) : Out :=
  .next (s.recordReceive x n.val hdr.toNat check)

/-- RECORD_FETCH (R207). -/
def execRecordFetch (x : Str) (n : Fin 8) (f : Nat) (t : Nat) (s : State) : Out := .next ((s.advance t).recordFetch x n.val f)

/-- PARTNER_RECORD_REQUEST (R207). -/
def execPartnerRecordRequest (x : Str) (s : State) : Out := .next (s.recordRequest x)

/-- ENGINE_JOB (R192 to R201, R203, R206, R208). -/
def execEngineJob (x : Str) (j : Fin 512) (f t0 : Nat) (ts : List Nat) (te : Nat) (bad : BitVec 32) (store : Bool) (s : State) : Out :=
  if ts.length = 32 then .next (s.engineJob x j.val f t0 ts (ts.foldl max (max t0 te)) bad.toNat store) else .fault .malformed

/-- CODE_RECORD (R25, R289). -/
def execCodeRecord (n : Fin 8) (x : Str) (f : Nat) (t : Nat) (s : State) : Out := .next ((s.advance t).codeRecord n.val x f)

/-- CODE_DEADLINE (R296). -/
def execCodeDeadline (n : Fin 8) (t : Nat) (s : State) : Out := .next ((s.advance t).codeDeadline n.val)

/-- ENGMAP_WRITE (R202, R209). -/
def execEngmapWrite (x : Str) (j : Fin 512) (v : Word) (t : Nat) (s : State) : Out :=
  .next ((s.advance t).updStr x fun c => c.mapWrite j.val v.toNat)

/-- BLOCK_MOVE_RELEASE (R202 step 4). -/
def execBlockMoveRelease (x : Str) (j : Fin 512) (s : State) : Out := .next (s.updStr x fun c => c.moveRelease j.val)

/-- ENGINE_JOB_TIMEOUT (R204): the job that the engine started at `t0` has not completed at `t`; it has failed where JOBTO has passed. -/
def execEngineJobTimeout (x : Str) (e : Fin 36) (job : Span) (s : State) : Out :=
  .next ((s.advance job.t).updStr x fun c => if c.engineOk e.val ∧ job.t0 + c.jobTimeout ≤ job.t then c.failEngine e.val 1 else c)

/-- A known-answer job of engine `e` from `t0` to now, of `mac` MAC: its measurement, or the engine's failure (R203, R204). -/
def State.katJob (s : State) (x : Str) (e mac t0 : Nat) (good : Bool) : State :=
  s.updStr x fun c =>
    if c.engineOk e && c.flag Reg.ENG_CFG F.ENG_CFG.KATEN &&
        (decide (c.role_ e = 1) || decide (c.fld Reg.ENG_CFG F.ENG_CFG.KATPER ≠ 0)) then
      if s.now > t0 + c.jobTimeout then c.failEngine e 1
      else if good then c.measure e ⟨s.instOf x t0, c.time, mac⟩
      else c.failEngine e 2
    else c

/-- KAT_JOB (R203, R204): on a spare, or with KATPER on a working engine, from `t0` to `t`, of `mac` MAC; `good`: the result is the known
one. -/
def execKatJob (x : Str) (e : Fin 36) (mac : BitVec 16) (run : KatRun) (s : State) : Out :=
  .next ((s.advance run.t).katJob x e.val mac.toNat run.t0 run.good)

/-- ENG_ROLE_WRITE (R210). -/
def execEngRoleWrite (x : Str) (e : Fin 36) (v : Word) (s : State) : Out :=
  .next (s.updStr x fun c => c.roleWrite e.val v.toNat)

/-- ENGINE_DOMAIN_FAULT (R204). -/
def execEngineDomainFault (x : Str) (e : Fin 36) (s : State) : Out := .next (s.updStr x fun c => c.failEngine e.val 4)

end Sys2Proof.Machine
end

