-- ==== Sys2Proof/Machine/RteTab.lean ====
section
/-! DEFINITION. The route tables of a string and their pending changes (09_routing_crosstalk.md R211 to R216, R226). -/

namespace Sys2Proof.Machine

abbrev inTab (p : Nat) : Nat := 0x00D80000 + 8 * p
abbrev outTab (p : Nat) : Nat := 0x00D84000 + 8 * p
abbrev cellTab (c : Nat) : Nat := 0x00D88000 + 8 * c

/-- The output that a cell of a KIND and STATE joins input `i` to, and the input that output `o` comes from (R211). -/
def cellJoin (kind st i : Nat) : Option Nat :=
  match kind with
  | 0 => if st = 0 then some i else if st = 1 then some (1 - i) else none
  | 1 => if i = 0 ∧ st ≤ 1 then some st else none
  | _ => if i = 0 ∧ st = 1 then some 0 else none

def cellFrom (kind st o : Nat) : Option Nat := (List.range 2).find? fun i => cellJoin kind st i == some o

/-- The state that joins input `i` to output `o`. -/
def stateFor (kind i o : Nat) : Option Nat := (List.range 2).find? fun st => cellJoin kind st i == some o

namespace StringSt

def rteReady (s : StringSt) : Bool := s.flag Reg.RTE_STAT F.RTE_STAT.READY

def cellState (s : StringSt) (c : Nat) : Nat := bits (s.word (cellTab c)) 0 2
def cellFState (s : StringSt) (c : Nat) : Nat := bits (s.word (cellTab c)) 2 2
def cellPend (s : StringSt) (c : Nat) : Bool := bit (s.word (cellTab c)) 4
def cellNcirc (s : StringSt) (c : Nat) : Nat := bits (s.word (cellTab c)) 16 2

/-- Far end of port in a table entry: current, future. -/
def farNow (s : StringSt) (e : Nat) : Option Nat := if bit (s.word e) 15 then some (bits (s.word e) 0 11) else none
def farFut (s : StringSt) (e : Nat) : Option Nat := if bit (s.word e) 31 then some (bits (s.word e) 16 11) else none

def putNow (s : StringSt) (e : Nat) (v : Option Nat) : StringSt :=
  s.setWord e (putBits (s.word e) 0 16 (match v with | some p => p + 32768 | none => 0))
def putFut (s : StringSt) (e : Nat) (v : Option Nat) : StringSt :=
  s.setWord e (putBits (s.word e) 16 16 (match v with | some p => p + 32768 | none => 0))

/-- PEND and SLOT of a port entry. -/
def putPortPend (s : StringSt) (e : Nat) (v : Option Nat) : StringSt :=
  s.setWord (e + 4) (putBits (s.word (e + 4)) 0 8 (match v with | some k => k + 128 | none => 0))

/-- The path of cells that ends at a link, from its input port, through the states `st`: (cell, input, output) each. -/
def tracePath (s : StringSt) (st : Nat → Nat) : Nat → Nat → Option (Nat × List (Nat × Nat × Nat))
  | 0, _ => none
  | fuel + 1, l =>
    match linkPort l with
    | some p => some (p, [])
    | none =>
      match linkCell l with
      | some (c, o) =>
        match cellFrom (s.cellKind c) (st c) o with
        | some i => (s.tracePath st fuel (s.cellIn c i)).map fun r => (r.1, r.2 ++ [(c, i, o)])
        | none => none
      | none => none

/-- The input port and the cells of the circuit that reaches output port `p` through the states `st`. -/
def traceOut (s : StringSt) (st : Nat → Nat) (p : Nat) : Option (Nat × List (Nat × Nat × Nat)) := s.tracePath st 257 (s.outLink p)

/-- NCIRC, CIN0, CIN1 of every cell and HOPS of every port, from the future circuits (R213, R214). -/
def retrace (s : StringSt) : StringSt :=
  let s := (List.range s.fabNcell).foldl (fun s c =>
    (s.setWord (cellTab c) (putBits (s.word (cellTab c)) 16 2 0)).setWord (cellTab c + 4) 0x0FFF0FFF) s
  let s := (List.range s.fabNin).foldl (fun s p => s.setWord (inTab p + 4) (putBits (s.word (inTab p + 4)) 16 8 0)) s
  (List.range s.fabNout).foldl (fun s p =>
    match s.farFut (outTab p) with
    | some i =>
      match s.traceOut s.cellFState p with
      | some (_, l) =>
        let s := l.foldl (fun s e =>
          let a := cellTab e.1
          (s.setWord a (putBits (s.word a) 16 2 (bits (s.word a) 16 2 + 1))).setWord (a + 4)
            (putBits (s.word (a + 4)) (16 * e.2.1) 12 i)) s
        let s := s.setWord (outTab p + 4) (putBits (s.word (outTab p + 4)) 16 8 l.length)
        s.setWord (inTab i + 4) (putBits (s.word (inTab i + 4)) 16 8 l.length)
      | none => s
    | none => s.setWord (outTab p + 4) (putBits (s.word (outTab p + 4)) 16 8 0)) s

/-- The future state, PEND and SLOT of the cells and ports named, from the current state and the pending changes in arm order (R215). -/
def refuture (s : StringSt) (cells ins outs : List Nat) : StringSt :=
  let pend := sortBy (fun (a b : RtPend) => decide (a.armSeq ≤ b.armSeq)) s.rte.pend
  let s := { s with rte := { s.rte with touched := cells.foldl (fun m c => Tab.set (fun _ => 0) m c s.time) s.rte.touched } }
  let s := cells.foldl (fun s c =>
    let last := pend.foldl (fun (m : Option (Nat × Nat)) q => match q.cells.find? fun e => e.1 == c with
      | some e => some (e.2, q.slot) | none => m) none
    let w := s.word (cellTab c)
    match last with
    | some (st, k) => s.setWord (cellTab c) (putBits (putBit (putBits w 2 2 st) 4 true) 8 7 k)
    | none => s.setWord (cellTab c) (putBits (putBit (putBits w 2 2 (bits w 0 2)) 4 false) 8 7 0)) s
  let port := fun (s : StringSt) (e : Nat) (get : RtPend → Option (Nat × Option Nat)) =>
    let last := pend.foldl (fun (m : Option (Option Nat × Nat)) q => match get q with
      | some v => some (v.2, q.slot) | none => m) none
    match last with
    | some (v, k) => (s.putFut e v).putPortPend e (some k)
    | none => (s.putFut e (s.farNow e)).putPortPend e none
  let s := ins.foldl (fun s p => port s (inTab p) fun q => q.ins.find? fun e => e.1 == p) s
  let s := outs.foldl (fun s p => port s (outTab p) fun q => q.outs.find? fun e => e.1 == p) s
  s.retrace

/-- The counts of RTE_STAT (R237). -/
def rteCounts (s : StringSt) : Nat × Nat × Nat :=
  (((List.range s.fabNin).filter fun p => (s.farNow (inTab p)).isSome).length,
   ((List.range s.fabNin).filter fun p => (s.farFut (inTab p)).isSome).length,
   ((s.rte.pend.map fun q => q.slot).eraseDups).length)

/-- The changes of a played stroke become current, with what they move noted (R226, R272). -/
def makeCurrent (s : StringSt) (q : RtPend) : StringSt :=
  let s := { s with rte := { s.rte with moves :=
    ((q.armSeq, q.cells.map fun e => (e.1, s.cellState e.1, e.2)) :: s.rte.moves).take 64 } }
  let s := q.cells.foldl (fun s e => s.setWord (cellTab e.1) (putBits (s.word (cellTab e.1)) 0 2 e.2)) s
  let s := q.ins.foldl (fun s e => s.putNow (inTab e.1) e.2) s
  q.outs.foldl (fun s e => s.putNow (outTab e.1) e.2) s

/-- Every pending change bound to an arm becomes current, in the order of binding, or is dropped (R226). -/
def settlePend (s : StringSt) (armSeq : Nat) (play : Bool) : StringSt :=
  let l := s.rte.pend.filter fun q => q.armSeq == armSeq
  if l.isEmpty then s
  else
    let s := { s with rte := { s.rte with pend := s.rte.pend.filter fun r => r.armSeq != armSeq } }
    let s := if play then l.foldl makeCurrent s else s
    s.refuture ((l.map fun q => q.cells.map (·.1)).flatten.eraseDups) ((l.map fun q => q.ins.map (·.1)).flatten.eraseDups)
      ((l.map fun q => q.outs.map (·.1)).flatten.eraseDups)

/-- The route changes of a missed stroke are dropped, in the command order, and counted in RTE_MISS (R226). What RTBIND binds to it after
that is dropped as it is bound. -/
def dropMissed (s : StringSt) (slot armSeq : Nat) : StringSt :=
  let had := s.rte.pend.any fun q => q.armSeq == armSeq
  let s := { s with plan := { s.plan with strokes := s.plan.strokes.map fun k => if k.armSeq = armSeq then { k with dropped := true } else k } }
  if had then
    ((s.settlePend armSeq false).addSat Reg.RTE_MISS F.RTE_MISS.CNT 1).setFld Reg.RTE_MISS F.RTE_MISS.SLOT slot
  else s


end StringSt

/-- A message of the command order other than the drop of a missed stroke (R84 to R87, R96, R58). -/
def BMsg.ordered : BMsg → Bool
  | .doorbell .. => true
  | .claim _ => true
  | .retire .. => true
  | .posted .. => true
  | .outcome .. => true
  | _ => false

/-- A commit reaches the standby (R267); one of another descriptor is discarded (R280). -/
def StringSt.takeCommit (c : StringSt) (m : CalCommit) : StringSt :=
  if m.fabd = (List.range 8).map fun i => c.word (0x00ED8010 + 4 * i) then
    { c with cal := { c.cal with commit := some m }, ring := { c.ring with lastEff := max m.frame c.ring.lastEff } }
  else c

/-- The drops of missed strokes and the commit that stand first in the command order reach string `x` (R226, R267). -/
def State.drainDrops (s : State) (x : Str) : State :=
  let l := (s.str x.other).outbox
  let first := l.takeWhile fun m => !m.ordered
  let free := (s.str x).cal.commit.isNone
  let goes := fun (m : BMsg) => match m with | .drop .. => true | .calCommit _ => free | _ => false
  let s := if first.any goes then
      s.updStr x.other fun c => { c with outbox := (first.filter fun m => !goes m) ++ l.drop first.length }
    else s
  s.updStr x fun c => first.foldl (fun c m => match m with
    | .drop k q => c.dropMissed k q
    | .calCommit m => if free then c.takeCommit m else c
    | _ => c) c

end Sys2Proof.Machine
end

