-- ==== Sys2Proof/Machine/Plans.lean ====
section
/-! DEFINITION. Plan slots, arming, strokes, cancellation and the calendar as a string runs them: 10_plans_strokes.md R238 to R258,
02_quinli_isa.md R62. -/

namespace Sys2Proof.Machine

/-- Slot states (R238). -/
abbrev slFREE : Nat := 0
abbrev slOPEN : Nat := 1
abbrev slSEALED : Nat := 2
abbrev slARMED : Nat := 3

/-- Calendar states (R255). -/
abbrev calSTOPPED : Nat := 0
abbrev calLOADED : Nat := 1
abbrev calRUNNING : Nat := 2
abbrev calSTOPPING : Nat := 3


/-- The instant of a TS96; none where its nanoseconds are 1,000,000,000 or more (R17). -/
def ofTs96 (w : List Nat) : Option Nat :=
  if w.getD 0 0 < 1000000000 then
    some (instant (w.getD 1 0 + 4294967296 * bits (w.getD 2 0) 0 16) (w.getD 0 0) (bits (w.getD 2 0) 16 16))
  else none

namespace StringSt

/-! ## Slot headers (R239) -/

def sh (s : StringSt) (k w : Nat) : Nat := s.word (slotHdr k + 4 * w)
def setSh (s : StringSt) (k w v : Nat) : StringSt := s.setWord (slotHdr k + 4 * w) v
def slotState (s : StringSt) (k : Nat) : Nat := bits (s.sh k 0) 0 2
def setSlotState (s : StringSt) (k st : Nat) : StringSt := s.setSh k 0 (putBits (s.sh k 0) 0 2 st)
def slotCal (s : StringSt) (k : Nat) : Bool := bit (s.sh k 0) 2
def setSlotCal (s : StringSt) (k : Nat) (on : Bool) : StringSt := s.setSh k 0 (putBit (s.sh k 0) 2 on)
def slotCount (s : StringSt) (k : Nat) : Nat := bits (s.sh k 0) 16 13
def slotNext (s : StringSt) (k : Nat) : Option Nat := if bit (s.sh k 0) 5 then some (bits (s.sh k 0) 6 7) else none

/-- The slot is the successor of another. -/
def isSuccessor (s : StringSt) (k : Nat) : Bool := (List.range 128).any fun j => s.slotNext j == some k

/-- The chain that a slot heads (R242). -/
def chainGo (s : StringSt) : Nat → Nat → List Nat
  | 0, _ => []
  | n + 1, k => k :: (match s.slotNext k with | some j => s.chainGo n j | none => [])
def chainOf (s : StringSt) (k : Nat) : List Nat := s.chainGo 4 k

/-- CENT of every slot (R239). -/
def refreshCent (s : StringSt) : StringSt :=
  (List.range 128).foldl (fun s k =>
    let n := if s.isSuccessor k then s.slotCount k else ((s.chainOf k).map s.slotCount).sum
    s.setSh k 9 (putBits (s.sh k 9) 0 15 n)) s

/-- A PLARM of a chain that holds slot `k` has passed its checks and is still staging or undoing its staging, or waits on the standby for the
active string's outcome: the slot counts as ARMED (R238, R258). -/
def arming (s : StringSt) (k : Nat) : Bool :=
  (s.plan.arming.any fun g => g.core.isSome && g.stroke.chain.contains k) ||
    (s.plan.withdrawing.any fun w => w.undo.isSome && w.core.isSome && (s.chainOf w.slot).contains k) ||
    (List.range 4).any fun i => match (s.core i).wait with
      | .outcome _ (.arm j _ _) => s.slotState j == slSEALED && !s.isSuccessor j && (s.chainOf j).contains k
      | _ => false

/-- The state of a slot as an operation on it finds it. -/
def slotNow (s : StringSt) (k : Nat) : Nat := if s.arming k then slARMED else s.slotState k

/-- Every chain link that names slot `k` is cleared (R238). -/
def clearLinks (s : StringSt) (k : Nat) : StringSt :=
  (List.range 128).foldl (fun s j =>
    if s.slotNext j = some k then s.setSh j 0 (putBits (s.sh j 0) 5 8 0) else s) s

/-- PLBEG (R62, R238): its status, and the slot OPEN and empty. -/
def plbeg (s : StringSt) (k : Nat) : Nat × StringSt :=
  if s.slotNow k = slARMED then (sBUSY, s)
  else
    let s := s.setSh k 0 slOPEN
    let s := ((upFrom 1 9) ++ [18]).foldl (fun (s : StringSt) w => s.setSh k w 0) s
    (sOK, (s.clearLinks k).refreshCent)

/-- PLADD of `n` entries from `a` (R62). -/
def pladd (s : StringSt) (k a n : Nat) : Nat × StringSt :=
  if s.slotState k ≠ slOPEN then (sNOTOPEN, s)
  else
    let c := s.slotCount k
    if 4096 < c + n then (sFULL, s)
    else
      let s := s.setBytes (slotEnts k + 16 * c) (s.bytes a (16 * n))
      (sOK, (s.setSh k 0 (putBits (s.sh k 0) 16 13 (c + n))).refreshCent)

/-- Word `w` of entry `i` of a slot (R240). -/
def entW (s : StringSt) (k i w : Nat) : Nat := s.word (slotEnts k + 16 * i + 4 * w)

def slotActs (s : StringSt) (k : Nat) : List Nat := (List.range (s.slotCount k)).map fun i => bits (s.entW k i 0) 0 14

/-- The entries of a slot are valid (R241). -/
def entriesOk (s : StringSt) (k : Nat) : Bool :=
  s.fabValid && decide (1 ≤ s.slotCount k) && decide (s.slotActs k).Nodup &&
    (List.range (s.slotCount k)).all fun i =>
      decide (bits (s.entW k i 0) 14 2 = 0 ∧ bits (s.entW k i 1) 16 16 = 0 ∧ s.entW k i 3 = 0) &&
        s.actMoves (bits (s.entW k i 0) 0 14)

/-- chain_ok of R62 (R242); an ACT twice in one slot is for R241 to judge. -/
def chainOk (s : StringSt) (k j : Nat) : Bool :=
  let l := k :: s.chainGo 5 j
  decide (s.slotNow j = slSEALED) && decide l.Nodup && decide (l.length ≤ 4) &&
    decide ((l.map s.slotCount).sum ≤ 16384) && decide ((l.map fun i => (s.slotActs i).eraseDups).flatten).Nodup

/-- PLSEAL (R62): `succ` the successor named. -/
def plseal (s : StringSt) (k : Nat) (succ : Option Nat) : Nat × StringSt :=
  if s.slotState k ≠ slOPEN then (sNOTOPEN, s)
  else if (match succ with | some j => !s.chainOk k j | none => false) then (sCHAIN, s)
  else if !s.entriesOk k then (sBADVAL, s)
  else
    let d := leWords 8 (sha256 (s.bytes (slotEnts k) (16 * s.slotCount k)))
    let s := s.setWords (slotHdr k + 40) d
    let link := match succ with | some j => 1 + 2 * j | none => 0
    let s := s.setSh k 0 (putBits (putBits (s.sh k 0) 0 2 slSEALED) 5 8 link)
    (sOK, (s.setSh k 9 (putBits (s.sh k 9) 16 16 0)).refreshCent)

/-! ## Strokes -/

/-- The entries of a chain that starts at `ts` (R240, R243). -/
def strokeEnts (s : StringSt) (chain : List Nat) (ts : Nat) : List StrokeEnt :=
  (chain.map fun k => (List.range (s.slotCount k)).map fun i =>
    let w := s.entW k i 0
    let h := if bits w 24 8 = 0 then s.fld Reg.PLAN_CFG F.PLAN_CFG.HOLD else bits w 24 8
    (⟨bits w 0 14, bits (s.entW k i 1) 0 16, ts + max 6 h * gridT, bits w 16 4,
      if bit w 23 then some (bits w 20 3) else none⟩ : StrokeEnt)).flatten

/-- The tiles concerned (R246). -/
def tilesOf (l : List StrokeEnt) : Nat := l.foldl (fun v e => if bit v (e.act / 2048) then v else v + 2 ^ (e.act / 2048)) 0

/-- The tiles of a mask. -/
def tileList (m : Nat) : List Nat := (List.range 8).filter fun n => bit m n

/-- A stroke as it is armed. -/
def newStroke (s : StringSt) (k armSeq ts : Nat) (cal : Bool) : Stroke :=
  let chain := s.chainOf k
  let ents := s.strokeEnts chain ts
  ⟨k, chain, armSeq, ts, cal, ents, tilesOf ents, 0, 0, false, none, false, false, false, false, false, [], [], false, []⟩

/-- The share of tile `n` (R246). -/
def shareOf (l : List StrokeEnt) (n : Nat) : List ShareMsg :=
  (l.filter fun e => e.act / 2048 == n).map fun e => ⟨e.act % 2048, e.p1, e.te, e.shape⟩

/-- The digest of a share (R247). -/
def shareDigest (l : List ShareMsg) : List Byte :=
  sha256 ((l.map fun e => leBytes 2 e.act ++ leBytes 2 e.p1 ++ leBytes 12 e.te ++ leBytes 1 e.shape).flatten)

/-- P0 of an entry in the budget test (R245). -/
def p0Of (s : StringSt) (a ts : Nat) : Nat :=
  let m := s.plan.strokes.foldl (fun (m : Option (Stroke × Nat)) k =>
    match k.ents.find? fun e => e.act == a with
    | some e =>
      if k.ts < ts ∧ k.past = false ∧ k.withdrawn = false then
        match m with
        | some q => if q.1.ts < k.ts ∨ (q.1.ts = k.ts ∧ q.1.armSeq < k.armSeq) then some (k, e.p1) else m
        | none => some (k, e.p1)
      else m
    | none => m) none
  match m with
  | some q => q.2
  | none => bits (s.word (actRec a + 16)) 0 16

/-- A staging that is being undone still holds a buffer of tile `n`, as this string knows (R246, R257). -/
def undoing (w : Withdrawal) (n : Nat) (cal : Bool) : Bool :=
  w.undo.isSome && (w.cal == cal) && bit w.tiles n && !(w.sent.isSome && (bit w.acked n || !bit w.asked n))

/-- Strokes that hold a buffer of tile `n`, as this string knows (R246, R257). -/
def holding (s : StringSt) (n : Nat) (cal : Bool) : Nat :=
  ((s.plan.strokes.filter fun k => bit k.tiles n && !bit k.played n && !bit k.missed n && !k.withdrawn && (k.cal == cal)).length) +
    ((s.plan.arming.filter fun g => bit g.stroke.tiles n && (g.stroke.cal == cal)).length) +
    ((s.plan.withdrawing.filter fun w => undoing w n cal).length)

def calState (s : StringSt) : Nat := s.fld Reg.PLAN_CALSTAT F.PLAN_CALSTAT.STATE

/-- Two buffers of every tile are reserved for the calendar (R246). -/
def calReserved (s : StringSt) : Bool := decide (2 ≤ s.calState)

/-- A tile has no buffer that an arm, or an occurrence, may use (R246). -/
def noBuffer (s : StringSt) (n : Nat) (cal : Bool) : Bool :=
  if cal then decide (2 ≤ s.holding n true ∨ 4 ≤ s.holding n true + s.holding n false)
  else decide ((s.calReserved ∧ 2 ≤ s.holding n false) ∨ 4 ≤ s.holding n true + s.holding n false)

/-- The header of a chain as its stroke is armed or staged (R239, R248 step 5); an occurrence's slots are the calendar's (R256). -/
def armHeader (s : StringSt) (k : Stroke) : StringSt :=
  let s := k.chain.foldl (fun s j => ((s.setSlotState j slARMED).setSlotCal j k.cal).setSh j 1 k.armSeq) s
  (s.setWords (slotHdr k.slot + 20) (ts96 k.ts)).setSh k.slot 8 k.tiles

def addStroke (s : StringSt) (k : Stroke) : StringSt := { s with plan := { s.plan with strokes := s.plan.strokes ++ [k] } }

def updStroke (s : StringSt) (armSeq : Nat) (f : Stroke → Stroke) : StringSt :=
  { s with plan := { s.plan with strokes := s.plan.strokes.map fun k => if k.armSeq = armSeq then f k else k } }

/-- A PLARM has staged its chain (R239, R248 step 5). -/
def armed (s : StringSt) (k : Stroke) (treq policy : Nat) (aligned : Bool) : StringSt :=
  let s := s.armHeader k
  let s := s.setSh k.slot 0 (putBit (putBit (s.sh k.slot 0) 3 (policy = 1)) 4 aligned)
  (s.setWords (slotHdr k.slot + 8) (ts96 treq)).addStroke k

/-- A slot that the calendar holds no more goes back to SEALED once no occurrence of it is still to report (R255). -/
def releaseCal (s : StringSt) (k : Nat) : StringSt :=
  let busy := (s.plan.strokes.any fun q => q.chain.contains k && q.cal && !q.past && !q.withdrawn) ||
    s.plan.arming.any fun g => g.stroke.chain.contains k && g.stroke.cal
  if s.slotState k = slARMED && s.slotCal k && !busy then (s.setSlotCal k false).setSlotState k slSEALED else s

/-- The slots that a calendar image names, with their successors. -/
def imageSlots (s : StringSt) (base : Nat) : List Nat :=
  ((List.range (bits (s.word base) 0 9)).map fun i => s.chainOf (bits (s.word (base + 36 + 8 * i)) 0 7)).flatten

/-- Places of the running and the pending calendar image (R253). -/
abbrev calRun : Nat := 0x00E08000
abbrev calPend : Nat := 0x00E0C000

/-- Slots held by the calendar that it names no more are given back (R255). -/
def sweepCal (s : StringSt) : StringSt :=
  let keep := if s.calReserved then s.imageSlots calRun else []
  let s := (List.range 128).foldl (fun s k => if keep.contains k then s else s.releaseCal k) s
  if s.calReserved = false ∧ ((List.range 128).all fun k => !s.slotCal k) then s.setFld Reg.PLAN_CALSTAT F.PLAN_CALSTAT.PEND 0
  else s

/-- Every tile concerned has reported: the slots go back to SEALED, the counts are made, producer 74 fires (R248 step 12). -/
def strokeOver (s : StringSt) (k : Stroke) : StringSt :=
  let s := s.updStroke k.armSeq fun q => { q with past := true }
  let s := k.chain.foldl (fun s j =>
    let s := if s.slotState j = slARMED && !s.slotCal j then s.setSlotState j slSEALED else s
    if k.played = 0 then s else s.setSh j 9 (putBits (s.sh j 9) 16 16 (bits (s.sh j 9) 16 16 + 1))) s
  let s := if k.missed = 0 then s.addSat Reg.PLAN_STROKES F.PLAN_STROKES.LO 1 else s
  let s := s.sweepCal
  s.fire 74

/-- Tile `n` has reported its share of a stroke played or missed (R248 step 12, R249, R251). -/
def strokeReport (s : StringSt) (n armSeq : Nat) (played : Bool) (opened : List (Nat × Nat)) : StringSt :=
  match s.plan.strokes.find? fun k => k.armSeq == armSeq with
  | none => s
  | some k =>
    if !bit k.tiles n || bit k.played n || bit k.missed n then s
    else
      let s := opened.foldl (fun s e =>
        let a := actRec (2048 * n + e.1)
        s.setWord a (putBits (s.word a) 0 16 e.2)) s
      let k := if played then { k with played := k.played + 2 ^ n } else { k with missed := k.missed + 2 ^ n }
      let s := s.updStroke armSeq fun _ => k
      let s := s.setSh k.slot 8 (k.tiles + 256 * k.played + 65536 * k.missed)
      -- the first missed share of the stroke (R251, R259)
      let s := if !played && decide (k.missed = 2 ^ n) then s.addSat Reg.PLAN_STROKES F.PLAN_STROKES.HI 1 else s
      if k.played + k.missed = k.tiles then
        let s := s.strokeOver k
        if k.missed = 0 then s.settlePend armSeq true else s
      else s

/-- Slots of a cancelled chain become FREE (R238, R252 step 6). -/
def freeChain (s : StringSt) (chain : List Nat) : StringSt :=
  (chain.foldl (fun s j => (s.setSh j 0 0).clearLinks j) s).refreshCent

/-- A stroke withdrawn from every tile: route changes are dropped, and freezing stops at the phrase's effect frame (R201, R226). -/
def cancelled (s : StringSt) (k : Stroke) : StringSt :=
  let s := (s.updStroke k.armSeq fun q => { q with withdrawn := true }).settlePend k.armSeq false
  s.freeChain k.chain

end StringSt

/-! ## Arming (R243 to R248) -/

namespace State

/-- Levels of an entry's bow in the budget test, the shape from its tile (R137, R245). -/
def budgetLevel (s : State) (c : StringSt) (ts : Nat) (e : StrokeEnt) (k : Nat) : Nat :=
  let w := (s.tile (e.act / 2048)).rd (Reg.TILE_BOWSHAPE e.shape)
  Chan.bowLevel (c.p0Of e.act ts) e.p1 (bits w 0 8) (bits w 8 3) (bits w 12 3) k

/-- The peak of tile `n` in the budget test (R245), in uW. -/
def budgetPeak (s : State) (c : StringSt) (ts : Nat) (l : List StrokeEnt) (n : Nat) : Nat :=
  let es := l.filter fun e => e.act / 2048 == n && !bit (c.word (actRec e.act)) 19
  let uw := fun (e : StrokeEnt) p => ((p * c.word (actRec e.act + 8) / 65535 : Nat) : Int)
  (List.range 6).foldl (fun v k =>
    max v ((es.map fun e => uw e (s.budgetLevel c ts e k) - uw e e.p1).sum).toNat) 0

/-- The budget test: the largest peak, and whether some tile's exceeds its budget (R245). -/
def budget (s : State) (c : StringSt) (ts : Nat) (l : List StrokeEnt) : Nat × Bool :=
  (StringSt.tileList (StringSt.tilesOf l)).foldl (fun v n =>
    let p := s.budgetPeak c ts l n
    (max v.1 p, v.2 || decide (1000 * (s.tile n).fld Reg.TILE_ODBUD F.TILE_ODBUD.MW < p))) (0, false)

/-- TEFF under the late policy (R244): the first cycle boundary while the calendar runs, a pending image's cycles counting from its
boundary on, else the alignment grid. -/
def alignedTime (c : StringSt) : Nat :=
  let e := c.time + 50 * usT
  if c.calState = calRUNNING then
    let cyc := fun (lo base : Nat) => if e ≤ lo then lo else lo + ceilTo (c.word (base + 16) * nsT) (e - lo)
    let b := cyc c.plan.cycle StringSt.calRun
    match c.plan.switchAt with
    | some w => if w < b then cyc w StringSt.calPend else b
    | none => b
  else ceilTo (max 1 (c.fld Reg.PLAN_CFG F.PLAN_CFG.LGRID) * 10 * usT) e

/-- A tile cannot be staged (R246): tile hold, or its control domain off. -/
def stageFail (s : State) (m : Nat) : Bool := (StringSt.tileList m).any fun n => (s.tile n).hold || !(s.tile n).domOn 0

/-- String `x` sends the shares of a stroke (R246, R248 step 2). -/
def sendShares (c : StringSt) (k : Stroke) : StringSt :=
  (StringSt.tileList k.tiles).foldl (fun c n =>
    let l := StringSt.shareOf k.ents n
    c.sendTile n (.share k.slot k.armSeq k.ts k.cal l (StringSt.shareDigest l))) c

/-- String `x` sends the digests of a stroke's shares (R247). -/
def sendDigests (c : StringSt) (k : Stroke) : StringSt :=
  (StringSt.tileList k.tiles).foldl (fun c n =>
    c.sendTile n (.digest k.slot k.armSeq (StringSt.shareDigest (StringSt.shareOf k.ents n)))) c

/-- A PLARM that ends at once on the string that serves the phrase. -/
def plarmEnd (s : State) (x : Str) (i gd st teff : Nat) (aligned : Bool) : State :=
  s.updStr x fun c => (c.sendOutcome i ⟨st, teff, 0, aligned⟩).finish i gd st

/-- PLARM on the string that serves the phrase (R62, R243 to R246): it ends at once, or the shares go out and the core waits. -/
def plarm (s : State) (x : Str) (i gd k policy : Nat) (treq : Option Nat) : State :=
  let c := s.str x
  match treq with
  | none => s.plarmEnd x i gd sBADTIME 0 false
  | some t =>
    if c.slotNow k ≠ slSEALED ∨ c.isSuccessor k then s.plarmEnd x i gd sNOTOPEN 0 false
    else
      let late := decide (t < c.time + 50 * usT)
      if late ∧ policy = 1 then (s.updStr x fun c => c.addSat Reg.PLAN_LATE F.PLAN_LATE.HI 1).plarmEnd x i gd sLATE 0 false
      else
        let teff := if late then alignedTime c else t
        let s := if late then s.updStr x fun c => c.addSat Reg.PLAN_LATE F.PLAN_LATE.LO 1 else s
        let ts := ceilTo gridT teff
        let ents := (s.str x).strokeEnts ((s.str x).chainOf k) ts
        let b := s.budget (s.str x) ts ents
        let s := s.updStr x fun c => c.setSh k 18 b.1
        if b.2 then s.plarmEnd x i gd sBUDGET teff late
        else
          let q := ((s.str x).rd Reg.PLAN_ARMSEQ + 1) % 4294967296
          let s := s.updStr x fun c => c.wr Reg.PLAN_ARMSEQ q
          let st := (s.str x).newStroke k q ts false
          let fin := fun r => s.updStr x fun c => (c.sendOutcome i ⟨r, teff, q, late⟩).finish i gd r
          if s.stageFail st.tiles then fin sSTAGEFAIL
          else if (StringSt.tileList st.tiles).any fun n => (s.str x).noBuffer n false then fin sFULL
          else s.updStr x fun c =>
            let c := sendShares c st
            let c := { c with plan := { c.plan with arming := c.plan.arming ++ [(⟨some i, gd, st, 0, 0, t, teff, policy, late⟩ : Arming)] } }
            c.hold i (.arm gd k)

/-- A core that waits for an arm or a cancellation of slot `k` completes with a status, and the outcome goes to the standby. -/
def endWait (c : StringSt) (core : Option Nat) (gd k : Nat) (o : Outc) : StringSt :=
  match core with
  | some i =>
    if (c.core i).wait = .arm gd k ∨ (c.core i).wait = .cancel gd k then (c.sendOutcome i o).finish i gd o.value else c
  | none => c

/-- Requests to withdraw a staged share go to the tiles of a mask (R246, R252 step 2). -/
def startWithdraw (c : StringSt) (w : Withdrawal) : StringSt :=
  let c := (StringSt.tileList w.tiles).foldl (fun c n => c.sendTile n (.withdraw w.slot w.armSeq w.undo.isSome)) c
  { c with plan := { c.plan with withdrawing := c.plan.withdrawing ++ [w] } }

/-- An occurrence is skipped (R256). -/
def skipOccurrence (c : StringSt) (k : Nat) (tiles : Nat) : StringSt :=
  let c := (c.addSat Reg.PLAN_CALSKIP F.PLAN_CALSKIP.CNT 1).setFld Reg.PLAN_CALSKIP F.PLAN_CALSKIP.SLOT k
  c.setSh k 8 (c.sh k 8 ||| (65536 * tiles))

/-- The acknowledgements of a staging are complete: the chain is ARMED, or the shares placed are withdrawn again (R246, R248). -/
def armDone (c : StringSt) (g : Arming) : StringSt :=
  let c := { c with plan := { c.plan with arming := c.plan.arming.filter fun q => q.stroke.armSeq != g.stroke.armSeq } }
  let k := g.stroke
  if g.refused = 0 then
    if k.cal then (c.armHeader k).addStroke k
    else endWait (c.armed k g.treq g.policy g.aligned) g.core g.gd k.slot ⟨sOK, g.teff, k.armSeq, g.aligned⟩
  else
    let c := if k.cal then skipOccurrence c k.slot g.refused else c
    if g.acked = 0 then endWait c g.core g.gd k.slot ⟨sSTAGEFAIL, g.teff, k.armSeq, g.aligned⟩
    else startWithdraw c ⟨g.core, g.gd, some sSTAGEFAIL, k.slot, k.armSeq, g.acked, 0, 0, k.cal, none, 0, 0⟩

/-- SHARE_ACK: string `x` takes the next staging acknowledgement of tile `n` (R248 step 5). -/
def shareAck (s : State) (x : Str) (n : Nat) : State :=
  let d := s.tile n
  match takeFirst (fun r => match r with | TRep.stageAck _ q ok => some (q, ok) | _ => none) (d.reports x) with
  | none => s
  | some ((q, ok), l) =>
    (s.setTile n (d.setReports x l)).updStr x fun c =>
      match c.plan.arming.find? fun g => g.stroke.armSeq == q with
      | none => c
      | some g =>
        let g := if ok then { g with acked := g.acked ||| 2 ^ n } else { g with refused := g.refused ||| 2 ^ n }
        let c := { c with plan := { c.plan with arming := c.plan.arming.map fun e => if e.stroke.armSeq = q then g else e } }
        if g.acked ||| g.refused = g.stroke.tiles then armDone c g else c

/-! ## Cancellation (R252) -/

/-- PLCANCEL on the string that serves the phrase. Of a slot that another core is arming or withdrawing it returns BUSY (DESIGN CHOICE, log
entry 95). -/
def plcancel (s : State) (x : Str) (i gd k : Nat) : State :=
  let c := s.str x
  if c.slotNow k = slFREE then s.updStr x fun c => c.finishOut i gd sNOTOPEN
  else if c.slotNow k ≠ slARMED then
    s.updStr x fun c => ((c.bindEff i (.cancel none)).freeChain (c.chainOf k)).finishOut i gd sOK
  else
    match c.plan.strokes.find? fun q => decide (q.slot = k ∧ q.past = false ∧ q.withdrawn = false) with
    | some st =>
      if c.isSuccessor k ∨ c.slotCal k ∨ st.ts < c.time + 10 * usT ∨ (c.plan.withdrawing.any fun w => w.armSeq == st.armSeq) then
        s.updStr x fun c => (c.addSat Reg.PLAN_CANCEL F.PLAN_CANCEL.HI 1).finishOut i gd sBUSY
      else s.updStr x fun c =>
        (startWithdraw c ⟨some i, gd, none, k, st.armSeq, st.tiles, 0, 0, false, none, 0, 0⟩).hold i (.cancel gd k)
    | none => s.updStr x fun c => (c.addSat Reg.PLAN_CANCEL F.PLAN_CANCEL.HI 1).finishOut i gd sBUSY

/-- A withdrawal has come to its end, with COMMIT or with RESTORE (R252 step 6). -/
def withdrawEnd (c : StringSt) (w : Withdrawal) (ok : Bool) : StringSt :=
  let c := { c with plan := { c.plan with withdrawing := c.plan.withdrawing.filter fun q => q.armSeq != w.armSeq } }
  match w.undo with
  | some r => endWait c w.core w.gd w.slot ⟨r, 0, w.armSeq, false⟩
  | none =>
    match c.plan.strokes.find? fun q => q.armSeq == w.armSeq with
    | none => c
    | some k =>
      if k.cal then
        if ok then ((c.updStroke k.armSeq fun q => { q with withdrawn := true, stopped := some c.time }).sweepCal) else c
      else if ok then
        let c := (c.cancelled k).addSat Reg.PLAN_CANCEL F.PLAN_CANCEL.LO 1
        let c := match w.core with | some i => c.bindEff i (.cancel (some k.armSeq)) | none => c
        endWait c w.core w.gd w.slot ⟨sOK, 0, w.armSeq, false⟩
      else endWait (c.addSat Reg.PLAN_CANCEL F.PLAN_CANCEL.HI 1) w.core w.gd w.slot ⟨sBUSY, 0, w.armSeq, false⟩

def updWithdraw (c : StringSt) (w : Withdrawal) : StringSt :=
  { c with plan := { c.plan with withdrawing := c.plan.withdrawing.map fun q => if q.armSeq = w.armSeq then w else q } }

/-- WITHDRAW_REPLY: string `x` takes the next reply of tile `n` to a withdrawal request; with all of them it sends COMMIT to all, or
RESTORE to those that accepted (R252 step 4). -/
def withdrawReply (s : State) (x : Str) (n : Nat) : State :=
  let d := s.tile n
  match takeFirst (fun r => match r with | TRep.withdrawReply _ q ok => some (q, ok) | _ => none) (d.reports x) with
  | none => s
  | some ((q, ok), l) =>
    (s.setTile n (d.setReports x l)).updStr x fun c =>
      match c.plan.withdrawing.find? fun w => w.armSeq == q with
      | none => c
      | some w =>
        let w := { w with replied := w.replied ||| 2 ^ n, accepted := if ok then w.accepted ||| 2 ^ n else w.accepted }
        if w.replied = w.tiles then
          let all := decide (w.accepted = w.tiles) || w.undo.isSome
          let w := { w with sent := some all, asked := w.accepted }
          let c := (StringSt.tileList w.accepted).foldl (fun c m =>
            c.sendTile m (if all then .commit w.slot w.armSeq else .restore w.slot w.armSeq)) (updWithdraw c w)
          if w.asked = 0 then withdrawEnd c w all else c
        else updWithdraw c w

/-- WITHDRAW_ACK: string `x` takes the next acknowledgement of tile `n` of COMMIT or RESTORE (R252 step 6). -/
def withdrawAck (s : State) (x : Str) (n : Nat) : State :=
  let d := s.tile n
  match takeFirst (fun r => match r with | TRep.withdrawAck _ q => some q | _ => none) (d.reports x) with
  | none => s
  | some (q, l) =>
    (s.setTile n (d.setReports x l)).updStr x fun c =>
      match c.plan.withdrawing.find? fun w => decide (w.armSeq = q) && w.sent.isSome with
      | none => c
      | some w =>
        let w := { w with acked := w.acked ||| 2 ^ n }
        if w.acked = w.asked then withdrawEnd (updWithdraw c w) w (w.sent.getD false) else updWithdraw c w

/-! ## Reports (R248 step 12, R251) -/

/-- The observer of an entry's element sits on a lit output of its cell in the state that the cell now has (11_calibration.md R275). -/
def entLit (s : State) (c : StringSt) (e : StrokeEnt) : Bool :=
  match ((s.tile (e.act / 2048)).chan (e.act % 2048)).obs with
  | some m =>
    let cell := c.actCell e.act
    let m := 256 * (e.act / 2048) + m
    let k := c.visTap m
    decide (c.visWhere m = cell) && (decide (k = 1) || decide (k = 2)) &&
      (match cellFrom (c.cellKind cell) (c.cellState cell) (k - 1) with
        | some i => decide (bits (c.word (cellTab cell + 4)) (16 * i) 12 ≠ 0xFFF)
        | none => false)
  | none => false

/-- String `x` with a stroke report of tile `n` applied, once (R248 step 12, R293); producer 8n + 2 or 8n + 3 fires (R343). With the last played
report the new state is current, and what is lit in it is noted (R275). -/
def takeReport (s : State) (x : Str) (n q : Nat) (played : Bool) (opened : List (Nat × Nat)) : StringSt :=
  let c := s.str x
  if c.plan.strokes.any fun k => k.armSeq == q && (bit k.played n || bit k.missed n) then c
  else
    let c := (c.strokeReport n q played opened).fire (8 * n + if played then 2 else 3)
    c.updStroke q fun k => if k.past && decide (k.missed = 0) then { k with lit := (k.ents.filter (s.entLit c)).map (·.act) } else k

/-- A stroke report acts in string `x`. A joining string keeps its own; from the bulk state on the active string forwards it every report that it
applies (12_redundancy.md R293). -/
def applyReport (s : State) (x : Str) (n q : Nat) (played : Bool) (opened : List (Nat × Nat)) : State :=
  let one := fun (s : State) (y : Str) => s.setStr y (s.takeReport y n q played opened)
  if (s.str x).role = rJOINING then
    -- what it applies itself from step 9 on (12_redundancy.md R293)
    s.updStr x fun c => { c with red := { c.red with reports := c.red.reports ++ [(n, q, played, opened)] } }
  else
    let s := one s x
    if s.forwards x then one s x.other else s

/-- STROKE_REPORT: string `x` takes the next played report of tile `n`; producer 8n + 2 fires (R343). -/
def playedReport (s : State) (x : Str) (n : Nat) : State :=
  let d := s.tile n
  match takeFirst (fun r => match r with | TRep.played _ q _ o => some (q, o) | _ => none) (d.reports x) with
  | none => s
  | some ((q, o), l) =>
    (s.setTile n (d.setReports x l)).applyReport x n q true o

/-- The string that serves phrases drops the route changes of a missed stroke and places the drop in the command order; a string that holds the
bulk state of a join takes it as it takes a forwarded report (R226, R293). -/
def dropOrdered (s : State) (x : Str) (k q : Nat) : State :=
  let s := s.updStr x fun c => (c.dropMissed k q)
  if (s.str x).joined then s.updStr x fun c => c.send (.drop k q)
  else if s.forwards x then s.updStr x.other fun c => c.dropMissed k q
  else s

/-- MISSED_REPORT: string `x` takes the next missed report of tile `n`; producer 8n + 3 fires. The string that serves phrases drops
the stroke's route changes in the command order; its standby takes the drop in that order (R226). -/
def missedReport (s : State) (x : Str) (n : Nat) : State :=
  let d := s.tile n
  match takeFirst (fun r => match r with | TRep.missed k q => some (k, q) | _ => none) (d.reports x) with
  | none => s
  | some ((k, q), l) =>
    let s := (s.setTile n (d.setReports x l)).applyReport x n q false []
    let c := s.str x
    if c.holds then s.dropOrdered x k q
    else if c.role = rSTANDBY then s.drainDrops x
    else if c.role = rJOINING then s
    else s.updStr x fun c => c.dropMissed k q

/-! ## The calendar (R253 to R256) -/

/-- The first failed check of an image, 0 for none (R254). -/
def calCheck (s : State) (c : StringSt) (img : List Nat) : Nat :=
  let g := fun i => img.getD i 0
  let n := bits (g 0) 0 9
  let offs := (List.range n).map fun i => g (8 + 2 * i)
  let slots := (List.range n).map fun i => bits (g (9 + 2 * i)) 0 7
  if bits (g 0) 9 23 ≠ 0 ∨ n < 1 ∨ 256 < n ∨ g 5 ≠ 0 ∨ g 6 ≠ 0 ∨ g 7 ≠ 0 ∨
      (List.range n).any (fun i => decide (bits (g (9 + 2 * i)) 7 25 ≠ 0)) then 1
  else if g 4 < 100000 ∨ 1000000000 < g 4 then 2
  else if offs.any (fun o => decide (g 4 ≤ o)) || !((List.range (n - 1)).all fun i => decide (g (8 + 2 * i) < g (10 + 2 * i))) then 3
  else if slots.any fun k => decide (c.slotNow k ≠ slSEALED) || c.isSuccessor k then 4
  else if slots.any fun k => (s.budget c c.time (c.strokeEnts (c.chainOf k) c.time)).2 then 5
  else if !c.fabValid then 6
  else 0

/-- The budget tests that the check of an image runs, slot after slot up to the first that fails, leave their peaks in the headers (R239,
R254). -/
def calPeaks (s : State) (x : Str) (l : List Nat) : State :=
  match l with
  | [] => s
  | k :: l =>
    let c := s.str x
    let b := s.budget c c.time (c.strokeEnts (c.chainOf k) c.time)
    let s := s.updStr x fun c => c.setSh k 18 b.1
    if b.2 then s else s.calPeaks x l

/-- The image is checked: its status, with ERR of this CALSET written (R254, R259). -/
def calJudge (s : State) (x : Str) (img : List Nat) : Nat × State :=
  if (ofTs96 ((img.drop 1).take 3)).isNone then (sBADTIME, s)
  else
    let e := s.calCheck (s.str x) img
    let s := if e = 0 ∨ 5 ≤ e then
        s.calPeaks x ((List.range (bits (img.getD 0 0) 0 9)).map fun i => bits (img.getD (9 + 2 * i) 0) 0 7)
      else s
    (if e = 0 then sOK else sBADVAL, s.updStr x fun c => c.setFld Reg.PLAN_CALSTAT F.PLAN_CALSTAT.ERR e)

/-- LEAD of PLAN_CALCFG in us; below 50 acts as 50. -/
def leadOf (c : StringSt) : Nat := max 50 (c.fld Reg.PLAN_CALCFG F.PLAN_CALCFG.LEAD) * usT

def setCalState (c : StringSt) (st : Nat) : StringSt := c.setFld Reg.PLAN_CALSTAT F.PLAN_CALSTAT.STATE st

/-- The first boundary lo + k x p, k ≥ 0, at or after `t`. -/
def firstFrom (lo p t : Nat) : Nat := if t ≤ lo then lo else lo + ceilTo p (t - lo)

/-- The reservation of two buffers in every tile begins or ends, where the string holds the line (R246). -/
def reserve (s : State) (x : Str) (on : Bool) : State :=
  s.eachTile fun n s => if s.capo = some x then s.updTile n fun d => { d with calRes := on } else s

/-- The slots that the image names become ARMED with CAL = 1 (R255). One that is no longer SEALED as a pending image takes over is left as it
is (R238; DESIGN CHOICE, log entry 96). -/
def holdSlots (c : StringSt) : StringSt :=
  (c.imageSlots StringSt.calRun).foldl (fun c k => if c.slotNow k = slSEALED then (c.setSlotState k slARMED).setSlotCal k true else c) c

/-- The calendar stops (R255). -/
def calStop (s : State) (x : Str) : State :=
  (s.updStr x fun c => { (setCalState c calSTOPPED).sweepCal with
    plan := { (setCalState c calSTOPPED).sweepCal.plan with switchAt := none } }).reserve x false

/-- CALSET by action and calendar state (R255). `at_`: the first cycle, or the boundary at which a pending image takes over, where the
active string has fixed it (R58). The status, and that instant. ERR is this CALSET's (R259). -/
def calset (s : State) (x : Str) (act : Nat) (img : List Nat) (at_ : Option Nat) : Nat × Nat × State :=
  let s := s.updStr x fun c => c.setFld Reg.PLAN_CALSTAT F.PLAN_CALSTAT.ERR 0
  let c := s.str x
  let st := c.calState
  if act = 0 then
    if st = calSTOPPING ∨ (st = calRUNNING ∧ c.flag Reg.PLAN_CALSTAT F.PLAN_CALSTAT.PEND) then (sBUSY, 0, s)
    else
      let r := s.calJudge x img
      if r.1 ≠ sOK then (r.1, 0, r.2)
      else if st = calRUNNING then
        let sw := at_.getD (firstFrom c.plan.cycle (c.word (StringSt.calRun + 16) * nsT) (c.time + c.plan.lead))
        (sOK, sw, r.2.updStr x fun c =>
          let c := (c.setWords StringSt.calPend img).setFld Reg.PLAN_CALSTAT F.PLAN_CALSTAT.PEND 1
          { c with plan := { c.plan with switchAt := some sw } })
      else (sOK, 0, r.2.updStr x fun c => setCalState (c.setWords StringSt.calRun img) calLOADED)
  else if act = 1 then
    if calRUNNING ≤ st then (sBUSY, 0, s)
    else
      let r := s.calJudge x img
      if r.1 ≠ sOK then (r.1, 0, r.2)
      else if (List.range 8).any fun n => decide (2 < (r.2.str x).holding n false) then (sBUSY, 0, r.2)
      else
        let lead := leadOf c
        let base := (ofTs96 ((img.drop 1).take 3)).getD 0
        let b := at_.getD (firstFrom base (img.getD 4 0 * nsT) (c.time + lead))
        (sOK, b, (r.2.updStr x fun c =>
          let c := setCalState (c.setWords StringSt.calRun img) calRUNNING
          let c := (c.setFld Reg.PLAN_CALSTAT F.PLAN_CALSTAT.CYCLES 0)
          holdSlots { c with plan := { c.plan with cycle := b, lead := lead, next := (b, 0), switchAt := none } }).reserve x true)
  else if act = 2 then
    (sOK, 0, if st = calRUNNING then s.updStr x fun c => setCalState c calSTOPPING else s)
  else if st < calRUNNING then (sOK, 0, s)
  else
    let far := c.plan.strokes.filter fun k => k.cal && !k.past && !k.withdrawn && decide (c.time + 10 * usT ≤ k.ts)
    let s := s.updStr x fun c => far.foldl (fun c k =>
      if c.holds then startWithdraw c ⟨none, 0, none, k.slot, k.armSeq, k.tiles, 0, 0, true, none, 0, 0⟩
      else c.updStroke k.armSeq fun q => { q with withdrawn := true, stopped := some c.time }) c
    -- an occurrence whose acknowledgements are still to come is taken back from every tile as well
    let open_ := c.plan.arming.filter fun g => g.stroke.cal && decide (c.time + 10 * usT ≤ g.stroke.ts)
    let s := s.updStr x fun c => open_.foldl (fun c g =>
      startWithdraw { c with plan := { c.plan with arming := c.plan.arming.filter fun q => q.stroke.armSeq != g.stroke.armSeq } }
        ⟨none, 0, some sOK, g.stroke.slot, g.stroke.armSeq, g.stroke.tiles, 0, 0, true, none, 0, 0⟩) c
    (sOK, 0, s.calStop x)

/-- CALENDAR_CYCLE_BOUNDARY: a boundary of the running calendar has come (R255): producer 72 fires; the calendar stops, or a cycle
begins, of the pending image where its boundary has come. -/
def cycleBoundary (s : State) (x : Str) : State :=
  let c := s.str x
  if c.calState < calRUNNING ∨ c.time < c.plan.cycle then s
  else
    let s := s.updStr x fun c => c.fire 72
    if c.calState = calSTOPPING then s.calStop x
    else s.updStr x fun c =>
      let b := c.plan.cycle
      let c := if c.plan.switchAt = some b then
          let n := 8 + 2 * bits (c.word StringSt.calPend) 0 9
          let c := (c.setWords StringSt.calRun (c.words StringSt.calPend n)).setFld Reg.PLAN_CALSTAT F.PLAN_CALSTAT.PEND 0
          (holdSlots { c with plan := { c.plan with switchAt := none } }).sweepCal
        else c
      let c := c.addMod Reg.PLAN_CALSTAT F.PLAN_CALSTAT.CYCLES 1
      { c with plan := { c.plan with cycle := b + c.word (StringSt.calRun + 16) * nsT } }

/-- CALENDAR_OCCURRENCE_STAGE: the staging instant TEFF - LEAD of the next occurrence has come (R256). After a stop those that were to be
staged before the next boundary are skipped. -/
def occurrence (s : State) (x : Str) : State :=
  let c := s.str x
  let (start, i) := c.plan.next
  let base := if (match c.plan.switchAt with | some b => decide (b ≤ start) | none => false) then StringSt.calPend else StringSt.calRun
  let n := bits (c.word base) 0 9
  let teff := start + c.word (base + 32 + 8 * i) * nsT
  let k := bits (c.word (base + 36 + 8 * i)) 0 7
  let stopped := decide (c.calState = calSTOPPED ∧ teff < c.plan.cycle + c.plan.lead)
  if (c.calState < calRUNNING ∧ !stopped) ∨ n = 0 ∨ c.time + c.plan.lead < teff then s
  else
    let s := s.updStr x fun c => { c with plan := { c.plan with
      next := if i + 1 < n then (start, i + 1) else (start + c.word (base + 16) * nsT, 0) } }
    let c := s.str x
    let ts := ceilTo gridT teff
    let q := (c.rd Reg.PLAN_ARMSEQ + 1) % 4294967296
    let st := c.newStroke k q ts true
    let held := st.chain.all fun j => (c.slotState j == slARMED && c.slotCal j) || c.slotNow j == slSEALED
    if stopped ∨ (c.calState = calSTOPPING ∧ c.plan.cycle ≤ start) ∨ !held then s.updStr x fun c => skipOccurrence c k 0
    else
      let bad := (StringSt.tileList st.tiles).foldl (fun v m =>
        if c.noBuffer m true || s.stageFail (2 ^ m) then v + 2 ^ m else v) 0
      if bad ≠ 0 then s.updStr x fun c => skipOccurrence c k bad
      else s.updStr x fun c =>
        let c := (c.wr Reg.PLAN_ARMSEQ q).armHeader st
        if c.holds then
          let c := sendShares c st
          { c with plan := { c.plan with arming := c.plan.arming ++ [⟨none, 0, st, 0, 0, teff, teff, 0, false⟩] } }
        else (sendDigests c st).addStroke st

/-- The standby's own PLARM once the active string's outcome is there (R58, R243, R244): its own status. -/
def plarmFollow (s : State) (x : Str) (k policy : Nat) (treq : Option Nat) (o : Outc) : Nat × State :=
  let c := s.str x
  let s := if o.armSeq = 0 then s else s.updStr x fun c => c.wr Reg.PLAN_ARMSEQ o.armSeq
  let s := if o.value = sLATE then s.updStr x fun c => c.addSat Reg.PLAN_LATE F.PLAN_LATE.HI 1
    else if o.aligned then s.updStr x fun c => c.addSat Reg.PLAN_LATE F.PLAN_LATE.LO 1 else s
  match treq with
  | none => (sBADTIME, s)
  | some t =>
    if c.slotState k ≠ slSEALED ∨ c.isSuccessor k then (sNOTOPEN, s)
    else if o.value = sLATE then (sLATE, s)
    else if o.value = sOK ∨ o.value = sFULL ∨ o.value = sSTAGEFAIL ∨ o.value = sBUDGET then
      let ts := ceilTo gridT o.time
      let b := s.budget (s.str x) ts ((s.str x).strokeEnts ((s.str x).chainOf k) ts)
      let s := s.updStr x fun c => c.setSh k 18 b.1
      if b.2 then (sBUDGET, s)
      else if o.value = sOK then
        let st := (s.str x).newStroke k o.armSeq ts false
        (sOK, s.updStr x fun c => sendDigests (c.armed st t policy o.aligned) st)
      else (if o.value = sBUDGET then sOK else o.value, s)
    -- the active string found no time or no SEALED slot, where this one finds both
    else (sOK, s)

/-- The standby's own PLCANCEL once the active string's outcome is there (R58): its own status. -/
def plcancelFollow (s : State) (x : Str) (i k : Nat) (o : Outc) : Nat × State :=
  let c := s.str x
  if c.slotState k = slFREE then (sNOTOPEN, s)
  else if c.slotState k ≠ slARMED then (sOK, s.updStr x fun c => (c.bindEff i (.cancel none)).freeChain (c.chainOf k))
  else
    match c.plan.strokes.find? fun q => decide (q.slot = k ∧ q.past = false ∧ q.withdrawn = false) with
    | some st =>
      if o.value = sOK ∧ !c.isSuccessor k ∧ !c.slotCal k then
        (sOK, s.updStr x fun c => ((c.cancelled st).addSat Reg.PLAN_CANCEL F.PLAN_CANCEL.LO 1).bindEff i (.cancel (some st.armSeq)))
      else (sBUSY, s.updStr x fun c => c.addSat Reg.PLAN_CANCEL F.PLAN_CANCEL.HI 1)
    | none => (sBUSY, s.updStr x fun c => c.addSat Reg.PLAN_CANCEL F.PLAN_CANCEL.HI 1)

end State

/-! ## Commands -/

/-- SHARE_ACK (R248). -/
def execShareAck (x : Str) (n : Fin 8) (s : State) : Out := .next (s.shareAck x n.val)

/-- STROKE_REPORT (R248, R249, R226). -/
def execStrokeReport (x : Str) (n : Fin 8) (s : State) : Out := .next (s.playedReport x n.val)

/-- MISSED_REPORT (R251, R226). -/
def execMissedReport (x : Str) (n : Fin 8) (s : State) : Out := .next (s.missedReport x n.val)

/-- WITHDRAW_REPLY (R252). -/
def execWithdrawReply (x : Str) (n : Fin 8) (s : State) : Out := .next (s.withdrawReply x n.val)

/-- WITHDRAW_ACK (R252). -/
def execWithdrawAck (x : Str) (n : Fin 8) (s : State) : Out := .next (s.withdrawAck x n.val)

/-- CALENDAR_OCCURRENCE_STAGE (R256). -/
def execCalendarOccurrenceStage (x : Str) (t : Nat) (s : State) : Out := .next ((s.advance t).occurrence x)

/-- CALENDAR_CYCLE_BOUNDARY (R255). -/
def execCalendarCycleBoundary (x : Str) (t : Nat) (s : State) : Out := .next ((s.advance t).cycleBoundary x)

end Sys2Proof.Machine
end

