-- ==== Sys2Proof/Machine/Calib.lean ====
section
/-! DEFINITION. Calibration from signal statistics (11_calibration.md R261 to R282): the record, samples, commits, the copies in the
tiles. -/

namespace Sys2Proof.Machine

/-- Places in the calibration record (R261, R262). -/
abbrev calBase : Nat := 0x00ED8000
abbrev calHdr (w : Nat) : Nat := 0x00ED8000 + 4 * w
abbrev trimP (m : Nat) : Nat := 0x00ED9000 + 8 * m
abbrev trimA (a : Nat) : Nat := 0x00EDD000 + 8 * a
abbrev calSize : Nat := 151552

/-- The header words that hold ROT and LRMS of tile `n`, pilot `p` (R262). -/
abbrev rotWord (n p : Nat) : Nat := calHdr (16 + 8 * n + p / 2)
abbrev lrmsWord (n p : Nat) : Nat := calHdr (80 + 8 * n + p / 2)

/-- The square root of `y / d` rounded half to even. -/
def rheSqrt (y d : Nat) : Nat :=
  let r := nearestSqrt y d
  if (2 * r - 1) * (2 * r - 1) * d = 4 * y ∧ r % 2 = 1 then r - 1 else r

/-- OFF, ON, LG, GN, OV, GV of a pickup trim (R263). -/
structure TrimP where
  off : Nat
  on : Nat
  lg : Int
  gn : Nat
  ov : Bool
  gv : Bool
  deriving DecidableEq, Repr

def TrimP.of (w0 w1 : Nat) : TrimP := ⟨bits w0 0 20, bits w0 24 8, sx 16 w1, bits w1 16 8, bit w1 24, bit w1 25⟩
def TrimP.w0 (t : TrimP) : Nat := t.off + 16777216 * t.on
def TrimP.w1 (t : TrimP) : Nat := wrap 16 t.lg + 65536 * t.gn + 16777216 * b2n t.ov + 33554432 * b2n t.gv

namespace StringSt

/-! ## The record and the samples not yet committed -/

/-- A word of the record with the samples taken since the last commit in it. -/
def calW (s : StringSt) (a : Nat) : Nat :=
  match s.cal.work.find? fun e => e.1 == a with
  | some e => e.2
  | none => s.word a

def setCalW (s : StringSt) (a v : Nat) : StringSt :=
  { s with cal := { s.cal with work := (s.cal.work.filter fun e => e.1 != a) ++ [(a, v)] } }

def trimPw (s : StringSt) (m : Nat) : TrimP := TrimP.of (s.calW (trimP m)) (s.calW (trimP m + 4))
def setTrimP (s : StringSt) (m : Nat) (t : TrimP) : StringSt := (s.setCalW (trimP m) t.w0).setCalW (trimP m + 4) t.w1

/-- FABD of the record equals FAB_DIGEST (R262, R269). -/
def calFabd (s : StringSt) : Bool := (List.range 8).all fun i => s.word (calHdr (4 + i)) == s.rd (Reg.FAB_DIGEST i)

/-- CAL_STAT.READY (R281). -/
def calReady (s : StringSt) : Bool := s.calFabd && s.fabValid

def accept (s : StringSt) : StringSt :=
  ({ s with cal := { s.cal with nOpen := s.cal.nOpen + 1 } }).addSat Reg.CAL_SAMP F.CAL_SAMP.LO 1

def reject (s : StringSt) : StringSt := s.addSat Reg.CAL_SAMP F.CAL_SAMP.HI 1

/-- Samples whose job could not run before its inputs were overwritten (R266). -/
def dropped (s : StringSt) (n : Nat) : StringSt := s.addSat Reg.CAL_DROP F.CAL_DROP.LO n

/-- A value in a 16-bit field; outside it the spec states none (log entry 2). -/
def fit16 (s : StringSt) (v : Int) : Nat × StringSt :=
  if 0 ≤ v ∧ v < 65536 then (v.toNat, s) else s.draw 65536

def fitS16 (s : StringSt) (v : Int) : Int × StringSt :=
  if satS 16 v = v then (v, s) else ((sx 16 (s.draw 65536).1), (s.draw 65536).2)

/-! ## Pickup offsets (R270, R271) -/

/-- Pickup `m` is dark by its tap (R270); its live flags are the caller's. -/
def darkTap (s : StringSt) (m : Nat) : Bool :=
  let w := s.visWhere m
  let port := fun (e : Nat) => (s.farNow e).isNone && (s.farFut e).isNone && !bit (s.word (e + 4)) 7
  match s.visTap m with
  | 1 | 2 => decide (s.cellNcirc w = 0) && !s.cellPend w
  | 3 => port (inTab w)
  | 4 => port (outTab w)
  | _ => false

/-- One dark observation of `x` codes (R271). -/
def darkObs (s : StringSt) (m x : Nat) : StringSt :=
  let t := s.trimPw m
  let step : Int := ((s.fld Reg.CAL_CFG2 F.CAL_CFG2.OSTEP : Nat) : Int)
  let off : Int := if t.on = 0 then (16 * x : Nat) else
    if t.off ≤ 16 * x then (t.off : Int) + step else (t.off : Int) - 31 * step
  (s.setTrimP m { t with off := (clampI 0 0xFFFFF off).toNat, ov := true, on := satInc 255 t.on }).accept

/-- A report of pickup `m` with its FLAGS word: dark, and not overranged, open or short (R270). -/
def isDark (s : StringSt) (m flags : Nat) : Bool := s.darkTap m && !bit flags 16 && !bit flags 18 && !bit flags 19

/-! ## Gains (R272, R273) -/

/-- Sweep reports kept of a pickup, newest first. -/
def sweepsOf (s : StringSt) (m : Nat) : List PRep := Tab.get (fun _ => []) s.cal.sweeps m

def keepSweep (s : StringSt) (m : Nat) (r : PRep) : StringSt :=
  { s with cal := { s.cal with sweeps := Tab.set (fun _ => []) s.cal.sweeps m (r :: (s.sweepsOf m).take 11) } }

/-- The first pickup on output `o` of cell `c` (R114). -/
def tapOf (s : StringSt) (c o : Nat) : Option Nat :=
  (List.range 2048).find? fun m => decide (s.visTap m = 1 + o ∧ s.visWhere m = c)

/-- The gain sample of cell `c`, moved by a stroke from `ts` to `te` that moved `cells` (R272). -/
def gainSample (s : StringSt) (c ts te : Nat) (cells : List Nat) : StringSt :=
  match s.tapOf c 0, s.tapOf c 1 with
  | some m0, some m1 =>
    let t0 := s.trimPw m0
    let t1 := s.trimPw m1
    if !t0.ov || !t1.ov then s
    else
      let upstream := [s.cellIn c 0, s.cellIn c 1].any fun l => match linkCell l with | some (u, _) => cells.contains u | none => false
      let before := fun m => (s.sweepsOf m).find? fun r => decide (r.t < ts)
      let after := fun m => (s.sweepsOf m).reverse.find? fun r => decide (te + 2 * msT + sweepT ≤ r.t)
      match before m0, before m1, after m0, after m1 with
      | some b0, some b1, some a0, some a1 =>
        if upstream || b0.bad || b1.bad || a0.bad || a1.bad then s.reject
        else
          let v := fun (r : PRep) (t : TrimP) => (16 * r.mean : Int) - t.off
          let num := v a1 t1 - v b1 t1
          let den := v b0 t0 - v a0 t0
          let lim : Int := ((1024 * s.fld Reg.CAL_CFG2 F.CAL_CFG2.GMIN : Nat) : Int)
          if (num.natAbs : Int) < lim ∨ (den.natAbs : Int) < lim ∨ num * den ≤ 0 then s.reject
          else
            let r := fxRound (4096 * fxLog2 num.natAbs den.natAbs)
            let d := rhe ((t1.lg - t0.lg) - r) (s.fld Reg.CAL_CFG F.CAL_CFG.GSH + 1)
            let u := s.fitS16 (t0.lg + d)
            let v := u.2.fitS16 (t1.lg - d)
            let s := v.2.setTrimP m0 { t0 with lg := u.1, gv := true, gn := satInc 255 t0.gn }
            (s.setTrimP m1 { t1 with lg := v.1, gv := true, gn := satInc 255 t1.gn }).accept
      | _, _, _, _ => s.reject
  | _, _ => s

/-- The mean LG of the observed pickups is taken off each of them (R273). -/
def normalise (s : StringSt) : StringSt :=
  let l := (List.range 2048).filter fun m => (s.trimPw m).gv
  if l.isEmpty then s
  else
    let mean := rheDiv (l.map fun m => (s.trimPw m).lg).sum l.length
    if mean = 0 then s
    else l.foldl (fun s m =>
      let t := s.trimPw m
      let u := s.fitS16 (t.lg - mean)
      u.2.setTrimP m { t with lg := u.1 }) s

/-- What is open is closed for a commit (R267, R273). -/
def closeOpen (s : StringSt) : StringSt :=
  let s := s.normalise
  { s with cal := { s.cal with shut := some ⟨s.cal.work, s.cal.lags, s.cal.nOpen⟩, lags := [], nOpen := 0 } }

/-- A sample whose evidence ended at `e` is about to be taken: where an instant C has come by then, what was taken before is closed first, for the
commit of C covers the samples whose evidence ended before it (R267). -/
def evidence (s : StringSt) (e : Nat) : StringSt :=
  let per := max 1 (s.fld Reg.CAL_CFG F.CAL_CFG.CPER) * 10 * msT
  if s.cal.closed < e / per * per ∧ s.cal.shut.isNone then { s.closeOpen with cal := { s.closeOpen.cal with closed := e / per * per } } else s

/-! ## Targets (R274) -/

/-- The frames of a loop within [lo, hi), oldest first. -/
def framesIn (s : StringSt) (a lo hi : Nat) : List LoopSmp :=
  ((Tab.get (fun _ => []) s.eng.logs a).filter fun q => decide (lo ≤ q.t ∧ q.t < hi)).reverse

/-- The loop ran clean through [lo, hi): its frames are there, in RUN, not frozen, valid, without SAT and without BLIND (R274). -/
def cleanRun (s : StringSt) (a lo hi : Nat) : Bool :=
  let l := s.framesIn a lo hi
  let p := TileSt.ratePeriod (s.loopCfg a).rate
  decide (l.length = (hi - 1) / p - (lo - 1) / p) && decide (0 < l.length) &&
    l.all fun q => q.run && !q.frozen && !q.invalid && !q.sat && !q.blind

/-- A new value of the target of state `st` of actuator `a` (R274). -/
def targetUpdate (s : StringSt) (a st : Nat) (v : Int) : StringSt :=
  let w0 := s.calW (trimA a)
  let w1 := s.calW (trimA a + 4)
  let t := bits w0 (16 * st) 16
  let known := bit w1 (16 + st)
  let u := s.fit16 (if known then (t : Int) + rhe (v - t) (s.fld Reg.CAL_CFG F.CAL_CFG.TSH) else v)
  let s := u.2.setCalW (trimA a) (putBits w0 (16 * st) 16 u.1)
  let q := bits w1 (19 + 3 * st) 3
  (s.setCalW (trimA a + 4) (putBits (putBit w1 (16 + st) true) (19 + 3 * st) 3 (satInc 7 q))).accept

/-- The target sample of actuator `a` for the interval [lo, hi) (R274). -/
def targetSample (s : StringSt) (lo hi a : Nat) : StringSt :=
  let c := s.actCell a
  let st := s.cellState c
  if c < s.fabNcell ∧ st < 2 ∧ !s.cellPend c ∧ Tab.get (fun _ => 0) s.rte.touched c < lo ∧ s.rte.rebuilt < lo ∧ s.cleanRun a lo hi then
    let l := s.framesIn a lo hi
    let sum := (l.map fun q => rhe (q.acc : Int) 16).sum
    s.targetUpdate a st (sum / (l.length : Int))
  else s

/-! ## Thermal lag (R276) -/

/-- One lag sample from I and Q; atan of -Q / 0 is open (log entry 2). -/
def lagValue (s : StringSt) (i q : Int) : Int × StringSt :=
  if i = 0 then (((s.draw 32768).1 : Int) - 16384, (s.draw 32768).2)
  else (rheDiv (fxAtan2 (if i < 0 then q else -q) (i.natAbs : Int) * 65536) fxTwoPi.toNat, s)

/-- The lag samples of the intervals up to `iv` (R276). -/
def lagSamples (s : StringSt) (iv : Nat) : StringSt :=
  let s1 := s.cal.firsts.foldl (fun s e =>
    (e.2.filter fun q => decide (q.1 ≤ iv)).foldl (fun s w =>
      let v := s.lagValue w.2.1 w.2.2
      let s := v.2
      let k := 16 * (e.1 / 2048) + bits (s.word (actRec e.1 + 4)) 16 4
      let old := Tab.get (fun _ => ((0 : Nat), (0 : Int), (0 : Nat))) s.cal.lags k
      ({ s with cal := { s.cal with
        lags := Tab.set (fun _ => (0, 0, 0)) s.cal.lags k (old.1 + 1, old.2.1 + v.1, old.2.2 + v.1.natAbs * v.1.natAbs) } }).accept) s) s
  { s1 with cal := { s1.cal with
    firsts := s1.cal.firsts.filterMap fun e =>
      let l := e.2.filter fun q => decide (iv < q.1)
      if l.isEmpty then none else some (e.1, l) } }

/-- CAL_TARGET_SAMPLE: the intervals that have ended, each once (R274, R276). The loops' frames are held for 12 ms, ten whole intervals; an
earlier interval that was not judged gives no sample, and one dropped for each running loop (R266; log entry 101). -/
def intervalSamples (s : StringSt) : StringSt :=
  let k := s.time / sweepT
  if !s.calOn ∨ k ≤ s.cal.judged then s
  else
    let first := max s.cal.judged (k - 10)
    let s := s.dropped ((first - s.cal.judged) * s.runningLoops.length)
    let s := { s with cal := { s.cal with judged := k } }
    (List.range (k - first)).foldl (fun s q =>
      let iv := first + q
      let s := s.evidence ((iv + 1) * sweepT)
      let s := s.runningLoops.foldl (fun s a => s.targetSample (iv * sweepT) ((iv + 1) * sweepT) a) s
      s.lagSamples iv) s

end StringSt

namespace State

/-! ## Efficiency (R275) -/

/-- The efficiency sample of entry `e` of stroke `k` that string `x` judges (R275). The lit outputs are those of the new state (R275), noted when
it became current. -/
def effSample (s : State) (x : Str) (k : Stroke) (e : StrokeEnt) : State :=
  let c := s.str x
  let d := s.tile (e.act / 2048)
  let lit := k.lit.contains e.act
  if (c.loopCfg e.act).mode ≠ 1 ∨ !lit then s
  else
    let p := TileSt.ratePeriod (c.loopCfg e.act).rate
    -- after the resume frame, the loop's first frame after t_e (R200)
    let first := (c.framesIn e.act (e.te / p * p + p + 1) (e.te + 5 * msT)).find? fun q => q.run && !q.frozen && !q.invalid
    let l := c.framesIn e.act (e.te + 2 * msT) (e.te + 2 * msT + sweepT)
    match first with
    | none => s.updStr x StringSt.reject
    | some q =>
      let cnt : Int := (l.length : Int)
      let sum := (l.map fun q => rhe (q.acc : Int) 16).sum
      let dA := rhe (q.pre : Int) 16 * cnt - sum
      let di := (q.i - (c.loopCfg e.act).iset)
      if l.length + 1 < sweepT / p ∨ l.any (fun q => q.invalid) ∨
          (dA.natAbs : Int) < ((16 * c.fld Reg.CAL_CFG2 F.CAL_CFG2.EMIN * l.length : Nat) : Int) ∨ 0 ≤ di * dA then
        s.updStr x StringSt.reject
      else
        let pilot := bits (c.word (actRec e.act + 4)) 16 4
        let cos := cosTurn ((d.fld (Reg.TILE_DRNROT pilot) F.TILE_DRNROT.ROT : Nat) : Int) 65536
        s.updStr x fun c =>
          -- the square root of a negative number, or a division by 0, is open (log entry 2)
          let u : Nat × StringSt := if 0 < cos then
              (rheSqrt (2 ^ 48 * di.natAbs * l.length * 2 ^ 40) (dA.natAbs * 2048 * 65535 * cos.toNat), c) else c.draw 65536
          let w1 := u.2.calW (trimA e.act + 4)
          let old : Int := ((bits w1 0 16 : Nat) : Int)
          let v := u.2.fit16 (if bit w1 18 then old + rhe ((u.1 : Int) - old) (c.fld Reg.CAL_CFG F.CAL_CFG.ESH) else (u.1 : Int))
          (v.2.setCalW (trimA e.act + 4)
            (putBits (putBit (putBits w1 0 16 v.1) 18 true) 25 3 (satInc 7 (bits w1 25 3)))).accept

/-- The instant by which the windows of a stroke have passed (R272, R275). -/
def windowsEnd (k : Stroke) : Nat := (k.ents.foldl (fun m e => max m e.te) k.ts) + 2 * msT + 2 * sweepT

/-- CAL_STROKE_SAMPLE: the played strokes whose windows have passed give their samples, each once (R272, R275). -/
def strokeSamples (s : State) (x : Str) : State :=
  (s.str x).plan.strokes.foldl (fun s k =>
    if !k.past || k.withdrawn || k.calDone || decide ((s.str x).time < windowsEnd k) then s
    else
      let s := s.updStr x fun c => c.updStroke k.armSeq fun q => { q with calDone := true }
      if !(s.str x).calOn || decide (k.missed ≠ 0) then s
      else if windowsEnd k + 7 * msT < (s.str x).time then
        -- the frames and the reports that its samples need are held for 12 ms (R266; log entry 101)
        s.updStr x fun c => c.dropped (k.ents.filter fun e => c.loopRuns e.act).length
      else
        let s := s.updStr x fun c => c.evidence (windowsEnd k)
        let moved := ((s.str x).rte.moves.reverse.filterMap fun m => if m.1 = k.armSeq then some m.2 else none).flatten
        let s := s.updStr x fun c => moved.foldl (fun c m =>
          if c.cellKind m.1 = 0 ∧ m.2.1 < 2 ∧ m.2.2 < 2 ∧ m.2.1 ≠ m.2.2 then
            let te := (k.ents.filter fun e => c.actCell e.act == m.1).foldl (fun v e => max v e.te) k.ts
            c.gainSample m.1 k.ts te (moved.map (·.1))
          else c) c
        k.ents.foldl (fun s e => s.effSample x k e) s) s

/-! ## The copies in the tiles (R267, R269) -/

/-- The mirror of tile `n` holds the word at an address of the record (R269). -/
def inMirror (n a : Nat) : Bool :=
  a == calHdr 3 || (decide (calHdr 4 ≤ a) && decide (a < calHdr 12)) ||
    (decide (calHdr (16 + 8 * n) ≤ a) && decide (a < calHdr (24 + 8 * n))) ||
    (decide (calHdr (80 + 8 * n) ≤ a) && decide (a < calHdr (88 + 8 * n))) ||
    (decide (trimP (256 * n) ≤ a) && decide (a < trimP (256 * (n + 1)))) ||
    (decide (trimA (2048 * n) ≤ a) && decide (a < trimA (2048 * (n + 1))))

/-- The capo string has rewritten a tile's copies, or set CSEQ. -/
def mirrorSeq (d : TileSt) (seq : Nat) : TileSt :=
  ({ d with mirror := d.mirror.setWord (calHdr 3) seq, mirrored := true }).setFld Reg.TILE_CALSTAT F.TILE_CALSTAT.CSEQ seq

/-- String `x` writes TILE_POFF, TILE_DRNROT and the mirror of tile `n` from its record, and sets RESTORED (R269, R280). -/
def calToTile (s : State) (x : Str) (n : Nat) : State :=
  let c := s.str x
  s.updTile n fun d =>
    let d := (List.range 256).foldl (fun d i => d.wr (Reg.TILE_POFF i) (bits (c.word (trimP (256 * n + i))) 0 20)) d
    let d := (List.range 16).foldl (fun d p => d.wr (Reg.TILE_DRNROT p) (bits (c.word (rotWord n p)) (16 * (p % 2)) 16)) d
    let d := { d with mirror := c.sram.filter fun e => inMirror n (e.1 / 4 * 4) }
    let d := mirrorSeq d (c.word (calHdr 3))
    if d.fld Reg.TILE_CALSTAT F.TILE_CALSTAT.RESTORED = 1 then d else d.setRestored

/-- Words of string `x`'s record go to tile `n`: offsets where OFFEN is 1, ROT where ROTEN is 1, and the mirror (R267). Of a word with two ROT only
what differs from the record `old` is written, where one is given. -/
def calWordsToTile (s : State) (x : Str) (n : Nat) (words : List (Nat × Nat)) (old : Option StringSt) : State :=
  let c := s.str x
  let offs := c.flag Reg.CAL_CFG F.CAL_CFG.OFFEN
  let rots := c.flag Reg.CAL_CFG F.CAL_CFG.ROTEN
  s.updTile n fun d =>
    let d := words.foldl (fun (d : TileSt) w =>
      if !inMirror n w.1 then d
      else
        let d := { d with mirror := d.mirror.setWord w.1 w.2 }
        if offs ∧ trimP (256 * n) ≤ w.1 ∧ w.1 < trimP (256 * (n + 1)) ∧ w.1 % 8 = 0 then
          d.wr (Reg.TILE_POFF ((w.1 - trimP (256 * n)) / 8)) (bits w.2 0 20)
        else if rots ∧ calHdr (16 + 8 * n) ≤ w.1 ∧ w.1 < calHdr (24 + 8 * n) then
          let p := 2 * ((w.1 - calHdr (16 + 8 * n)) / 4)
          let put := fun (d : TileSt) (i : Nat) =>
            if (old.any fun o => decide (bits (o.word w.1) (16 * i) 16 = bits w.2 (16 * i) 16)) then d
            else d.wr (Reg.TILE_DRNROT (p + i)) (bits w.2 (16 * i) 16)
          put (put d 0) 1
        else d) d
    mirrorSeq d (c.word (calHdr 3))

/-! ## Commits (R267) -/

/-- CAL_NCONV and CAL_NACT (R265). -/
def conv (c : StringSt) : StringSt :=
  let p := (List.range 2048).map fun m => TrimP.of (c.word (trimP m)) (c.word (trimP m + 4))
  let a := (List.range 16384).map fun i => c.word (trimA i + 4)
  let c := c.wr Reg.CAL_NCONV ((p.filter fun t => t.ov && decide (16 ≤ t.on)).length +
    65536 * (p.filter fun t => t.gv && decide (8 ≤ t.gn)).length)
  c.wr Reg.CAL_NACT ((a.filter fun w => bit w 16 && bit w 17 && decide (4 ≤ bits w 19 3 ∧ 4 ≤ bits w 22 3)).length +
    65536 * (a.filter fun w => bit w 18 && decide (2 ≤ bits w 25 3)).length)

/-- CAL_DIGEST (R267). -/
def calDigest (c : StringSt) : StringSt :=
  ((leWords 8 (sha256 (c.bytes calBase calSize))).zipIdx).foldl (fun c w => c.wr (Reg.CAL_DIGEST w.2) w.1) c

/-- The words of a commit, or of a CALLOAD image, enter the record with the effect frame `t`, and what follows from it (R267). -/
def calWrite (c : StringSt) (t src : Nat) (words : List (Nat × Nat)) : StringSt :=
  let c := c.calInto t words
  conv (calDigest ((c.wr Reg.CAL_CSEQ (c.rd Reg.CAL_CSEQ + 1)).setFld Reg.CAL_STAT F.CAL_STAT.SRC src))

/-- ROT and LRMS of tile `n`, pilot `p` at a commit (R276). -/
def lagCommit (s : State) (c : StringSt) (n p : Nat) : StringSt :=
  let l := Tab.get (fun _ => ((0 : Nat), (0 : Int), (0 : Nat))) c.cal.lags (16 * n + p)
  if l.1 < 16 then c
  else
    let lo := 16 * (p % 2)
    let rot := (s.tile n).fld (Reg.TILE_DRNROT p) F.TILE_DRNROT.ROT
    let step := rheDiv l.2.1 (2 * l.1)
    let c := if c.flag Reg.CAL_CFG F.CAL_CFG.ROTEN then
      c.setCalW (rotWord n p) (putBits (c.calW (rotWord n p)) lo 16 (wrap 16 ((rot : Int) + step))) else c
    let var := (l.1 * l.2.2 : Int) - l.2.1 * l.2.1
    c.setCalW (lrmsWord n p) (putBits (c.calW (lrmsWord n p)) lo 16 (rheSqrt var.toNat (l.1 * l.1)))

/-- A CALLOAD waits for its effect frame: the samples before it will be dropped (R279, R280). -/
def loadPending (c : StringSt) : Bool :=
  c.ring.recs.any fun r => !r.applied && r.effects.any fun e => match e with | .cal _ => true | _ => false

/-- CAL_COMMIT_CLOSE: the instant C of a commit has come on the active string; what changed by the samples whose evidence ended before C is placed in
the command order (R267). One is placed at a time. -/
def commitClose (s : State) (x : Str) : State :=
  let c := s.str x
  let per := max 1 (c.fld Reg.CAL_CFG F.CAL_CFG.CPER) * 10 * msT
  let iv := c.time / per * per
  if !c.calOn || loadPending c || c.red.joinHeld || c.cal.commit.isSome then s
  else
    let c := if c.cal.closed < iv ∧ c.cal.shut.isNone then { c.closeOpen with cal := { c.closeOpen.cal with closed := iv } } else c
    match c.cal.shut with
    | none => s
    | some k =>
      let w := { c with cal := { c.cal with work := k.words, lags := k.lags } }
      let w := (List.range 128).foldl (fun w q => lagCommit s w (q / 16) (q % 16)) w
      let words := w.cal.work.filter fun e => decide (c.word e.1 ≠ e.2)
      let c := { c with cal := { c.cal with shut := none } }
      if words.isEmpty then s.setStr x c
      else
        let f := max (ceilTo frameT (c.time + 30 * usT)) c.ring.lastEff
        let m : CalCommit := ⟨f, words, (List.range 8).map fun i => c.word (calHdr (4 + i)), k.n, c.gseqNext⟩
        let c := { c with
          cal := { c.cal with commit := some m }
          ring := { c.ring with lastEff := f } }
        s.setStr x (if c.joined then c.send (.calCommit m) else c)

/-- A commit applies in string `x` (R267), where producer 131 fires (R343); the capo string writes the tiles. -/
def commitApply (s : State) (x : Str) (m : CalCommit) : State :=
  let old := s.str x
  let s := s.updStr x fun c =>
    let c := calWrite c m.frame 1 m.words
    ({ c with cal := { c.cal with
      commit := none
      work := c.cal.work.filter fun e => decide (c.word e.1 ≠ e.2) } }).fire 131
  s.eachTile fun n s => if s.capo = some x then s.calWordsToTile x n m.words (some old) else s

/-- The next commit that its partner has sent reaches string `x`, where none waits in it (R267). -/
def commitTake (s : State) (x : Str) (due : CalCommit → Bool) : State :=
  if (s.str x).cal.commit.isSome then s
  else match s.receive x (fun m => match m with | .calCommit m => if due m then some m else none | _ => none) with
    | some (m, s) => s.updStr x fun c => c.takeCommit m
    | none => s

/-- CAL_COMMIT_APPLY: at the effect frame of a commit both strings write the record (R267). -/
def commitDue (s : State) : State :=
  let one := fun (s : State) (x : Str) =>
    let s := s.commitTake x fun m => decide (m.frame ≤ (s.str x).time)
    match (s.str x).cal.commit with
    | some m => if m.frame ≤ (s.str x).time then s.commitApply x m else s
    | none => s
  one (one s .a) .b

/-- A CALLOAD image takes the place of the record in string `x` at its effect frame `t` (R279). -/
def calLoad (s : State) (x : Str) (t : Nat) (words : List Nat) : State :=
  let keep := [2, 3, 12, 13]
  let l := (words.zipIdx.filter fun w => !keep.contains w.2).map fun w => (calHdr w.2, w.1)
  let s := s.updStr x fun c => calWrite (c.dropOpen true) t 2 l
  s.eachTile fun n s => if s.capo = some x then s.calWordsToTile x n l none else s

/-! ## Defaults and rebuilding (R269, R277) -/

/-- The record of string `x` takes the defaults of R277 for the descriptor that is VALID; ROT is that of the tiles. -/
def calDefaults (s : State) (x : Str) : State :=
  s.updStr x fun c =>
    let c := c.dropOpen true
    let c := { c with outbox := c.outbox.filter fun m => match m with | .calCommit _ => false | _ => true }
    let c := c.zero calBase calSize
    let c := c.setWords calBase ([0x314C4143, 1] ++ [0, 0] ++ (List.range 8).map fun i => c.rd (Reg.FAB_DIGEST i))
    let c := (List.range 128).foldl (fun c k =>
      let a := rotWord (k / 16) (k % 16)
      c.setWord a (putBits (c.word a) (16 * (k % 2)) 16 ((s.tile (k / 16)).fld (Reg.TILE_DRNROT (k % 16)) F.TILE_DRNROT.ROT))) c
    let c := (List.range 2048).foldl (fun c m => c.setWord (trimP m) 16384) c
    let c := { c with cal := { c.cal with sweeps := [] } }
    let c := (c.setWord (calHdr 2) (c.rd Reg.CAL_CSEQ)).setWord (calHdr 3) (c.rd Reg.CAL_CSEQ)
    conv (calDigest (c.setFld Reg.CAL_STAT F.CAL_STAT.SRC 0))

/-- The record of string `x` is rebuilt from the mirrors of the tiles after a reset that cleared it (R269). -/
def calRebuild (s : State) (x : Str) : State :=
  let s := s.calDefaults x
  let good := (List.range 8).filter fun n =>
    (s.tile n).mirrored && (List.range 8).all fun i => (s.tile n).mirror.word (calHdr (4 + i)) == (s.str x).rd (Reg.FAB_DIGEST i)
  let top := (List.range 8).foldl (fun m n => if (s.tile n).mirrored then max m ((s.tile n).mirror.word (calHdr 3)) else m) 0
  let use := good.filter fun n => (s.tile n).mirror.word (calHdr 3) == top
  s.updStr x fun c =>
    let c := use.foldl (fun c n =>
      let m := (s.tile n).mirror
      let c := c.setWords (calHdr (16 + 8 * n)) (m.words (calHdr (16 + 8 * n)) 8)
      let c := c.setWords (calHdr (80 + 8 * n)) (m.words (calHdr (80 + 8 * n)) 8)
      let c := c.setBytes (trimP (256 * n)) (m.bytes (trimP (256 * n)) 2048)
      c.setBytes (trimA (2048 * n)) (m.bytes (trimA (2048 * n)) 16384)) c
    let c := ((c.setWord (calHdr 2) top).setWord (calHdr 3) top).wr Reg.CAL_CSEQ top
    conv (calDigest (c.setFld Reg.CAL_STAT F.CAL_STAT.SRC 3))

/-! ## Reports (R148, R164, R180) -/

/-- A sweep report of pickup `m` reaches string `x`'s calibration (R270, R272). -/
def sweepCal (s : State) (x : Str) (m t : Nat) (words : List Nat) : State :=
  let mean := bits (words.getD 1 0) 16 16
  let min := bits (words.getD 0 0) 16 16
  let flags := words.getD 2 0
  let bad := bit flags 0 || bit flags 5 || bit flags 6 || bit flags 16 || bit flags 18 || bit flags 19
  let per := (s.tile (m / 256)).fld Reg.TILE_DRNNPER F.TILE_DRNNPER.PERIOD
  s.updStr x fun c =>
    let c := c.keepSweep m ⟨t, mean, bad⟩
    if c.calOn ∧ per = 0 ∧ min ≠ 0 ∧ c.isDark m flags then (c.evidence t).darkObs m mean else c

/-- A null report of pickup `m`, of a slot that ended at `t`, reaches string `x`'s calibration (R270). -/
def nullCal (c : StringSt) (m nmean nfit flags t : Nat) : StringSt :=
  if c.calOn ∧ 16 ≤ nfit ∧ c.isDark m flags then (c.evidence t).darkObs m nmean else c

end State

/-! ## Commands -/

/-- CAL_COMMIT_CLOSE (R267, R273, R276). -/
def execCalCommitClose (x : Str) (t : Nat) (s : State) : Out := .next ((s.advance t).commitClose x)

/-- CAL_COMMIT_APPLY (R267). -/
def execCalCommitApply (t : Nat) (s : State) : Out := .next (s.advance t).commitDue

/-- CAL_STROKE_SAMPLE (R272, R275). -/
def execCalStrokeSample (x : Str) (t : Nat) (s : State) : Out := .next ((s.advance t).strokeSamples x)

/-- CAL_TARGET_SAMPLE (R274, R276). -/
def execCalTargetSample (x : Str) (t : Nat) (s : State) : Out := .next ((s.advance t).updStr x StringSt.intervalSamples)

end Sys2Proof.Machine
end

