-- ==== Sys2Proof/Machine/Route.lean ====
section
/-! DEFINITION. The routing solver, crosstalk rows, snapshots, feed-forward frames and the measurement of the matrix
(09_routing_crosstalk.md R216 to R237). -/

namespace Sys2Proof.Machine

/-- A circuit: input port, output port, and its path as (cell, input, output) from the input. -/
structure Circ where
  i : Nat
  o : Nat
  path : List (Nat × Nat × Nat)
  deriving DecidableEq, Repr

/-- The working future state of a solve: cell states, and the circuits. -/
structure Work where
  st : Tab Nat
  circs : List Circ
  deriving DecidableEq, Repr

/-- A request (R217). -/
structure Req where
  i : Nat
  o : Nat
  op : Nat
  clean : Bool
  deriving DecidableEq, Repr

def Req.of (w0 w1 : Nat) : Req :=
  ⟨bits w0 0 11, bits w0 16 11, bits w0 28 2,
    decide (bits w0 11 5 = 0 ∧ bits w0 27 1 = 0 ∧ bits w0 30 2 = 0 ∧ bits w1 16 16 = 0 ∧ bits w0 28 2 < 2)⟩

namespace StringSt

/-! ## The non-disturbing search (R221) -/

def wst (s : StringSt) (w : Work) (c : Nat) : Nat := Tab.get (fun c => s.cellFState c) w.st c

/-- A circuit of the working state uses cell `c`, or its input `a`. -/
def carries (w : Work) (c : Nat) : Bool := w.circs.any fun k => k.path.any fun e => e.1 == c
def carriesIn (w : Work) (c a : Nat) : Bool := w.circs.any fun k => k.path.any fun e => e.1 == c && e.2.1 == a

/-- What a path costs to cross cell `c` from input `a` to output `b`: 0 or 1 cells changed; none where R221 forbids it. -/
def crossCost (s : StringSt) (w : Work) (c a b : Nat) : Option Nat :=
  match stateFor (s.cellKind c) a b with
  | none => none
  | some st =>
    if !carries w c then some (if s.wst w c = st then 0 else 1)
    else if s.cellKind c = 0 ∧ s.wst w c = st ∧ !carriesIn w c a then some 0
    else none

/-- Of two paths (cells changed, path) the better (R221). -/
def betterPath (a b : Nat × List (Nat × Nat × Nat)) : Bool :=
  decide (a.1 < b.1) || (decide (a.1 = b.1) && decide ((a.2.map (·.1)) < (b.2.map (·.1))))

def keepBest (m : Tab (Option (Nat × List (Nat × Nat × Nat)))) (k : Nat) (v : Nat × List (Nat × Nat × Nat)) :
    Tab (Option (Nat × List (Nat × Nat × Nat))) :=
  match Tab.get (fun _ => none) m k with
  | some o => if betterPath v o then Tab.set (fun _ => none) m k (some v) else m
  | none => Tab.set (fun _ => none) m k (some v)

/-- Cells in rising order of stage. -/
def byStage (s : StringSt) : List Nat :=
  ((List.range s.fabStages).map fun g => (List.range s.fabNcell).filter fun c => s.cellStage c == g).flatten

/-- The best path from input port `p` to a link, given the best to every cell output before it (at 2 c + o). -/
def linkBest (m : Tab (Option (Nat × List (Nat × Nat × Nat)))) (p l : Nat) : Option (Nat × List (Nat × Nat × Nat)) :=
  match linkPort l with
  | some q => if q = p then some (0, []) else none
  | none => match linkCell l with
    | some (c, o) => Tab.get (fun _ => none) m (2 * c + o)
    | none => none

/-- The path of R221 from input port `p` to output port `q`. -/
def searchPath (s : StringSt) (w : Work) (p q : Nat) : Option (Nat × List (Nat × Nat × Nat)) :=
  let m := s.byStage.foldl (fun m c =>
    (List.range 2).foldl (fun m a =>
      match linkBest m p (s.cellIn c a) with
      | none => m
      | some (cost, path) => (List.range 2).foldl (fun m b =>
          match s.crossCost w c a b with
          | some k => keepBest m (2 * c + b) (cost + k, path ++ [(c, a, b)])
          | none => m) m) m) []
  linkBest m p (s.outLink q)

/-- The working state with the states of a path set and its circuit added. -/
def addCirc (s : StringSt) (w : Work) (k : Circ) : Work :=
  { st := k.path.foldl (fun m e => match stateFor (s.cellKind e.1) e.2.1 e.2.2 with
      | some v => Tab.set (fun c => s.cellFState c) m e.1 v | none => m) w.st
    circs := w.circs ++ [k] }

/-- Routes the connects one after the other (R221): the working state, and the index of the first that fails. -/
def routeAll (s : StringSt) (w : Work) : List (Nat × Req) → Work × Option Nat
  | [] => (w, none)
  | (n, r) :: l =>
    match s.searchPath w r.i r.o with
    | some (_, path) => s.routeAll (s.addCirc w ⟨r.i, r.o, path⟩) l
    | none => (w, some n)

/-! ## Minimal-move looping (R222) -/

/-- A circuit being routed by looping: ports, the links that enter and leave the sub-network still to route, the hops at its start and,
in reverse, at its end. -/
structure Loopee where
  i : Nat
  o : Nat
  entry : Nat
  exit : Nat
  head : List (Nat × Nat × Nat)
  tail : List (Nat × Nat × Nat)
  deriving DecidableEq, Repr

/-- The cell of stage `g` that a link feeds, with its input. -/
def fedCell (s : StringSt) (g l : Nat) : Option (Nat × Nat) :=
  ((List.range s.fabNcell).filter fun c => s.cellStage c == g).findSome? fun c =>
    (List.range 2).findSome? fun a => if s.cellIn c a = l then some (c, a) else none

/-- The cell outputs that light on link `l` can reach through cells of stages lo to hi, the link itself among them. -/
def reach (s : StringSt) (l lo hi : Nat) : List Nat :=
  (upFrom lo (hi + 1 - lo)).foldl (fun ls g =>
    ((List.range s.fabNcell).filter fun c => s.cellStage c == g).foldl (fun ls c =>
      if ls.contains (s.cellIn c 0) ∨ ls.contains (s.cellIn c 1) then ls ++ [2 * c, 2 * c + 1] else ls) ls) [l]

/-- One circuit at a level: its outer cells and the input of the last cell that each output of the first leads to. -/
structure Choice where
  x : Nat
  a : Nat
  y : Nat
  b : Nat
  j0 : Nat
  j1 : Nat
  deriving DecidableEq, Repr

def Choice.j (c : Choice) (k : Nat) : Nat := if k = 0 then c.j0 else c.j1

/-- Level `d` of the recursion as it stands for one circuit. -/
def choiceOf (s : StringSt) (d : Nat) (c : Loopee) : Option Choice :=
  let last := s.fabStages - 1 - d
  match s.fedCell d c.entry, linkCell c.exit with
  | some (x, a), some (y, b) =>
    let js := (List.range 2).map fun k =>
      let r := s.reach (2 * x + k) (d + 1) (last - 1)
      (List.range 2).find? fun j => r.contains (s.cellIn y j)
    match js.getD 0 none, js.getD 1 none with
    | some j0, some j1 => if j0 = j1 then none else some ⟨x, a, y, b, j0, j1⟩
    | _, _ => none
  | _, _ => none

/-- The circuits that one circuit's choice decides (R222): those that share its outer cells. -/
def partners (l : List (Nat × Choice)) (n k : Nat) : List (Nat × Nat) :=
  match l.find? fun e => e.1 == n with
  | none => []
  | some (_, c) => l.filterMap fun e =>
      if e.1 = n then none
      else if e.2.x = c.x then some (e.1, 1 - k)
      else if e.2.y = c.y then some (e.1, if e.2.j 0 = c.j k then 1 else 0)
      else none

/-- A loop of circuits from one of them, with the choice of each. -/
def loopGo (l : List (Nat × Choice)) : Nat → List (Nat × Nat) → List (Nat × Nat) → List (Nat × Nat)
  | 0, done, _ => done
  | _ + 1, done, [] => done
  | n + 1, done, (c, k) :: q =>
    if done.any fun e => e.1 == c then loopGo l n done q
    else loopGo l n (done ++ [(c, k)]) (q ++ partners l c k)

/-- The cell states that a loop's choices give. -/
def loopStates (l : List (Nat × Choice)) (ks : List (Nat × Nat)) : List (Nat × Nat) :=
  ((ks.filterMap fun e => (l.find? fun c => c.1 == e.1).map fun c =>
    [(c.2.x, if c.2.a = e.2 then 0 else 1), (c.2.y, if c.2.j e.2 = c.2.b then 0 else 1)]).flatten).eraseDups

/-- The orientation that R222 takes for a loop. -/
def orient (s : StringSt) (l : List (Nat × Choice)) (ks : List (Nat × Nat)) : List (Nat × Nat) :=
  let flip := ks.map fun e => (e.1, 1 - e.2)
  let s0 := loopStates l ks
  let s1 := loopStates l flip
  let moved := fun (q : List (Nat × Nat)) => (q.filter fun e => decide (s.cellFState e.1 ≠ e.2)).length
  if moved s0 < moved s1 then ks
  else if moved s1 < moved s0 then flip
  else
    let low := (s0.map (·.1)).foldl min 65536
    let keep := fun (q : List (Nat × Nat)) => q.any fun e => decide (e.1 = low ∧ e.2 = s.cellFState low)
    if keep s0 then ks else if keep s1 then flip else if Config.freeOrient low then flip else ks

/-- The choices of all circuits of a level, loop by loop. -/
def levelGo (s : StringSt) (l : List (Nat × Choice)) : List (Nat × Choice) → List (Nat × Nat) → List (Nat × Nat)
  | [], done => done
  | (n, _) :: rest, done =>
    if done.any fun e => e.1 == n then s.levelGo l rest done
    else s.levelGo l rest (done ++ s.orient l (loopGo l (3 * l.length + 3) [] [(n, 0)]))

/-- Looping over the recursion from level `d`: the middle stage joins what is left. -/
def loopLevels (s : StringSt) : Nat → Nat → List Loopee → Option (List Circ)
  | 0, _, _ => none
  | fuel + 1, d, cs =>
    let last := s.fabStages - 1 - d
    if last < d then none
    else if last = d then
      cs.mapM fun c =>
        match s.fedCell d c.entry, linkCell c.exit with
        | some (x, a), some (y, b) => if x = y then some ⟨c.i, c.o, c.head ++ [(x, a, b)] ++ c.tail⟩ else none
        | _, _ => none
    else
      match cs.mapM fun c => s.choiceOf d c with
      | none => none
      | some chs =>
        let l := (chs.zipIdx).map fun e => (e.2, e.1)
        let ks := s.levelGo l l []
        let next := (cs.zipIdx).map fun e =>
          match l.find? fun c => c.1 == e.2, ks.find? fun k => k.1 == e.2 with
          | some (_, c), some (_, k) =>
            { e.1 with
              entry := 2 * c.x + k
              exit := s.cellIn c.y (c.j k)
              head := e.1.head ++ [(c.x, c.a, k)]
              tail := (c.y, c.j k, c.b) :: e.1.tail }
          | _, _ => e.1
        s.loopLevels fuel (d + 1) next

/-- Two circuits of a routing do not meet. -/
def disjointCircs (l : List Circ) : Bool :=
  decide ((l.map fun c => c.path.map fun e => 2 * e.1 + e.2.1).flatten).Nodup &&
    decide ((l.map fun c => c.path.map fun e => 2 * e.1 + e.2.2).flatten).Nodup

/-- The whole circuit set routed by looping (R222). -/
def looping (s : StringSt) (pairs : List (Nat × Nat)) : Option Work :=
  match s.loopLevels 256 0 (pairs.map fun p => ⟨p.1, p.2, 32768 + p.1, s.outLink p.2, [], []⟩) with
  | some cs => if disjointCircs cs then some (cs.foldl s.addCirc ⟨[], []⟩) else none
  | none => none

/-! ## RTSOLVE (R216 to R225) -/

/-- The future circuits (R215). -/
def futureCircs (s : StringSt) : List Circ :=
  (List.range s.fabNout).filterMap fun o =>
    match s.farFut (outTab o) with
    | some i => some ⟨i, o, match s.traceOut s.cellFState o with | some r => r.2 | none => []⟩
    | none => none

/-- Tcal of act `e` in a cell state (R264), as the phrase of sequence number `g` sees it. -/
def tcal (s : StringSt) (g e st : Nat) : Option Nat :=
  if st < 2 ∧ bit (s.calSeen g (trimA e + 4)) (16 + st) then some (bits (s.calSeen g (trimA e)) (16 * st) 16) else none

/-- The target of a pending entry of act `k`, the latest in arm order (R224). -/
def pendingP1 (s : StringSt) (k : Nat) : Option Nat :=
  (sortBy (fun (a b : RtPend) => decide (a.armSeq ≤ b.armSeq)) s.rte.pend).foldl (fun m q =>
    match q.ents.find? fun e => e.1 == k with | some e => some e.2 | none => m) none

/-- The target of act `e` for a new cell state, with the new states of the moved cells (R224). -/
def targetOf (s : StringSt) (g : Nat) (moved : List (Nat × Nat)) (e : Nat) (t : Nat) : Nat :=
  let newState := fun (k : Nat) => if s.actMoves k then (moved.find? fun m => m.1 == s.actCell k).map (·.2) else none
  let sp := fun (k : Nat) => match newState k with
    | some st => (s.tcal g k st).getD 0
    | none => match s.pendingP1 k with
      | some p => p
      | none => s.snapPower k
  let sum := ((s.rowTerms e).map fun q => q.2 * (sp q.1 : Int)).sum
  let ff := if s.rowOn e then clampI (-s.rowMax e) (s.rowMax e) (rhe sum 16) else 0
  let c := s.loopCfg e
  (clampI (c.lo : Int) (c.hi : Int) ((t : Int) + ff)).toNat

/-- The outcome of a solve: REASON, FAILIDX, the header's counts, entries (act, target), disturbed circuits, and the solve. -/
structure Solved where
  reason : Nat
  idx : Nat
  nmove : Nat
  ndist : Nat
  nent : Nat
  nnew : Nat
  nfree : Nat
  ents : List (Nat × Nat)
  dist : List (Nat × Nat)
  solve : Solve
  deriving DecidableEq, Repr

def Solved.fail (reason idx : Nat) : Solved := ⟨reason, idx, 0, 0, 0, 0, 0, [], [], ⟨[], [], [], []⟩⟩

/-- The first request, by index, that fails a test. -/
def firstReq (l : List Req) (p : Nat → Req → Bool) : Option Nat := (l.zipIdx.find? fun e => p e.2 e.1).map (·.2)

/-- Ports named twice (R217): the index of the later request. -/
def twice (l : List Req) : Option Nat :=
  firstReq l fun n r => (l.take n).any fun q => q.i == r.i || q.o == r.o

/-- The rest of a solve once every circuit is routed: moved cells, targets and counts (R218, R223, R224). -/
def finishSolve (s : StringSt) (g : Nat) (l : List Req) (before : List Circ) (w : Work) (park : Bool) (maxmove len : Nat) (barrier : Bool) :
    Solved :=
  let st := if park then (List.range s.fabNcell).foldl (fun m c =>
      if carries w c ∨ 2 ≤ s.cellFState c then m else Tab.set (fun c => s.cellFState c) m c 0) w.st else w.st
  let moved := ((List.range s.fabNcell).map fun c => (c, Tab.get (fun c => s.cellFState c) st c)).filter fun e =>
    decide (e.2 ≠ s.cellFState e.1)
  let dist := sortBy (fun (a b : Nat × Nat) => decide (a.1 ≤ b.1)) ((before.filter fun c =>
    (w.circs.any fun k => k.i == c.i && k.o == c.o) && c.path.any fun e => moved.any fun m => m.1 == e.1).map fun c => (c.i, c.o))
  let acts := sortBy (fun (a b : Nat × Nat) => decide (a.1 ≤ b.1))
    ((moved.map fun m => ((s.cellActs m.1).filter s.actMoves).map fun a => (a, m.2)).flatten)
  let known := acts.all fun e => (s.tcal g e.1 e.2).isSome
  let ents := acts.map fun e => (e.1, s.targetOf g moved e.1 ((s.tcal g e.1 e.2).getD 0))
  let news := l.filter fun r => decide (r.op = 0)
  let frees := l.filter fun r => decide (r.op = 1)
  let far := fun (p : Nat) => (w.circs.find? fun k => k.i == p).map (·.o)
  let near := fun (p : Nat) => (w.circs.find? fun k => k.o == p).map (·.i)
  let ins := ((List.range s.fabNin).map fun p => (p, far p)).filter fun e => decide (e.2 ≠ s.farFut (inTab e.1))
  let outs := ((List.range s.fabNout).map fun p => (p, near p)).filter fun e => decide (e.2 ≠ s.farFut (outTab e.1))
  let r := fun (reason nent : Nat) (es : List (Nat × Nat)) (ds : List (Nat × Nat)) =>
    (⟨reason, 0xFFFF, moved.length, dist.length, nent, news.length, frees.length, es, ds, ⟨moved, ins, outs, ents⟩⟩ : Solved)
  if !barrier then r 0x0B 0 [] []
  else if !known then r 0x0A 0 [] []
  else if maxmove ≠ 0 ∧ maxmove < moved.length then r 7 0 [] []
  else if 16384 < ents.length ∨ len < 64 + 16 * ents.length + 4 * dist.length then r 8 0 [] []
  else r 0 ents.length ents dist

/-- The solve of a request list (R216 to R224), the checks of R219 in the order of the statuses in R216 (R452). -/
def solveSet (s : StringSt) (g : Nat) (l : List Req) (nodist park : Bool) (maxmove len : Nat) (barrier : Bool) : Solved :=
  let up := s.fabValid && s.rteReady
  match firstReq l fun _ r => !r.clean || (up && (decide (s.fabNin ≤ r.i) || decide (s.fabNout ≤ r.o))) with
  | some n => .fail 1 n
  | none => match twice l with
    | some n => .fail 2 n
    | none =>
      if !up then .fail (if barrier then 9 else 0x0B) 0xFFFF
      else
        let before := s.futureCircs
        let gone := fun (c : Circ) => l.any fun r => r.op == 1 && r.i == c.i && r.o == c.o
        let rest := before.filter fun c => !gone c
        match firstReq l fun _ r => decide (r.op = 1) && !before.any (fun c => c.i == r.i && c.o == r.o) with
        | some n => .fail 4 n
        | none => match firstReq l fun _ r => decide (r.op = 0) && rest.any (fun c => c.i == r.i || c.o == r.o) with
          | some n => .fail 3 n
          | none =>
            let cons := (l.zipIdx.filter fun e => decide (e.1.op = 0)).map fun e => (e.2, e.1)
            match s.routeAll ⟨[], rest⟩ cons with
            | (w, none) => s.finishSolve g l before w park maxmove len barrier
            | (_, some n) =>
              let pairs := (rest.map fun c => (c.i, c.o)) ++ cons.map fun e => (e.2.i, e.2.o)
              match if s.fabTopo = 1 ∧ !s.fabStrict ∧ !nodist then s.looping pairs else none with
              | some w => s.finishSolve g l before w park maxmove len barrier
              | none => .fail (if barrier then 6 else 0x0B) n

/-- The status of a REASON (R219). -/
def reasonStatus (r : Nat) : Nat :=
  if r = 0 then sOK else if r ≤ 5 then sBADVAL else if r = 7 ∨ r = 8 then sFULL else sBUSY

/-- Word 0 of an entry that a solve writes (R224, R240). -/
def entWord (s : StringSt) (a : Nat) : Nat :=
  a + 65536 * (if s.actRole a = 3 then s.fld Reg.RTE_CFG F.RTE_CFG.SHAPET else s.fld Reg.RTE_CFG F.RTE_CFG.SHAPEM)

/-- The result buffer (R218). -/
def writeResult (s : StringSt) (a len : Nat) (v : Solved) : StringSt :=
  let s := s.setWords a [v.reason + 65536 * v.idx, v.nmove + 65536 * v.ndist, v.nent + 65536 * v.nnew, v.nfree]
  if v.reason = 8 ∨ len < 64 then s
  else
    let s := s.setWords (a + 16) (List.replicate 12 0)
    if v.reason ≠ 0 then s
    else
      let s := s.setWords (a + 64) (v.ents.map fun e => [s.entWord e.1, e.2, 0, 0]).flatten
      s.setWords (a + 64 + 16 * v.nent) (v.dist.map fun e => e.1 + 65536 * e.2)

/-- RTSOLVE (R216, R219), by the phrase in flight of a ring: g3 to g7, the phrase's BARRIER bit, and its duration in us. -/
def rtsolve (s : StringSt) (sec : Bool) (ring : Nat) (barrier : Bool) (g : Nat → Nat) (us : Nat) : Nat × StringSt :=
  let cnt := fun (s : StringSt) (v : Solved) =>
    let s := s.addSat Reg.RTE_CNT F.RTE_CNT.SOLVES 1
    let s := if v.reason = 6 then s.addSat Reg.RTE_CNT F.RTE_CNT.BLOCKED 1 else s
    let s := (s.setFld Reg.RTE_LAST F.RTE_LAST.NMOVE v.nmove).setFld Reg.RTE_LAST F.RTE_LAST.REASON v.reason
    let s := s.setFld Reg.RTE_TSOLVE F.RTE_TSOLVE.LAST (min 65535 us)
    s.setFld Reg.RTE_TSOLVE F.RTE_TSOLVE.MAX (max (s.fld Reg.RTE_TSOLVE F.RTE_TSOLVE.MAX) (min 65535 us))
  if g 5 % 16 ≠ 0 ∨ g 6 < 16 ∨ !s.phraseBuf sec true (g 5) (g 6) then (sBADVAL, cnt s (.fail 5 0xFFFF))
  else
    let v := if g 4 < 1 ∨ 2048 < g 4 ∨ bits (g 7) 2 14 ≠ 0 ∨ g 3 % 4 ≠ 0 ∨ !s.phraseBuf sec false (g 3) (8 * g 4) then
        Solved.fail 5 0xFFFF
      else
        s.solveSet (match s.flight ring with | some f => f.gseq | none => 0) ((List.range (g 4)).map fun n => Req.of (s.word (g 3 + 8 * n)) (s.word (g 3 + 8 * n + 4)))
          (bit (g 7) 0) (bit (g 7) 1) (bits (g 7) 16 16) (g 6) barrier
    let s := (cnt s v).writeResult (g 5) (g 6) v
    let s := if v.reason = 0 then s.updFlight ring fun f => { f with solve := some v.solve } else s
    (reasonStatus v.reason, s)

/-- What becomes of the changes that RTBIND binds. -/
inductive Bound where
  /-- they wait for the stroke's reports -/
  | wait
  /-- the stroke has played -/
  | play
  /-- the stroke was missed, and its drop has passed in the command order -/
  | drop
  deriving DecidableEq, Repr

/-- The drop of the stroke of an arm has passed in the command order (R226). -/
def strokeDropped (s : StringSt) (q : Nat) : Bool := s.plan.strokes.any fun t => t.armSeq == q && t.dropped

/-- The stroke of slot `k` that RTBIND binds to: its arm number, and what becomes of the changes (R216, R226, R235). The slot is ARMED, not
by the calendar (R255); or its stroke, of which all tiles have reported, is the slot's latest (DESIGN CHOICE for a missed one, log
entry 97). -/
def bindTo (s : StringSt) (k : Nat) : Option (Nat × Bound) :=
  let q := s.sh k 1
  if s.slotState k = slARMED then
    if s.slotCal k then none else some (q, if s.strokeDropped q then .drop else .wait)
  else if s.slotState k = slSEALED then
    let head := ((List.range 128).find? fun j => !s.isSuccessor j && (s.chainOf j).contains k).getD k
    let w := s.sh head 8
    if bits w 0 8 = 0 then none
    else if bits w 8 8 = bits w 0 8 then some (q, .play)
    else if s.strokeDropped q || !(s.plan.strokes.any fun t => t.armSeq == q) then some (q, .drop)
    else some (q, .wait)
  else none

/-- RTBIND (R216, R226). The status of a phrase without BARRIER is BUSY before it is NOTOPEN (log entry 97). -/
def rtbind (s : StringSt) (ring : Nat) (barrier : Bool) (k : Nat) : Nat × StringSt :=
  if 128 ≤ k then (sBADVAL, s)
  else if !barrier then (sBUSY, s)
  else
    match (match s.flight ring with | some f => f.solve | none => none), s.bindTo k with
    | some v, some (q, b) =>
      let s := s.updFlight ring fun f => { f with solve := none }
      let s := { s with rte := { s.rte with pend := s.rte.pend ++ [(⟨k, q, v.cells, v.ins, v.outs, v.ents⟩ : RtPend)] } }
      let s := s.refuture (v.cells.map (·.1)) (v.ins.map (·.1)) (v.outs.map (·.1))
      (sOK, match b with | .wait => s | .play => s.settlePend q true | .drop => s.dropMissed k q)
    | _, _ => (sNOTOPEN, s)

/-- The fabric is quiescent (R120). -/
def quiescent (s : StringSt) : Bool :=
  ((List.range 128).all fun k => decide (s.slotState k = slFREE)) && decide (s.calState = calSTOPPED ∨ s.calState = calLOADED) &&
    s.runningLoops.isEmpty

/-- A port entry, or a cell entry, of an RTSET image has its future equal to its current part and nothing pending (R216). -/
def portSettled (w0 w1 : Nat) : Bool :=
  decide (bits w0 0 11 = bits w0 16 11 ∧ bits w0 15 1 = bits w0 31 1 ∧ bits w1 7 1 = 0)
def cellSettled (w0 : Nat) : Bool := decide (bits w0 0 2 = bits w0 2 2 ∧ bits w0 4 1 = 0)

/-- RTSET (R216). -/
def rtset (s : StringSt) (sec barrier : Bool) (a : Nat) : Nat × StringSt :=
  if !barrier ∨ !s.quiescent ∨ !s.fabValid then (sBUSY, s)
  else if a % 4 ≠ 0 ∨ !s.phraseBuf sec false a 0x28000 then (sBADVAL, s)
  else
    let t := { s.setBytes (inTab 0) (s.bytes a 0x28000) with rte := ⟨[], s.rte.staged, s.rte.contrib, [], s.time, s.rte.moves⟩ }
    let settled := ((List.range 4096).all fun p => portSettled (t.word (inTab p)) (t.word (inTab p + 4))) &&
      (List.range 16384).all fun c => cellSettled (t.word (cellTab c))
    let joined := ((List.range 2048).all fun p => match t.farNow (inTab p) with
        | some q => decide (p < t.fabNin ∧ q < t.fabNout) && (match t.traceOut t.cellState q with
            | some r => r.1 == p | none => false)
        | none => true) &&
      (List.range 2048).all fun q => match t.farNow (outTab q) with
        | some p => decide (p < t.fabNin ∧ q < t.fabNout) && (match t.traceOut t.cellState q with
            | some r => r.1 == p | none => false)
        | none => true
    if settled && joined then (sOK, t.retrace) else (sBADVAL, s)

/-! ## Crosstalk rows (R227, R228, R234) -/

/-- A row image for act `a` (R227). -/
def rowOk (s : StringSt) (a : Nat) (w : List Nat) : Bool :=
  let g := fun i => w.getD i 0
  -- without a VALID descriptor there is no neighbour
  let nb := if s.fabValid then s.nbrsOf a else []
  decide (bits (g 0) 0 14 = a ∧ bits (g 0) 14 2 = 0 ∧ bits (g 0) 21 3 = 0 ∧ bits (g 0) 25 7 = 0 ∧ bits (g 0) 16 5 = nb.length) &&
    decide (bits (g 1) 15 17 = 0) && (upFrom 3 5).all (fun i => decide (g i = 0)) &&
    (List.range 24).all fun k => if k < nb.length then decide (bits (g (8 + k)) 0 16 = nb.getD k 0) else decide (g (8 + k) = 0)

/-- The first `n` free places of XTLOAD staging. -/
def freePlaces (s : StringSt) (n : Nat) : List Nat := ((List.range 1024).filter fun p => !s.rte.staged.contains p).take n

/-- XTLOAD (R228). -/
def xtload (s : StringSt) (sec : Bool) (i : Nat) (g : Nat → Nat) : Nat × StringSt :=
  if g 4 % 128 ≠ 0 ∨ g 5 < 1 ∨ 256 < g 5 ∨ 16384 < g 3 + g 5 ∨ !s.phraseBuf sec false (g 4) (128 * g 5) ∨
      !((List.range (g 5)).all fun n => s.rowOk (g 3 + n) (s.words (g 4 + 128 * n) 32)) then (sBADVAL, s)
  else if !s.fabValid ∨ 1024 < s.rte.staged.length + g 5 then (sBUSY, s)
  else
    let rows := (s.freePlaces (g 5)).zipIdx.map fun e => (g 3 + e.2, e.1, s.words (g 4 + 128 * e.2) 32)
    let s := rows.foldl (fun s r => s.setWords (0x00DA8000 + 128 * r.2.1) r.2.2) s
    let s := { s with rte := { s.rte with staged := rows.foldl (fun l (r : Nat × Nat × List Nat) => setIns l r.2.1) s.rte.staged } }
    (sOK, s.bindEff i (.rows rows))

/-- Staged rows enter the matrix at their effect frame `e`; what is bound to an earlier frame uses the rows before (R228, R235). -/
def applyRows (s : StringSt) (e : Nat) (rows : List (Nat × Nat × List Nat)) : StringSt :=
  let s := rows.foldl (fun s r => s.setWords (xtRow r.1) r.2.2) (s.xtFlush e)
  { s with rte := { s.rte with staged := rows.foldl (fun l r => setDel l r.2.1) s.rte.staged } }

abbrev accAddr (i k : Nat) : Nat := 0x00E18000 + 192 * i + 8 * k

/-- A proposed coefficient (R234). With no sample at all the quotient is open (log entry 2). -/
def propose (s : StringSt) (c sumr : Int) (n : Nat) : Nat × StringSt :=
  if n < s.fld Reg.XT_CFG F.XT_CFG.NMIN then (wrap 16 c, s)
  else if n = 0 then s.draw 65536
  else (wrap 16 (satS 16 (c + rheDiv sumr n)), s)

/-- XTPROP (R234). -/
def xtprop (s : StringSt) (sec : Bool) (g : Nat → Nat) : Nat × StringSt :=
  let n := s.fld Reg.XT_MSEL F.XT_MSEL.COUNT
  if g 4 < 1 ∨ 256 < g 4 ∨ n < g 3 + g 4 ∨ g 5 % 128 ≠ 0 ∨ !s.phraseBuf sec true (g 5) (128 * g 4) then (sBADVAL, s)
  else (sOK, (List.range (g 4)).foldl (fun s j =>
    let i := g 3 + j
    let a := s.fld Reg.XT_MSEL F.XT_MSEL.FIRST + i
    let out := g 5 + 128 * j
    let row := s.words (xtRow a) 32
    let s := s.setWords out row
    let s := match Tab.get (fun _ => 0) s.rte.contrib i with
      | 0 => s
      | t => s.setWord (out + 8) (t % 4294967296)
    (List.range (min 24 (bits (row.getD 0 0) 16 5))).foldl (fun s k =>
      let w := row.getD (8 + k) 0
      let v := s.propose (sx 16 (bits w 16 16)) (sx 32 (s.word (accAddr i k))) (bits (s.word (accAddr i k + 4)) 0 16)
      v.2.setWord (out + 32 + 4 * k) (bits w 0 16 + 65536 * v.1)) s) s)

/-- A store to XT_MSEL (R233, R237). -/
def storeMsel (s : StringSt) (v : Nat) : StringSt :=
  let first := bits v 0 14
  let cnt := min (bits v 16 13) (min 4096 (16384 - first))
  let s := s.wr Reg.XT_MSEL (first + 65536 * cnt)
  { s.zero 0x00E18000 (192 * cnt) with rte := { s.rte with contrib := [] } }

/-! ## Measuring the matrix (R233) -/

/-- The frames of a window, oldest first, follow each other without a gap from one at or before its start to its end: each starts where the
one before ends. -/
def gapless (hi : Nat) : Nat → List LoopSmp → Bool
  | e, [] => decide (hi ≤ e)
  | e, q :: l => decide (q.t ≤ e) && gapless hi (q.t + q.per) l

/-- The mean of rhe(ACC, 16) over a loop's frames in a window, as a sum and a count; none where the loop was not in RUN throughout or had
an invalid frame. -/
def windowMean (s : StringSt) (a lo hi : Nat) : Option (Int × Int) :=
  let l := s.framesIn a lo hi
  let start := match (Tab.get (fun _ => []) s.eng.logs a).find? fun q => decide (q.t < lo) with
    | some q => if q.run then q.t + q.per else lo
    | none => lo
  if l.isEmpty ∨ l.any (fun q => q.invalid || !q.run) ∨ !gapless hi start l then none
  else some ((l.map fun q => rhe (q.acc : Int) 16).sum, (l.length : Int))

/-- One term of one selected row in a stroke; the answer says whether it added to the accumulator (R233). -/
def accTerm (s : StringSt) (k : Stroke) (i a j : Nat) (e : StrokeEnt) (p0 : Nat) (alone : Bool) : StringSt × Bool :=
  let dp : Int := (e.p1 : Int) - (p0 : Int)
  let w1 := s.word (accAddr i j + 4)
  let rej := (s.setWord (accAddr i j + 4) (putBits w1 16 16 (satInc 65535 (bits w1 16 16))), false)
  match s.windowMean a (k.ts - sweepT) k.ts, s.windowMean a (e.te + 2 * msT) (e.te + 2 * msT + sweepT) with
  | some (s0, n0), some (s1, n1) =>
    if !alone ∨ dp.natAbs < s.fld Reg.XT_CFG F.XT_CFG.MINSTEP then rej
    else
      let num := 65536 * (s1 * n0 - s0 * n1)
      let den := n0 * n1 * dp
      -- a mover that moves by nothing gives no stated quotient (log entry 2)
      let q : Int × StringSt := if den = 0 then (sx 32 (s.draw 4294967296).1, (s.draw 4294967296).2)
        else (if den < 0 then rheDiv (-num) den.natAbs else rheDiv num den.natAbs, s)
      let v := q.2.servoWord (sx 32 (q.2.word (accAddr i j)) + q.1)
      ((v.2.setWord (accAddr i j) v.1).setWord (accAddr i j + 4) (putBits w1 0 16 (satInc 65535 (bits w1 0 16))), true)
  | _, _ => rej

/-- A played stroke accumulates into the selected rows (R233). -/
def accumulate (s : StringSt) (k : Stroke) : StringSt :=
  let first := s.fld Reg.XT_MSEL F.XT_MSEL.FIRST
  let r := (List.range (s.fld Reg.XT_MSEL F.XT_MSEL.COUNT)).foldl (fun (v : StringSt × Bool) i =>
    let a := first + i
    let terms := v.1.rowTerms a
    let moving := terms.zipIdx.filterMap fun q => (k.ents.find? fun e => e.act == q.1.1).map fun e => (q.2, e)
    let self := k.ents.any fun e => e.act == a
    moving.foldl (fun (v : StringSt × Bool) m =>
      let p0 := match k.p0s.find? fun e => e.1 == m.2.act with | some e => e.2 | none => m.2.p1
      let u := v.1.accTerm k i a m.1 m.2 p0 (!self && decide (moving.length = 1))
      if u.2 then
        ({ u.1 with rte := { u.1.rte with contrib := Tab.set (fun _ => 0) u.1.rte.contrib i (secOf k.ts) } }, true)
      else (u.1, v.2)) v) (s, false)
  if r.2 then r.1.addSat Reg.XT_MSTAT F.XT_MSTAT.STROKES 1 else r.1.addSat Reg.XT_MSTAT F.XT_MSTAT.REJECT 1

/-- XT_ACCUMULATE: the played strokes whose windows have passed, each once (R233). -/
def accumulateDue (s : StringSt) : StringSt :=
  s.plan.strokes.foldl (fun s k =>
    if !k.past || k.withdrawn || k.xtDone || decide (s.time < State.windowsEnd k) then s
    else
      let s := s.updStroke k.armSeq fun q => { q with xtDone := true }
      if k.missed = 0 then s.accumulate k else s) s

end StringSt

/-! ## Commands -/

/-- XT_SNAPSHOT (R230). -/
def execXtSnapshot (x : Str) (t : Nat) (s : State) : Out := .next ((s.advance t).updStr x StringSt.snapshot)

/-- FF_FRAME (R231). -/
def execFfFrame (x : Str) (t : Nat) (s : State) : Out := .next ((s.advance t).updStr x StringSt.ffFrame)

/-- XT_ACCUMULATE (R233). -/
def execXtAccumulate (x : Str) (t : Nat) (s : State) : Out := .next ((s.advance t).updStr x StringSt.accumulateDue)

/-- XT_MSEL_WRITE (R233). -/
def execXtMselWrite (x : Str) (v : Word) (s : State) : Out := .next (s.updStr x fun c => c.storeMsel v.toNat)

end Sys2Proof.Machine
end

