-- ==== Sys2Proof/Machine/Power.lean ====
section
/-! DEFINITION. Supply, power states, the thermal throttle, the adaptive core rail and the margin planner
(17_power_thermal_ageing.md R379 to R402), and the housekeeping ADC (06_pickups_adc.md R167, R168). -/

namespace Sys2Proof.Machine

/-- A temperature of `c` degrees in 1/128 degree. -/
abbrev degT (c : Nat) : Int := ((128 * c : Nat) : Int)

namespace StringSt

/-! ## The housekeeping ADC (R167, R168) -/

/-- Some conversion of the span of `d` from `t` on is made while HKA_STAT.SETTLED is 0 (R168). -/
def hkaUnsettled (s : StringSt) (t d : Nat) : Bool :=
  s.pwr.hkaSpans.any fun p => decide (p.1 < t + d) && (match p.2 with | some e => decide (t < e) | none => true)

/-- The mean of the `n` conversions of channel `i`, whose inputs in VALUE's unit sum to `sum`, as VALUE and OVR: an input beyond the range
saturates, a negative VIN reads 0 (R167). How a mean that is no whole number rounds is open: `up`, a free value, is 0 for the one below and 1
for the one above (log entry 2). -/
def hkaMean (i n up : Nat) (sum : Int) : Nat × Bool :=
  let lo : Int := if i = 9 then -32768 else 0
  let hi : Int := if i = 9 then 32767 else 65535
  let m : Int := sum / (n : Int) + (if sum % (n : Int) = 0 then 0 else (up : Int))
  (wrap 16 (clampI lo hi m), decide (sum < lo * n ∨ hi * n < sum))

/-- A scan completes; each result is the mean of 2^AVG conversions of 2 us, in index order (R167). `sums i`: the inputs of the conversions of
channel `i`, added up, in the unit of its VALUE; `refBad`: HKREF is outside its window (R168). -/
def hkaScan (s : StringSt) (sums : Nat → Int) (refBad : Bool) : StringSt :=
  let en := s.fld Reg.HKA_CFG F.HKA_CFG.EN
  let each := 2 * usT * 2 ^ s.fld Reg.HKA_CFG F.HKA_CFG.AVG
  let on := (List.range 12).filter fun i => bit en i
  let bad := refBad && decide (s.fld Reg.HKA_CFG F.HKA_CFG.REF = 1)
  let s := { s with pwr := { s.pwr with refBad := refBad } }.setFld Reg.HKA_STAT F.HKA_STAT.REFFAIL (b2n bad)
  let s := (List.range 12).foldl (fun (s : StringSt) i =>
    let o := Reg.HKA_RES i
    if bit en i then
      let d := s.draw 2
      let v := hkaMean i (2 ^ s.fld Reg.HKA_CFG F.HKA_CFG.AVG) d.1 (sums i)
      d.2.wr o (v.1 + 65536 * b2n (bad || s.hkaUnsettled (s.time + each * on.idxOf i - each * on.length) each) + 131072 * b2n v.2)
    else s.setFld o F.HKA_RES.STALE 1) s
  let s := s.addMod Reg.HKA_STAT F.HKA_STAT.SCANS 1
  if bit en 0 then
    let v := s.fld (Reg.HKA_RES 0) F.HKA_RES.VALUE
    let s := s.setFld Reg.PWR_VIN F.PWR_VIN.MIN (min v (s.fld Reg.PWR_VIN F.PWR_VIN.MIN))
    let s := s.setFld Reg.PWR_VIN F.PWR_VIN.MAX (max v (s.fld Reg.PWR_VIN F.PWR_VIN.MAX))
    -- 36 V to 75 V in 2 mV
    let inside := decide (18000 ≤ v ∧ v ≤ 37500)
    let s := { s with pwr := { s.pwr with
      vinOut := if inside then none else some (s.pwr.vinOut.getD s.time)
      vinIn := if inside then some (s.pwr.vinIn.getD s.time) else none } }
    let back := match s.pwr.vinIn with | some t => decide (t + msT ≤ s.time) | none => false
    if back then (s.live 26 false).setFld Reg.PWR_STAT F.PWR_STAT.VINOK 1 else s
  else s

/-- A span with SETTLED at 0 begins, or goes on; spans that ended before any scan that still runs can have begun (3.1 ms) are forgotten. -/
def hkaUnsettle (s : StringSt) : StringSt :=
  let l := s.pwr.hkaSpans.filter fun p => match p.2 with | some e => decide (s.time ≤ e + 4 * msT) | none => true
  let open_ := l.any fun p => p.2.isNone
  { s.setFld Reg.HKA_STAT F.HKA_STAT.SETTLED 0 with pwr := { s.pwr with hkaSpans := if open_ then l else (s.time, none) :: l } }

/-- The settle time of the reference has passed (R168). -/
def hkaSettle (s : StringSt) : StringSt :=
  { s.setFld Reg.HKA_STAT F.HKA_STAT.SETTLED 1 with pwr := { s.pwr with
    hkaSpans := s.pwr.hkaSpans.map fun p => (p.1, some (p.2.getD s.time)) } }

/-- A store to HKA_CFG: a change of REF starts the settle time of the new reference; REFFAIL follows REF (R168). -/
def storeHka (s : StringSt) (v : Nat) : StringSt :=
  let old := s.fld Reg.HKA_CFG F.HKA_CFG.REF % 3
  let s := s.wr Reg.HKA_CFG (bits v 0 5 + 65536 * bits v 16 12)
  let s := s.setFld Reg.HKA_STAT F.HKA_STAT.REFFAIL (b2n (s.pwr.refBad && decide (bits v 0 2 = 1)))
  if bits v 0 2 % 3 = old then s else s.hkaUnsettle

/-- VIN has been out of range in every scan for 1 ms (R380). -/
def vinFault (s : StringSt) : StringSt :=
  match s.pwr.vinOut with
  | some t =>
    if t + msT ≤ s.time ∧ s.flag Reg.PWR_STAT F.PWR_STAT.VINOK = true then
      (s.setFld Reg.PWR_STAT F.PWR_STAT.VINOK 0).occurLive 26 (s.rd (Reg.HKA_RES 0))
    else s
  | none => s

/-- A rail out of its window, or back within it (R381): `ch` its HKA channel. -/
def railFault (s : StringSt) (ch : Nat) (out : Bool) : StringSt :=
  if out then (s.markFlag 4).occurLive 27 ch else s.live 27 false

/-- A periodic happening `k` of period `per` is due: one stands for the latest whole multiple of the period, once (R384, R392, R395; log
entry 108). -/
def tick (s : StringSt) (k per : Nat) : Option StringSt :=
  let n := s.time / per + 1
  if Tab.get (fun _ => 0) s.pwr.ticks k = n then none
  else some { s with pwr := { s.pwr with ticks := Tab.set (fun _ => 0) s.pwr.ticks k n } }

/-! ## Sensors and throttle (R391 to R393) -/

def sensor (s : StringSt) (i : Nat) : Int := sx 16 (s.rd (Reg.THM_SENS i))

/-- A conversion of sensor `i` (R391). -/
def convert (s : StringSt) (i v : Nat) : StringSt :=
  let s := s.setFld (Reg.THM_SENS i) F.THM_SENS.TEMP v
  let t := sx 16 v
  let p := sx 16 (s.rd Reg.THM_PEAK)
  let s := if p < t then s.setFld Reg.THM_PEAK F.THM_PEAK.PEAK v else s
  { s with pwr := { s.pwr with hottest := some (match s.pwr.hottest with | some h => max h t | none => t) } }

/-- RISE of every sensor at a tick (R391); at the first tick there is no earlier reading and RISE stays as it is. -/
def rises (s : StringSt) : StringSt :=
  let s := (List.range 64).foldl (fun s i =>
    match Tab.get (fun _ => none) s.pwr.last i with
    | some (l : Nat) => s.setFld (Reg.THM_SENS i) F.THM_SENS.RISE (wrap 16 (s.sensor i - sx 16 l))
    | none => s) s
  { s with pwr := { s.pwr with last := (List.range 64).map fun i => (i, some (bits (s.rd (Reg.THM_SENS i)) 0 16)) } }

/-- The module condition M: level, rate and stage parts (R392); `stg` the stage's temperature. -/
def moduleCond (s : StringSt) (stg : Int) : StringSt × Bool :=
  let lvl := s.fld Reg.THM_LVL F.THM_LVL.SLVL
  let hyst := s.fld Reg.THM_CFG F.THM_CFG.HYST
  let hold := fun (was : Bool) (t : Int) (l : Nat) => decide (degT l ≤ t) || (was && decide (degT l - degT hyst ≤ t))
  let held := (List.range 64).filter fun i => hold (s.pwr.lvl.contains i) (s.sensor i) lvl
  let stage := hold s.pwr.stgLvl stg (s.fld Reg.THM_LVL F.THM_LVL.PLVL)
  let ror := (List.range 64).any fun i =>
    decide (((8 * s.fld Reg.THM_CFG F.THM_CFG.ROR : Nat) : Int) ≤ sx 16 (s.fld (Reg.THM_SENS i) F.THM_SENS.RISE))
  let hot := (List.range 64).foldl (fun h i => if s.sensor h < s.sensor i then i else h) 0
  let s := { s with pwr := { s.pwr with lvl := held, stgLvl := stage } }
  let s := s.wr Reg.THM_STAT (b2n (!held.isEmpty) + 2 * b2n ror + 4 * b2n stage + 16 * hot + 65536 * wrap 16 (s.sensor hot))
  (s, !held.isEmpty || ror || stage)

end StringSt

/-- TOVER of a tile (R392). -/
def TileSt.tover (d : TileSt) : Bool :=
  let lim := bits d.tres 0 24
  (List.range 8).any fun t =>
    bit (d.fld Reg.TILE_THMEN F.TILE_THMEN.EN) t && bit d.tmask t &&
      (let r := d.fld (Reg.TILE_THM t) F.TILE_THM.RES
       if bit d.tres 24 then decide (lim ≤ r) else decide (r ≤ lim))

namespace State

/-- One evaluation of the throttle of string `x`, which is `c` (R392, R393). -/
def throttle (s : State) (x : Str) (c : StringSt) : State :=
  let c := c.rises
  let r := c.moduleCond (sx 16 s.stage.temp)
  let c := r.1
  let on := c.flag Reg.THM_CFG F.THM_CFG.EN
  let v := (List.range 8).foldl (fun (v : StringSt × Nat × Nat) n =>
    let c := v.1
    let past := (s.tile n).tover
    let cond := r.2 || (c.flag (Reg.THM_TRES n) F.THM_TRES.EN && past)
    let f := c.fld (Reg.THM_TILE n) F.THM_TILE.F
    let q := Tab.get (fun _ => 0) c.pwr.quiet n
    let (f1, q1) :=
      if !on then (16, 0)
      else if cond then (max (f - 1) (c.fld Reg.THM_CFG F.THM_CFG.FMIN), 0)
      else if max 1 (c.fld Reg.THM_CFG F.THM_CFG.RELMS) ≤ q + 1 then (min (f + 1) 16, 0)
      else (f, q + 1)
    let c := { c with pwr := { c.pwr with quiet := Tab.set (fun _ => 0) c.pwr.quiet n q1 } }
    let o := Reg.THM_TILE n
    let c := ((c.setFld o F.THM_TILE.F f1).setFld o F.THM_TILE.TOVER (b2n past)).setFld o F.THM_TILE.COND (b2n cond)
    let c := if f1 < f then c.addSat o F.THM_TILE.DOWNS 1 else c
    (c, (if f1 < f then v.2.1 + 2 ^ n else v.2.1), if f1 = f then v.2.2 else v.2.2 + 2 ^ n)) (c, 0, 0)
  let c := if v.2.1 = 0 then v.1 else v.1.occur 28 v.2.1
  let c := if v.2.2 = 0 then c else c.fire 168
  let s := s.setStr x c
  s.eachTile fun n s =>
    let d := s.tile n
    if d.capo = some x ∧ d.hold = false then s.setTile n { d with throttle := c.fld (Reg.THM_TILE n) F.THM_TILE.F } else s

/-- THROTTLE_TICK of string `x`: once for each whole millisecond of TAI (R391, R392). -/
def throttleTick (s : State) (x : Str) : State :=
  match (s.str x).tick 0 msT with
  | some c => s.throttle x c
  | none => s

/-- THM_TRES and THM_TMASK of tile `n` from the THM records and TLVL (R392). -/
def thmSettings (c : StringSt) (n : Nat) : StringSt :=
  let ty := fun t => bits (c.thmW (8 * n + t) 0) 0 8
  let nom := fun t => bits (c.thmW (8 * n + t) 0) 16 16
  let coef := fun t => bits (c.thmW (8 * n + t) 1) 0 16
  match if c.fabValid then (List.range 8).find? fun t => decide (ty t ≠ 0) else none with
  | none => (c.setFld (Reg.THM_TRES n) F.THM_TRES.EN 0).setFld (Reg.THM_TMASK n) F.THM_TMASK.MASK 0
  | some r =>
    let mask := (List.range 8).foldl (fun v t => if ty t = ty r ∧ nom t = nom r ∧ coef t = coef r then v + 2 ^ t else v) 0
    let lv : Int := ((c.fld Reg.THM_LVL F.THM_LVL.TLVL : Nat) : Int)
    let res : Int := if ty r = 1 then
        let e := fxExp ((coef r : Int) * (25 - lv) * 10000 * fxOne / ((100 * lv + 27315) * 29815))
        fxRound (((16 * nom r : Nat) : Int) * e)
      else rheDiv (((16 * nom r : Nat) : Int) * (1000000 + (coef r : Int) * (lv - 25))) 1000000
    let v : Nat × StringSt := if 0 ≤ res ∧ res < 16777216 then (res.toNat, c) else c.draw 16777216
    (v.2.wr (Reg.THM_TRES n) (v.1 + 16777216 * b2n (decide (ty r ≠ 1)) + 33554432)).wr (Reg.THM_TMASK n) mask

/-- String `x` sends tile `n` its threshold and mask, where it holds the line there (R392). -/
def sendThm (s : State) (x : Str) (n : Nat) : State :=
  if s.capo = some x then
    s.updTile n fun d => { d with tres := (s.str x).rd (Reg.THM_TRES n), tmask := (s.str x).rd (Reg.THM_TMASK n) }
  else s

/-- Firmware sets the thresholds of every tile (R392). -/
def setThresholds (s : State) (x : Str) : State :=
  let s := s.updStr x fun c => (List.range 8).foldl thmSettings c
  s.eachTile fun n s => s.sendThm x n

/-! ## The power stage (R379, R385, R394) -/

/-- VHTR and VACT go on or off in every tile. -/
def setDrive (s : State) (on : Bool) : State :=
  ({ s with stage := { s.stage with drive := on } }).eachTile fun n s => s.updTile n fun d => d.setVhtr on

/-- POWER_STAGE_FAULT: the stage reports its conditions and status code to both strings (R385); with none of them LIVE of source 30
ends. TRIP is that of R394. A message with a bad check on a string's control link, a bit of `bad`, is counted there and nothing else (R450). -/
def stageFault (s : State) (st bad : Nat) : State :=
  s.updBoth fun c =>
    if bit bad c.id.idx then c.addSat Reg.PSTG_LINK F.PSTG_LINK.VAL 1 else
    let w := putBit (bits st 0 16) 2 (c.flag Reg.PWR_STAGE F.PWR_STAGE.TRIP)
    let w := putBits w 5 3 0
    let c := c.wr Reg.PWR_STAGE (putBits (c.rd Reg.PWR_STAGE) 0 16 w)
    if bits w 0 5 = 0 then c.live 30 false
    else (c.addSat Reg.PWR_STAGE F.PWR_STAGE.FAULTS 1).occurLive 30 w

/-- A sensor of either string, or the stage, is at or above a level. -/
def hotAt (s : State) (sens stg : Nat) : Bool :=
  decide (degT stg ≤ sx 16 s.stage.temp) ||
    (List.range 64).any fun i => decide (degT sens ≤ s.a.sensor i) || decide (degT sens ≤ s.b.sensor i)

/-- THERMAL_TRIP (R394). -/
def thermalTrip (s : State) : State :=
  if s.hotAt 160 140 ∧ s.stage.drive = true then
    (s.setDrive false).updBoth fun c =>
      let c := (c.setFld Reg.PWR_STAGE F.PWR_STAGE.TRIP 1).setFld Reg.PWR_STAT F.PWR_STAT.TRIP 1
      (c.addSat Reg.PWR_STAGE F.PWR_STAGE.FAULTS 1).occurLive 30 (bits (c.rd Reg.PWR_STAGE) 0 16)
  else s

/-- PWR_CTL_RAILON (R394). -/
def railOn (s : State) : State :=
  if s.a.flag Reg.PWR_STAT F.PWR_STAT.TRIP && !s.hotAt 130 120 then
    (s.setDrive true).updBoth fun c =>
      let c := (c.setFld Reg.PWR_STAGE F.PWR_STAGE.TRIP 0).setFld Reg.PWR_STAT F.PWR_STAT.TRIP 0
      if bits (c.rd Reg.PWR_STAGE) 0 5 = 0 then c.live 30 false else c
  else s

/-! ## The adaptive core rail (R384) -/

/-- The lowest measured rate over the engines that work, in M MAC/s. -/
def lowRate (c : StringSt) : Option Nat :=
  (List.range 36).foldl (fun (m : Option Nat) e =>
    let r := c.fld (Reg.ENG_LAT e) F.ENG_LAT.RATE
    if (c.role_ e = 0 ∨ (c.role_ e = 1 ∧ (c.blocksOf e).isEmpty = false)) ∧ r ≠ 0 then
      some (match m with | some v => min v r | none => r)
    else m) none

/-- The set-point of rail `k` (0 the controller's own string, 1 its partner) from a rate, and since when the rate is high. -/
def railStep (c : StringSt) (k v : Nat) (r : Option Nat) : StringSt × Nat × Bool :=
  let g := c.fld Reg.PWR_CFG F.PWR_CFG.GUARD
  let high := match r with | some r => decide (340 * (100 + 2 * g) < 100 * r) | none => false
  let low := match r with | some r => decide (100 * r < 340 * (100 + g)) | none => false
  let since := Tab.get (fun _ => none) c.pwr.highAt k
  let c := { c with pwr := { c.pwr with
    highAt := Tab.set (fun _ => none) c.pwr.highAt k (if high then some (since.getD c.time) else none) } }
  let long := match since with | some t => high && decide (t + 100 * msT ≤ c.time) | none => false
  if r.isNone ∨ c.flag Reg.PWR_CFG F.PWR_CFG.AVSEN = false then (c, 800, low)
  else if low then (c, min 800 (v + 5), decide (795 ≤ v))
  else if long then (c, max 700 (v - 5), false)
  else (c, v, false)

/-- The capo string `x`, which is `c`, sets both core rails (R384). -/
def setRails (s : State) (x : Str) (c : StringSt) : State :=
  let p := s.str x.other
  let c := if c.brgUp then { c with pwr := { c.pwr with partR := some (lowRate p, c.time) } } else c
  let pr := match c.pwr.partR with
    | some (r, t) => if c.time < t + 10 * msT then r else none
    | none => none
  let a := railStep c 0 (c.fld Reg.PWR_AVS F.PWR_AVS.OWN) (lowRate c)
  let b := railStep a.1 1 (c.fld Reg.PWR_AVS F.PWR_AVS.PART) pr
  let put := fun (c : StringSt) (own part : Nat) (ceil : Bool) => c.wr Reg.PWR_AVS (own + 65536 * part + 67108864 * b2n ceil)
  (s.setStr x (put b.1 a.2.1 b.2.1 a.2.2)).updStr x.other fun p => put p b.2.1 a.2.1 b.2.2

/-- AVS_TICK, once a millisecond; with both strings silent nothing changes (R384). -/
def avsTick (s : State) : State :=
  match s.capo with
  | none => s
  | some x => match (s.str x).tick 1 msT with
    | some c => s.setRails x c
    | none => s

/-! ## Power states (R386 to R390) -/

/-- Domains of a string on or off by a test on the local index (R36). -/
def powerDomains (c : StringSt) (on : Nat → Bool) : StringSt :=
  (List.range 65).foldl (fun c i =>
    let o := Reg.PWR_SDOM (i / 32)
    c.wr o (putBit (c.rd o) (i % 32) (on i))) c

/-- PWR_TDOM follows the tiles' domains (R400). -/
def showTiles (s : State) : State :=
  let w := (List.range 8).foldl (fun v n => v + bits (s.tile n).power 0 7 * 2 ^ (7 * n)) 0
  s.updBoth fun c => (c.wr (Reg.PWR_TDOM 0) (w % 4294967296)).wr (Reg.PWR_TDOM 1) (w / 4294967296)

/-- The module enters a power state (R388, R389); `g` the sequence number of the requesting phrase. -/
def enterPower (s : State) (st g : Nat) : State :=
  let old := s.a.fld Reg.PWR_STAT F.PWR_STAT.STATE
  let s := s.updBoth fun c => c.setFld Reg.PWR_STAT F.PWR_STAT.STATE st
  if st = 1 then
    (s.updBoth fun c => c.powerEngines false).eachTile fun n s => s.updTile n fun d => { d with pwrHold := true }.restartAll
  else if st = 0 then
    -- from HOLD: jobs start over at the next frame
    let s := s.updBoth fun c =>
      let c := c.powerEngines true
      if old = 1 then c.freshJobs else c
    s.eachTile fun n s => s.updTile n fun d => { d with pwrHold := false }.restartAll
  else
    let s := s.updBoth fun c => { c with pwr := { c.pwr with dorm := some g } }
    (s.eachTile fun n s => s.updTile n fun d =>
      { d with
        chans := (d.chans.map fun (e : Nat × Chan) => (e.1, { e.2 with enable := false })).filter fun e => decide (e.2 ≠ Chan.cold)
        power := 1 }).showTiles

/-- The request of a phrase is judged at its effect frame by the active string `x` (R387). -/
def judgePower (s : State) (x : Str) (v g : Nat) : State :=
  let c := s.str x
  let step := c.fld Reg.RED_JOIN F.RED_JOIN.STEP
  let refused := decide (v = 3) || decide (1 ≤ step ∧ step ≤ 14) ||
    (decide (v = 1 ∨ v = 2) && ((List.range 128).any (fun k => decide (c.slotState k = slARMED)) || decide (calRUNNING ≤ c.calState)))
  let s := s.updBoth fun c => c.setFld Reg.PWR_STAT F.PWR_STAT.PEND 0
  if refused then s.updBoth fun c =>
    let c := c.setFld Reg.PWR_STAT F.PWR_STAT.REFUSED 1
    -- engines that a refused request for RUN powered are off in HOLD (R390)
    if c.fld Reg.PWR_STAT F.PWR_STAT.STATE = 1 then c.powerEngines false else c
  else if v = c.fld Reg.PWR_STAT F.PWR_STAT.STATE then s
  else s.enterPower v g

/-- The strings power down once the record of the requesting phrase is posted (R389); the heartbeat stops counting (R374). -/
def goDormant (s : State) (x : Str) : State :=
  let one := fun (c : StringSt) =>
    let c := powerDomains c fun i => i == 0 || i == 60 || i == 62 || (i == 59 && c.flag Reg.PWR_CFG F.PWR_CFG.DPCIE)
    -- a mailbox's message goes with its receiver's domain (15_events_mailboxes.md R360)
    let c := (List.range 16).foldl (fun (c : StringSt) k => if c.mbxFull k && !c.domOn (c.mbxDom k) then c.mbxDiscard k else c) c
    let c := { c with
      pwr := { c.pwr with dorm := none }
      alv := { c.alv with suspended := true } }
    (List.range 4).foldl (fun c i => c.updCore i fun k => { k with run := .notReleased }) c
  if (s.str x).pwr.dorm.isSome then s.updBoth one else s

/-- The wake sources that stand in a string and are enabled there (R389). -/
def wakeSources (c : StringSt) : Nat :=
  let due := instant (secOf c.time / 4294967296 * 4294967296 + c.rd Reg.PWR_WAKESL) (c.rd Reg.PWR_WAKENS) 0
  let timed := decide (c.rd Reg.PWR_WAKESL ≠ 0 ∨ c.rd Reg.PWR_WAKENS ≠ 0) && decide (due ≤ c.time)
  (b2n c.evf.wakeReq + 2 * b2n timed + 4 * b2n c.evf.hostWake) &&& c.fld Reg.PWR_CFG F.PWR_CFG.WAKEEN

/-! ## The margin planner (R395 to R398) -/

/-- Engines credited: working, or spare with blocks (R395). -/
def credited (c : StringSt) (e : Nat) : Bool :=
  decide (c.role_ e = 0) || (decide (c.role_ e = 1) && !(c.blocksOf e).isEmpty)

/-- c_e in M MAC/s (R395). -/
def engRate (c : StringSt) (e : Nat) : Nat :=
  min 340 (min (c.fld (Reg.ENG_LAT e) F.ENG_LAT.RMIN) (c.fld (Reg.ENG_LAT e) F.ENG_LAT.RATE))

/-- Work of a block in MAC/s. -/
def blkDemand (c : StringSt) (j : Nat) : Nat :=
  (c.blkLoops j).foldl (fun v a => v + 5 * (c.loopCfg a).nsec * (100000 / 2 ^ (c.loopCfg a).rate)) 0

abbrev planTab (a : Nat) : Nat := 0x00F20000 + 8 * a

/-- CLASS, FBRATE, FBSET, LOWERED of loop `a` (R397). -/
def planClass (c : StringSt) (a : Nat) : Nat := bits (c.word (planTab a)) 0 2
def planRate (c : StringSt) (a : Nat) : Nat := bits (c.word (planTab a)) 2 2
def planSet (c : StringSt) (a : Nat) : Nat := bits (c.word (planTab a)) 4 11
def lowered (c : StringSt) (a : Nat) : Bool := bit (c.word (planTab a)) 15

/-- AGEPRIO (R397). -/
def ageprio (c : StringSt) (g : Nat → Nat) : Nat × StringSt :=
  if 16384 < g 3 + g 4 ∨ g 4 = 0 ∨ 32768 ≤ g 5 then (sBADVAL, c)
  else (sOK, (upFrom (g 3) (g 4)).foldl (fun c a => c.setWord (planTab a) (putBits (c.word (planTab a)) 0 15 (g 5))) c)

/-- The fallback of a loop is slower than its rate. -/
def aboveFallback (c : StringSt) (a : Nat) : Bool :=
  c.loopRuns a && !lowered c a && decide (planClass c a ≠ 0) && decide ((c.loopCfg a).rate < planRate c a)

/-- The planner's LOOPSETs in mode 0, as the phrase on ring 3 that carries them has them (R396): bound to the first 100 kHz frame at
least 30 us ahead, in both strings where they are joined. `f` gives RATE and CSET of a loop. -/
def planLoops (s : State) (x : Str) (l : List Nat) (f : StringSt → Nat → Nat × Nat) (mark : StringSt → Nat → StringSt) : State :=
  let c := s.str x
  let e := max (ceilTo frameT (c.time + 30 * usT)) c.ring.lastEff
  let one := fun (c : StringSt) =>
    let effs := l.map fun a =>
      let (r, k) := f c a
      Effect.loop a 0 (putBits (putBits (c.word (loopRec a)) 2 2 r) 8 11 k) (c.word (loopRec a + 4)) (c.word (loopRec a + 8))
        (c.word (loopRec a + 12))
    let c := l.foldl mark c
    ({ c with ring := { c.ring with lastEff := max e c.ring.lastEff } }).bindLoops effs e
  let s := s.updStr x one
  if c.joined then s.updStr x.other one else s

/-- Lowers block `j` (R396). -/
def lowerBlock (s : State) (x : Str) (j : Nat) : State :=
  let l := (upFrom (32 * j) 32).filter (aboveFallback (s.str x))
  s.planLoops x l (fun c a => (planRate c a, planSet c a)) fun c a =>
    (c.setWord (planTab a) (putBit (c.word (planTab a)) 15 true)).setWord (planTab a + 4)
      ((c.loopCfg a).rate + 4 * (c.loopCfg a).cset)

/-- Restores block `j` (R396). -/
def restoreBlock (s : State) (x : Str) (j : Nat) : State :=
  let l := (upFrom (32 * j) 32).filter fun a => lowered (s.str x) a && (s.str x).loopRuns a
  s.planLoops x l (fun c a => (bits (c.word (planTab a + 4)) 0 2, bits (c.word (planTab a + 4)) 2 11)) fun c a =>
    c.setWord (planTab a) (putBit (c.word (planTab a)) 15 false)

/-- A block of an overloaded engine and an engine with room for it (R396). -/
def rebalance (c : StringSt) : Option (Nat × Nat) :=
  let room := fun e => 4000000 * engRate c e * (1000 - c.fld Reg.AGE_CFG F.AGE_CFG.MARGIN)
  (List.range 36).findSome? fun e =>
    if credited c e ∧ room e < 1000 * c.demand e then
      (c.blocksOf e).findSome? fun j =>
        ((List.range 36).find? fun f => decide (f ≠ e) && credited c f && decide (1000 * (c.demand f + blkDemand c j) ≤ room f)).map
          fun f => (j, f)
    else none

/-- Spares that carry no blocks. -/
def freeSpares (c : StringSt) : List Nat :=
  (List.range 36).filter fun e => decide (c.role_ e = 1) && (c.blocksOf e).isEmpty

/-- The engine with the largest demand. -/
def busiest (c : StringSt) : Nat := (List.range 36).foldl (fun m e => if c.demand m < c.demand e then e else m) 0

/-- The action of a run with the margin below MARGIN (R396); every other block of the busiest engine goes to a spare brought in. -/
def actShort (s : State) (x : Str) : State :=
  let c := s.str x
  let bump := fun (c : StringSt) (f : Fld) => c.addSat Reg.AGE_CNT f 1
  match rebalance c with
  | some (j, e) => s.updStr x fun c => bump (c.mapWrite j e) F.AGE_CNT.MOVES
  | none =>
    match freeSpares c with
    | e :: rest =>
      if c.fld Reg.AGE_CFG F.AGE_CFG.KEEPSPARE < rest.length + 1 then
        s.updStr x fun c =>
          let l := (c.blocksOf (busiest c)).zipIdx.filter fun q => decide (q.2 % 2 = 1)
          let c := c.setFld (Reg.ENG_ROLE e) F.ENG_ROLE.ROLE 0
          let c := l.foldl (fun c q => bump (c.mapWrite q.1 e) F.AGE_CNT.MOVES) c
          bump { c with pwr := { c.pwr with spareIn := c.pwr.spareIn ++ [e] } } F.AGE_CNT.SPAREIN
      else lower s
    | [] => lower s
where
  lower (s : State) : State :=
    let c := s.str x
    let pick := if c.flag Reg.AGE_CFG F.AGE_CFG.RATEN ∧ c.holds then
        [3, 2, 1].findSome? fun k => (List.range 512).find? fun j =>
          (upFrom (32 * j) 32).any fun a => aboveFallback c a && decide (planClass c a = k)
      else none
    match pick with
    | some j => (s.lowerBlock x j).updStr x fun c => c.addSat Reg.AGE_CNT F.AGE_CNT.LOWER 1
    | none => s.updStr x fun c => c.setFld Reg.AGE_STAT F.AGE_STAT.EXHAUST 1

/-- The action of a run with the margin above RESTORE (R396). -/
def actRestore (s : State) (x : Str) : State :=
  let c := s.str x
  let pick := if c.holds then
      [1, 2, 3].findSome? fun k => (List.range 512).find? fun j =>
        (upFrom (32 * j) 32).any fun a => lowered c a && c.loopRuns a && decide (planClass c a = k)
    else none
  match pick, c.pwr.spareIn.reverse with
  | some j, _ => (s.restoreBlock x j).updStr x fun c => c.addSat Reg.AGE_CNT F.AGE_CNT.RESTORE 1
  | none, e :: _ =>
    s.updStr x fun c =>
      if (c.blocksOf e).isEmpty then
        { c.setFld (Reg.ENG_ROLE e) F.ENG_ROLE.ROLE 1 with pwr := { c.pwr with spareIn := c.pwr.spareIn.filter fun k => k != e } }
      else
        let dest := (List.range 36).filter fun k => decide (k ≠ e) && decide (c.role_ k = 0) && !c.pwr.spareIn.contains k
        if dest.isEmpty then c
        else (c.blocksOf e).zipIdx.foldl (fun c q =>
          (c.mapWrite q.1 (dest.getD (q.2 % dest.length) 0)).addSat Reg.AGE_CNT F.AGE_CNT.MOVES 1) c
  | none, [] => s

/-- Heater drift in 0.1 %, where the channel is a used current-mode one with a reference (R398). -/
def drift (c : StringSt) (a : Nat) : Option Nat :=
  let rbol := bits (c.word (actRec a + 32)) 0 16
  let res := bits (c.word (actRec a + 20)) 0 16
  let w := c.word (actRec a)
  if bits w 24 8 = 0 ∨ bit w 19 ∨ rbol = 0 ∨ res = 0 then none
  else some (rheDiv (1000 * ((res : Int) - (rbol : Int))) rbol).natAbs

/-- Compliance margin in mV (R398). -/
def compliance (c : StringSt) (a : Nat) : Option Int :=
  let w := c.word (actRec a)
  if bits w 24 8 = 0 ∨ bit w 19 then none
  else some (5800 - (rheSqrt (10 * c.actPsteady a * bits (c.word (actRec a + 20)) 0 16) 64 : Int))

/-- First converged offsets, kept when an offset first converges (R398). -/
def keepFirst (c : StringSt) : StringSt :=
  (List.range 2048).foldl (fun c m =>
    let t := TrimP.of (c.word (trimP m)) (c.word (trimP m + 4))
    if c.word (0x00F40000 + 4 * m) = 0 ∧ ¬ c.pwr.firstZero.contains m ∧ t.ov ∧ 16 ≤ t.on then
      if t.off = 0 then { c with pwr := { c.pwr with firstZero := m :: c.pwr.firstZero } }
      else c.setWord (0x00F40000 + 4 * m) t.off
    else c) c

/-- Dark rise in codes (R398). -/
def darkRise (c : StringSt) (m : Nat) : Option Int :=
  let f := c.word (0x00F40000 + 4 * m)
  if f = 0 ∧ ¬ c.pwr.firstZero.contains m then none else some (((bits (c.word (trimP m)) 0 20 : Int) - f) / 16)

/-- The largest value of a list with the index it has. -/
def largest (l : List (Nat × Int)) : Option (Nat × Int) :=
  l.foldl (fun m e => match m with | some b => if b.2 < e.2 then some e else m | none => some e) none

/-- The health record (R398). -/
def healthRecord (c : StringSt) (cap dem : Nat) (m : Int) : StringSt :=
  let c := keepFirst c
  let acts := List.range 16384
  let dr := acts.filterMap fun a => (drift c a).map fun v => (a, (v : Int))
  let cm := acts.filterMap fun a => (compliance c a).map fun v => (a, v)
  let dk := (List.range 2048).filterMap fun i => (darkRise c i).map fun v => (i, v)
  let thr := fun f => ((c.fld Reg.AGE_THR f : Nat) : Int)
  let low := (acts.filter (lowered c)).length
  let adv := (c.pwr.limitRun.filter fun e => decide (976 ≤ e.2)).length
  let pair := fun (e : Option (Nat × Int)) => match e with | some (i, v) => wrap 16 v + 65536 * i | none => 0
  let wear := (c.wear.map (·.2)).foldl max 0
  let words := [c.word 0x00F10000 + 1, cap / 10 + 65536 * (dem / 10),
    wrap 16 m + 65536 * ((List.range 36).filter (credited c)).length + 4194304 * (freeSpares c).length,
    low + 65536 * adv, c.fld Reg.PWR_AVS F.PWR_AVS.OWN + 65536 * c.fld Reg.PWR_AVS F.PWR_AVS.PART,
    (dr.filter fun e => decide (thr F.AGE_THR.RDTHR < e.2)).length, pair (largest dr),
    (cm.filter fun e => decide (e.2 < 10 * thr F.AGE_THR.CMTHR)).length,
    pair ((largest (cm.map fun e => (e.1, -e.2))).map fun e => (e.1, -e.2)),
    (dk.filter fun e => decide (thr F.AGE_THR.DKTHR < e.2)).length, pair (largest dk),
    wear / 1000, c.peg 0x70000010, wrap 16 (c.pwr.hottest.getD 0), nsOf c.time, secOf c.time]
  let c := c.setWords 0x00F10000 (words.map fun w => w % 4294967296)
  c.wr Reg.AGE_NLOW (low + 65536 * adv)

/-- A run of the margin planner of string `x`, which is `c` (R395 to R398). -/
def plan (s : State) (x : Str) (c : StringSt) : State :=
  let cap := ((List.range 36).filter (credited c)).foldl (fun v e => v + 4 * engRate c e) 0
  let xt := (List.range 16384).foldl (fun v a => if c.rowOn a then v + bits (c.word (xtRow a)) 16 5 else v) 0
  let dem := ((List.range 36).foldl (fun v e => v + c.demand e / 1000000) 0) + xt / 100 + 3300
  -- with no capacity credited the quotient is open (log entry 2)
  let q : Int × StringSt := if cap = 0 then (sx 16 (c.draw 65536).1, (c.draw 65536).2)
    else (rheDiv (1000 * ((cap : Int) - (dem : Int))) cap, c)
  let m := q.1
  let margin : Int := ((c.fld Reg.AGE_CFG F.AGE_CFG.MARGIN : Nat) : Int)
  let restore := max (margin + 10) ((c.fld Reg.AGE_CFG F.AGE_CFG.RESTORE : Nat) : Int)
  let short := decide (1000 * ((cap : Int) - (dem : Int)) < margin * cap)
  let ample := decide (restore * cap < 1000 * ((cap : Int) - (dem : Int)))
  let s := s.setStr x (q.2.setFld Reg.AGE_STAT F.AGE_STAT.EXHAUST 0)
  let s := if short then s.actShort x else if ample then s.actRestore x else s
  s.updStr x fun c =>
    let c := c.wr Reg.AGE_CAP (cap / 10 + 65536 * (dem / 10))
    let c := c.setFld Reg.AGE_STAT F.AGE_STAT.MARGIN (wrap 16 m)
    let c := (c.setFld Reg.AGE_STAT F.AGE_STAT.SPARES c.pwr.spareIn.length).setFld Reg.AGE_STAT F.AGE_STAT.SHORT (b2n short)
    healthRecord c cap dem m

/-- MARGIN_PLANNER_RUN of string `x`: every 100 ms while AGE_CFG.EN is 1 (R395). -/
def plannerRun (s : State) (x : Str) : State :=
  if (s.str x).flag Reg.AGE_CFG F.AGE_CFG.EN then
    match (s.str x).tick 2 (100 * msT) with
    | some c => s.plan x c
    | none => s
  else s

/-- One run of a loop's LIMIT flag at a sweep (R398). -/
def countLimit (c : StringSt) (a flags : Nat) : StringSt :=
  let n := Tab.get (fun _ => 0) c.pwr.limitRun a
  { c with pwr := { c.pwr with
    limitRun := Tab.set (fun _ => 0) c.pwr.limitRun a (if bit flags 6 && c.loopRuns a then satInc 65535 n else 0) } }

end State

/-! ## Commands -/

/-- HKA_SCAN: for each of the twelve channels, in index order, the inputs of its conversions added up in the unit of VALUE (those of channels
that are not enabled are not used), and whether HKREF is out of its window (R167, R168). -/
def execHkaScan (x : Str) (sums : List Int) (refBad : Bool) (t : Nat) (s : State) : Out :=
  if sums.length = 12 then .next ((s.advance t).updStr x fun c => c.hkaScan (fun i => sums.getD i 0) refBad)
  else .fault .malformed

/-- HKA_SETTLED (R168). -/
def execHkaSettled (x : Str) (s : State) : Out :=
  .next (s.updStr x StringSt.hkaSettle)

/-- VIN_OUT_OF_RANGE (R380). -/
def execVinOutOfRange (x : Str) (t : Nat) (s : State) : Out := .next ((s.advance t).updStr x StringSt.vinFault)

/-- RAIL_WINDOW_FAULT: a rail outside its window for 100 us, or back within it (R381). -/
def execRailWindowFault (x : Str) (ch : Fin 16) (out : Bool) (s : State) : Out := .next (s.updStr x fun c => c.railFault ch.val out)

/-- POWER_STAGE_FAULT (R385, R450). -/
def execPowerStageFault (r : StageReport) (s : State) : Out := .next (s.stageFault r.st.toNat r.bad.toNat)

/-- AVS_TICK (R384). -/
def execAvsTick (t : Nat) (s : State) : Out := .next (s.advance t).avsTick

/-- SENSOR_CONVERSION (R391). -/
def execSensorConversion (x : Str) (i : Fin 64) (v : BitVec 16) (s : State) : Out := .next (s.updStr x fun c => c.convert i.val v.toNat)

/-- THROTTLE_TICK, with the power stage's temperature as it reports it (R392, R393). -/
def execThrottleTick (x : Str) (stg : BitVec 16) (t : Nat) (s : State) : Out :=
  let s := s.advance t
  .next ({ s with stage := { s.stage with temp := stg.toNat } }.throttleTick x)

/-- THERMAL_TRIP, with the power stage's temperature as it reports it (R394). -/
def execThermalTrip (stg : BitVec 16) (s : State) : Out :=
  .next ({ s with stage := { s.stage with temp := stg.toNat } }.thermalTrip)

/-- PWR_CTL_RAILON (R394). -/
def execPwrCtlRailon (_x : Str) (s : State) : Out := .next s.railOn

/-- PWR_REQ_WRITE: a store to PWR_REQ by the phrase of core `i` (R387). -/
def execPwrReqWrite (x : Str) (i : Fin 4) (v : Word) (s : State) : Out :=
  .next (if ((s.str x).core i.val).pl = 2 then s.updStr x fun c =>
    ((c.wr Reg.PWR_REQ (bits v.toNat 0 2)).setFld Reg.PWR_STAT F.PWR_STAT.PEND 1).bindEff i.val (.pwrReq (bits v.toNat 0 2)) else s)

/-- MARGIN_PLANNER_RUN (R395 to R398). -/
def execMarginPlannerRun (x : Str) (t : Nat) (s : State) : Out := .next ((s.advance t).plannerRun x)

end Sys2Proof.Machine
end

