-- ==== Sys2Proof/Machine/TileCmds.lean ====
section
/-! DEFINITION. What a string writes to a tile, what a tile reports to the strings, and the commands of a tile (05 to 07, 10):
one command is one happening of tile `n` at true time `t`. -/

namespace Sys2Proof.Machine

/-- The BAR0 offset of a tile register (R149). -/
abbrev tileOff (n o : Nat) : Nat := 0x8000 + 0x1000 * n + o

namespace State

/-! ## From a string to a tile (R21, R453) -/

/-- A store, setting or trim of string `x` that tile `n` does not accept is counted (R21, R453). -/
def discard (s : State) (x : Str) (n : Nat) : State := s.updStr x fun c => c.addSat (Reg.TLK_DISC n) F.TLK_DISC.DISC 1

/-- What string `x` sends is in the command order: it holds the line alone, or it is the joined standby of the string that does, whose
stores and stagings the bridge link carries (R21). With both lines asserted no string is in order (DESIGN CHOICE, log entry 90). -/
def inOrder (s : State) (x : Str) : Bool :=
  s.capo == some x || (s.capo == some x.other && decide ((s.str x).role = rSTANDBY))

/-- As `discard`, but for the standby, whose settings are the active string's own (R21). -/
def refuse (s : State) (x : Str) (n : Nat) : State := if s.inOrder x then s else s.discard x n

/-- The fields of the actuator and pickup records that a store to a register of tile `n` changes, in one string (R148, R164). -/
def recordStore (c : StringSt) (d : TileSt) (n o : Nat) : StringSt :=
  if o = Reg.TILE_MODE ∨ o = Reg.TILE_VLIN then
    (List.range 2048).foldl (fun c i =>
      let a := actRec (2048 * n + i)
      let w := putBit (putBit (c.word a) 19 (d.vmode i)) 20 (d.vlin i)
      (c.setWord a w).setWord (a + 8) (if d.vmode i then 0 else 4 ^ bits w 16 2 * bits (c.word (a + 4)) 0 16)) c
  else if o = Reg.TILE_PBIAS 0 ∨ o = Reg.TILE_PBIAS 1 then
    let b := (o - Reg.TILE_PBIAS 0) / 4
    (upFrom (128 * b) 128).foldl (fun c i =>
      let a := monRec (256 * n + i) + 4
      c.setWord a (putBits (c.word a) 8 8 (d.fld o F.TILE_PBIAS.CODE))) c
  else c

/-- A store of string `x` to a register of tile `n`: the string keeps what it last bound (R453); the tile takes it from the string
that holds the line alone (R21), and the records of that string and of its standby follow (R148, R164). The standby's own copy of a phrase's
store is the active string's store, and is not a second. -/
def tileStore (s : State) (x : Str) (n o v : Nat) (phrase : Bool) : State :=
  let s := s.updStr x fun c => c.wr (tileOff n o) (storeFields (TileSt.fieldsAt o) (c.rd (tileOff n o)) v)
  if s.capo = some x then
    if (s.tile n).domOn 0 then
      let s := s.updTile n fun d => d.storeReg o v
      let s := s.updStr x fun c => recordStore c (s.tile n) n o
      s.updStr x.other fun c => if c.role = rSTANDBY ∧ !phrase then recordStore c (s.tile n) n o else c
    else s
  else if phrase && s.inOrder x then s.updStr x fun c => recordStore c ((s.tile n).storeReg o v) n o
  else s.discard x n

/-- The references and the visibility of tile `n` from the descriptor of string `x`, and the windows anew (R114, R129, R175). -/
def fabToTile (s : State) (x : Str) (n : Nat) : State :=
  let c := s.str x
  s.updTile n fun d =>
    let d := (List.range 2048).foldl (fun d i =>
      let a := 2048 * n + i
      d.updChan i fun k => { k with
        obs := none
        elig := []
        obsChgEnd := 0
        rref := c.rrefOf a
        pilot := c.actPilot a
        noPilot := c.actNoPilot a || decide (c.actRole a = 0) }) d
    { d with vis := c.visOf n }.restartAll

/-- The settings of tile `n` that the descriptor of string `x` fixes (R127, R129, R165). -/
def fabSettings (s : State) (x : Str) (n : Nat) : State :=
  let c := s.str x
  let s := (s.tileStore x n Reg.TILE_MODE (c.modeOf n) true).tileStore x n Reg.TILE_THMEN (c.thmenOf n) true
  if s.capo = some x then s.fabToTile x n else s.refuse x n

/-- Registers of a tile that a string may store to. -/
def tileWritable : List Nat :=
  ((List.range 1024).map (4 * ·)).filter fun o => (TileSt.fieldsAt o).any fun f => f.acc == .rw

/-- String `x`, which holds the line, restores tile `n` (R453, R406): what the descriptor fixes, every other register it may
store to, the trims and the mirror, and RESTORED. -/
def restoreTile (s : State) (x : Str) (n : Nat) : State :=
  let fab := (s.str x).fabValid
  let s := if fab then (s.fabSettings x n).sendThm x n else s
  let s := (tileWritable.filter fun o => !fab || decide (o ≠ Reg.TILE_MODE ∧ o ≠ Reg.TILE_THMEN)).foldl
    (fun s o => s.updTile n fun d => d.storeReg o ((s.str x).rd (tileOff n o))) s
  s.calToTile x n

/-- String `x` takes the values of a tile that kept its registers by reading them (R453). -/
def readTile (s : State) (x : Str) (n : Nat) : State :=
  tileWritable.foldl (fun s o => s.updStr x fun c =>
    c.wr (tileOff n o) (storeFields (TileSt.fieldsAt o) (c.rd (tileOff n o)) ((s.tile n).rd o))) s

/-! ## From a tile to the strings -/

/-- Whether the tile's control domain is on, before a change of the module. -/
def whenTile (s : State) (n : Nat) (f : State → State) : State := if (s.tile n).domOn 0 then f s else s

/-- The next message of a kind on the link from string `x` to tile `n`. -/
def tileTakes {α : Type} (s : State) (x : Str) (n : Nat) (p : TMsg → Option α) : Option (α × State) :=
  match takeFirst (fun e : Nat × TMsg => if e.1 = n then p e.2 else none) (s.str x).toTile with
  | some (v, l) => some (v, s.updStr x fun c => { c with toTile := l })
  | none => none

/-- The next message of a kind from string `x` acts on tile `n`, or is discarded and counted where it is not in order (R21). -/
def tileServes {α : Type} (s : State) (x : Str) (n : Nat) (p : TMsg → Option α) (f : α → TileSt → TileSt) : State :=
  s.whenTile n fun s =>
    match s.tileTakes x n p with
    | some (v, r) => if s.inOrder x then r.updTile n (f v) else r.discard x n
    | none => s

/-- A stroke's start in a string (R343, R138): producer 73 once per stroke, and the power that each element of tile `n` moves from. -/
def beginStrokes (c : StringSt) (n : Nat) (bows : List (Nat × Bow)) : StringSt :=
  let due := c.plan.strokes.filter fun k => decide (k.ts ≤ c.time) && !k.began && !k.withdrawn
  let c := { c with plan := { c.plan with strokes := c.plan.strokes.map fun (k : Stroke) =>
    let new := (bows.filter fun e => e.2.armSeq == k.armSeq && !k.p0s.any fun q => q.1 == 2048 * n + e.1).map
      fun e => (2048 * n + e.1, e.2.p0)
    { k with began := k.began || (decide (k.ts ≤ c.time) && !k.withdrawn), p0s := k.p0s ++ new } } }
  due.foldl (fun c _ => c.fire 73) c

/-- STROKE_START at tile `n`, and the beginning of the stroke in both strings (R248 step 8). -/
def strokeStart (s : State) (n : Nat) : State :=
  let d := (s.tile n).strokeStart
  let bows := d.chans.filterMap fun e => match e.2.bow with | some b => some (e.1, b) | none => none
  (s.setTile n d).updBoth fun c => beginStrokes c n bows

/-- The words of an actuator record that a sweep report refreshes (R148), in one string. -/
def takeActSweep (c : StringSt) (a : Nat) (w : List Nat) (adopted : Option Nat) : StringSt :=
  let c := match adopted with
    | some v => c.setWord (actRec a) (putBits (c.word (actRec a)) 0 16 v)
    | none => c
  let c := c.setWords (actRec a + 16) w
  let res := bits (w.getD 1 0) 0 16
  let old := c.word (actRec a + 32)
  let bol := if bits old 0 16 = 0 then res else bits old 0 16
  let c := if c.fabValid then c.setWord (actRec a + 32) (bol + 65536 * max res (bits old 16 16)) else c
  countLimit (c.setWord (actRec a + 36) (c.word (actRec a + 36) + 1)) a (w.getD 2 0)

/-- Words 13 to 15 of the running loops of tile `n`, and the engines' counts of loops (R186, R210). -/
def loopReport (c : StringSt) (n : Nat) : StringSt :=
  if !c.computes then c else
  let c := (c.runningLoops.filter fun a => a / 2048 == n).foldl (fun c a => c.writeCounts a) c
  (c.setFld Reg.ENG_LSTAT F.ENG_LSTAT.NBLIND (c.loopsWith 5)).setFld Reg.ENG_LSTAT F.ENG_LSTAT.NSAT (c.loopsWith 6)

/-- STATUS_SWEEP_REPORT of tile `n` (R148, R164, R270, R289, R398). -/
def sweepReport (s : State) (n : Nat) : State :=
  let d := s.tile n
  let t := d.time / sweepT * sweepT
  let s := s.updBoth fun c =>
    let c := (List.range 2048).foldl (fun c i =>
      takeActSweep c (2048 * n + i) (d.actSweep i) (if d.adopted.contains i then some (d.chan i).openCode else none)) c
    let c := (List.range 256).foldl (fun c i =>
      let m := 256 * n + i
      (c.setWords (monRec m + 8) (d.monSweep i)).setWord (monRec m + 28) (c.word (monRec m + 28) + 1)) c
    c
  let s := (List.range 256).foldl (fun s i =>
    let w := d.monSweep i
    ((s.sweepCal .a (256 * n + i) t w).sweepCal .b (256 * n + i) t w)) s
  s.updTile n fun d => { d with adopted := [] }.sweepReset

/-- Null reports reach both strings (R180, R270); with NREP = 0 a string discards them. -/
def takeNull (c : StringSt) (n start mask : Nat) (flags : Nat → Nat) (r : TileSt.NullRep) : StringSt :=
  let m := 256 * n + r.m
  if c.fld Reg.DRN_CFG F.DRN_CFG.NREP = 0 then c else
  let c := c.setWords (0x00E10000 + 16 * m)
    [r.nmin + 65536 * r.nmean, r.nres + 65536 * r.nfit, nsOf start, secOf start % 65536 + 65536 * mask]
  let c := if c.fld Reg.DRN_CFG F.DRN_CFG.RESMAX < r.nres then
      (c.addSat Reg.DRN_NULLCNT F.DRN_NULLCNT.RESX 1).occur 23 m
    else c
  nullCal c m r.nmean r.nfit (flags r.m) c.time

/-- NULL_SLOT_END of tile `n` (R180). -/
def nullEnd (s : State) (n : Nat) : State :=
  let d := s.tile n
  let (e, l, start, mask) := d.nullEnd
  if l.isEmpty then s else
  (s.setTile n e).updBoth fun c =>
    l.foldl (fun c r => takeNull c n start mask (fun m => d.readMon m 1) r) (c.addMod Reg.DRN_NULLCNT F.DRN_NULLCNT.SLOTS 1)

/-- A happening of tile `n`, whose control domain must be on (R36). -/
def onTile (s : State) (n : Nat) (f : TileSt → TileSt) : State := if (s.tile n).domOn 0 then s.updTile n f else s

/-- A happening of a bank of actuators. -/
def onBank (s : State) (n b : Nat) (f : TileSt → TileSt) : State :=
  if (s.tile n).domOn 0 && (s.tile n).domOn (1 + b) then s.updTile n f else s

end State

/-! ## Commands -/

/-- CAPO_SAMPLE (R284). -/
def execCapoSample (n : Fin 8) (t : Nat) (s : State) : Out :=
  let s := s.advance t
  .next (s.onTile n.val fun d => d.capoSample s.a.lineSeen s.b.lineSeen).capoSettle

/-- MISSED_CODES_HOLD (R28). -/
def execMissedCodesHold (n : Fin 8) (t : Nat) (s : State) : Out := .next ((s.advance t).onTile n.val TileSt.missedHold)

/-- FRAME_CODE_LOAD (R135). -/
def execFrameCodeLoad (n : Fin 8) (t : Nat) (s : State) : Out := .next ((s.advance t).onTile n.val TileSt.frameLoad)

/-- SHARE_STAGE: the tile takes the next share that string `x` sent it (R246). -/
def execShareStage (n : Fin 8) (x : Str) (t : Nat) (s : State) : Out :=
  .next ((s.advance t).tileServes x n.val
    (fun m => match m with | .share k q ts cal l g => some (k, q, ts, cal, l, g) | _ => none)
    fun v d => d.stage x v.1 v.2.1 v.2.2.1 v.2.2.2.1 v.2.2.2.2.1 v.2.2.2.2.2)

/-- SHARE_DIGEST (R247). -/
def execShareDigest (n : Fin 8) (x : Str) (s : State) : Out :=
  .next (s.tileServes x n.val (fun m => match m with | .digest k q g => some (k, q, g) | _ => none)
    fun v d => d.checkDigest v.1 v.2.1 v.2.2)

/-- WITHDRAW_REQUEST (R252 step 3). -/
def execWithdrawRequest (n : Fin 8) (x : Str) (t : Nat) (s : State) : Out :=
  .next ((s.advance t).tileServes x n.val (fun m => match m with | .withdraw k q u => some (k, q, u) | _ => none)
    fun v d => d.withdraw x v.1 v.2.1 v.2.2)

/-- WITHDRAW_COMMIT (R252 step 5). -/
def execWithdrawCommit (n : Fin 8) (x : Str) (s : State) : Out :=
  .next (s.tileServes x n.val (fun m => match m with | .commit k q => some (k, q) | _ => none)
    fun v d => d.withdrawCommit x v.1 v.2)

/-- WITHDRAW_RESTORE (R252 step 5). -/
def execWithdrawRestore (n : Fin 8) (x : Str) (s : State) : Out :=
  .next (s.tileServes x n.val (fun m => match m with | .restore k q => some (k, q) | _ => none)
    fun v d => d.withdrawRestore x v.1 v.2)

/-- STROKE_START (R248 step 8, R251). -/
def execStrokeStart (n : Fin 8) (t : Nat) (s : State) : Out := .next ((s.advance t).whenTile n.val fun s => s.strokeStart n.val)

/-- BOW_STEP (R138, R142). -/
def execBowStep (n : Fin 8) (t : Nat) (s : State) : Out := .next ((s.advance t).onTile n.val TileSt.bowStep)

/-- SETTLE_HOLD_END (R139, R248, R249). -/
def execSettleHoldEnd (n : Fin 8) (t : Nat) (s : State) : Out := .next ((s.advance t).onTile n.val TileSt.settleEnd)

/-- RES_SENSE_VISIT: the sense path of a bank measures `r` in 1/64 ohm (R133, R134). -/
def execResSenseVisit (n : Fin 8) (bank : Fin 4) (r : BitVec 17) (t : Nat) (s : State) : Out :=
  .next ((s.advance t).onBank n.val bank.val fun d => (d.senseVisit bank.val r.toNat).setVhtr s.stage.drive)

/-- STATUS_SWEEP_REPORT (R148, R164), and the counts of the loops of the tile at the report instant, whether the tile is powered or not
(R186, R210). -/
def execStatusSweepReport (n : Fin 8) (t : Nat) (s : State) : Out :=
  .next (((s.advance t).updBoth fun c => State.loopReport c n.val).whenTile n.val fun s => s.sweepReport n.val)

/-- LOAD_FAULT_DETECT: a condition has held, or has been absent, for 1 us (R144, R145). -/
def execLoadFaultDetect (n : Fin 8) (f : LoadFault) (on : Bool) (t : Nat) (s : State) : Out :=
  if f.ok then .next ((s.advance t).onTile n.val fun d => d.loadFault f on) else .fault .malformed

/-- TILE_MODE_WRITE: a store of string `x`'s firmware to TILE_MODE[n] (R127, R21). -/
def execTileModeWrite (x : Str) (n : Fin 8) (v : Word) (s : State) : Out :=
  .next (s.tileStore x n.val Reg.TILE_MODE v.toNat false)

/-- TILE_PBIAS_WRITE: a store of string `x`'s firmware to TILE_PBIAS[n][b] (R150, R21). -/
def execTilePbiasWrite (x : Str) (n : Fin 8) (b : Fin 2) (v : Word) (t : Nat) (s : State) : Out :=
  .next ((s.advance t).tileStore x n.val (Reg.TILE_PBIAS b.val) v.toNat false)

/-- BIAS_SETTLE_END (R150). -/
def execBiasSettleEnd (n : Fin 8) (b : Fin 2) (t : Nat) (s : State) : Out :=
  .next ((s.advance t).onTile n.val fun d => d.settleDone b.val)

/-- SAMPLE_TRIGGER (R153). -/
def execSampleTrigger (n : Fin 8) (b : Fin 2) (t : Nat) (s : State) : Out :=
  .next ((s.advance t).onTile n.val fun d => d.sampleTrigger b.val)

/-- LOAD_TRIGGER (R154). -/
def execLoadTrigger (n : Fin 8) (g : Fin 32) (t : Nat) (s : State) : Out :=
  .next ((s.advance t).onTile n.val fun d => d.loadTrigger g.val)

/-- CONVERSION_DONE (R156 to R159). -/
def execConversionDone (n : Fin 8) (vs : List Conv) (t : Nat) (s : State) : Out :=
  if vs.all Conv.ok then .next ((s.advance t).onTile n.val fun d => d.conversions vs) else .fault .malformed

/-- PICKUP_OPEN_TEST: the capacitance found in 0.01 pF, none where the step does not complete (R161, R162). -/
def execPickupOpenTest (n : Fin 8) (b : Fin 2) (capq : Option Nat) (t : Nat) (s : State) : Out :=
  .next ((s.advance t).onTile n.val fun d => d.openTest b.val capq)

/-- CATHODE_LIMIT_TRIP (R161). -/
def execCathodeLimitTrip (n : Fin 8) (m : Fin 256) (s : State) : Out := .next (s.onTile n.val fun d => d.cathodeLimit m.val)

/-- THM_CONVERSION: the resistance in 1/16 ohm, none where the input is open (R165, R166). -/
def execThmConversion (n : Fin 8) (r : Option Nat) (t : Nat) (s : State) : Out :=
  .next ((s.advance t).onTile n.val fun d => d.thermistor r)

/-- DITHER_STEP (R171). -/
def execDitherStep (n : Fin 8) (t : Nat) (s : State) : Out := .next ((s.advance t).onTile n.val TileSt.ditherStep)

/-- NULL_SLOT_START (R179). -/
def execNullSlotStart (n : Fin 8) (t : Nat) (s : State) : Out := .next ((s.advance t).onTile n.val TileSt.nullStart)

/-- NULL_SLOT_END (R180). -/
def execNullSlotEnd (n : Fin 8) (t : Nat) (s : State) : Out := .next ((s.advance t).whenTile n.val fun s => s.nullEnd n.val)

end Sys2Proof.Machine
end

