-- ==== Sys2Proof/Machine/Effects.lean ====
section
/-! DEFINITION. The frame-bound effects of phrases at their effect frames in both strings and in the tiles (03_rings_ordering.md R87,
R96), the records that follow them, and the outcomes that the standby takes from the active string (02_quinli_isa.md R58). -/

namespace Sys2Proof.Machine
namespace State

/-- The fields of the actuator and pickup records that a CHWR changes (R148, R164). -/
def recordChan (c : StringSt) (cls idx sel v : Nat) : StringSt :=
  if cls = 0 then
    let a := actRec idx
    if sel = 4 then c.setWord a (putBits (c.word a) 0 16 v)
    else if sel = 5 then
      let c := c.setWord a (putBits (c.word a) 16 2 v)
      if bit (c.word a) 19 then c else c.setWord (a + 8) (4 ^ (v % 4) * bits (c.word (a + 4)) 0 16)
    else if sel = 6 then c.setWord a (putBits (c.word a) 18 1 v)
    else if sel = 7 then c.setWord (a + 12) (putBits (c.word (a + 12)) 0 16 v)
    else c
  else if cls = 1 then
    let a := monRec idx
    if sel = 2 then c.setWord (a + 4) (putBits (c.word (a + 4)) 0 2 v)
    else if sel = 3 then c.setWord a (putBits (c.word a) 0 16 v)
    else if sel = 4 then c.setWord a (putBits (c.word a) 16 16 v)
    else c
  else c

/-- One effect at its effect frame `e` in string `x`; loop changes wait in the engines (R87, R188). -/
def effectStr (s : State) (x : Str) (g e : Nat) (v : Effect) : State :=
  match v with
  | .chan cls idx sel w => s.updStr x fun c => recordChan c cls idx sel w
  -- the engines take the change at the loop's own frames; what is tagged for frames at which the loop is OFF is dropped (R189)
  | .loop n _ w0 _ _ _ => if bits w0 0 2 = 0 then s.updStr x fun c => c.dropCodes n e else s
  | .fret .. => s
  | .rows l => s.updStr x fun c => c.applyRows e l
  | .cal words => s.calLoad x e words
  | .xtCfg w => s.updStr x fun c => (c.xtFlush e).wr Reg.XT_CFG (storeFields (regFields Reg.XT_CFG) (c.rd Reg.XT_CFG) w)
  | .pwrReq w => if (s.str x).holds then s.judgePower x w g else s.updStr x fun c => c.setFld Reg.PWR_STAT F.PWR_STAT.PEND 0
  | .cancel (some q) => s.updStr x fun c => c.updStroke q fun k => { k with stopped := some e }
  | .cancel none => s

/-- The tile that an effect concerns. -/
def effectTile : Effect → Option Nat
  | .chan cls idx _ _ => some (if cls = 0 then idx / 2048 else if cls = 1 then idx / 256 else idx / 8)
  | .loop n .. => some (n / 2048)
  | _ => none

/-- The running state of a loop changes at its effect frame `e` (R135, R189): a loop that goes to OFF leaves no code behind that is tagged for
that frame or a later one. -/
def loopIn (d : TileSt) (a e : Nat) (l : Option Nat) : TileSt :=
  let d := d.updChan a fun c => { c with loop := l, loopAt := if c.loop = l then c.loopAt else e }
  let cut := fun (r : CodeRec) => if r.frame * frameT < e then r else { r with codes := r.codes.filter fun k => k.1 != a }
  if l.isNone then { d with codesA := d.codesA.map cut, codesB := d.codesB.map cut } else d

/-- One effect in its tile at its effect frame `e` (R60, R135). -/
def effectIn (e : Nat) (d : TileSt) : Effect → TileSt
  | .chan cls idx sel v =>
    if cls = 0 then d.writeAct (idx % 2048) sel v
    else if cls = 1 then d.writeMon (idx % 256) sel v
    else if sel = 1 then d.writeThm (idx % 8) v
    else d
  | .loop n _ w0 _ _ _ => loopIn d (n % 2048) e (if bits w0 0 2 = 1 ∨ bits w0 0 2 = 2 then some (bits w0 2 2) else none)
  | _ => d

/-- The records whose effect frame has come, in the order of their retire entries, and what of them is still to do (R87). -/
def dueRecs (c : StringSt) (p : Rec → Bool) : List Rec :=
  sortBy (fun (a b : Rec) => decide (a.ord ≤ b.ord))
    (c.ring.recs.filter fun r => p r && (match r.eff with | some e => decide (e ≤ c.time) | none => false))

def updRec (c : StringSt) (g : Nat) (f : Rec → Rec) : StringSt :=
  { c with ring := { c.ring with recs := c.ring.recs.map fun r => if r.gseq = g then f r else r } }

/-- String `x`'s own effects that have come. -/
def applyStr (s : State) (x : Str) : State :=
  (dueRecs (s.str x) fun r => !r.applied).foldl (fun s r =>
    let s := r.effects.foldl (fun s v => s.effectStr x r.gseq (r.eff.getD 0) v) s
    s.updStr x fun c => updRec c r.gseq fun q => { q with applied := true }) s

/-- The effects of string `x` that have come reach the tiles, which take none of a sequence number that they have taken before
(R96). The string must hold the line (R21). -/
def applyTiles (s : State) (x : Str) : State :=
  if s.capo = some x then
    (dueRecs (s.str x) fun r => !r.sent).foldl (fun s r =>
      let tiles := (List.range 8).filter fun n => r.effects.any fun v => effectTile v == some n
      let s := tiles.foldl (fun (s : State) n =>
        if (s.tile n).applied.contains r.gseq then s
        else s.updTile n fun d =>
          let d := (r.effects.filter fun v => effectTile v == some n).foldl (effectIn (r.eff.getD 0)) d
          { d with applied := (r.gseq :: d.applied).take 64 }) s
      s.updStr x fun c => updRec c r.gseq fun q => { q with sent := true }) s
  else s

/-- The rate at which the string that holds the line runs a loop, where a change by the margin planner has come (R396). -/
def syncRates (s : State) (x : Str) : State :=
  if s.capo = some x then
    let c := s.str x
    s.eachTile fun n s => s.updTile n fun d => { d with chans := d.chans.map fun (e : Nat × Chan) =>
      let a := 2048 * n + e.1
      let due := (Tab.get (fun _ => ([] : List (Nat × Effect))) c.eng.sets a).filterMap fun q =>
        match q.2 with | .loop _ _ w0 _ _ _ => if q.1 ≤ c.time then some (bits w0 2 2) else none | _ => none
      match e.2.loop with
      | some r => (e.1, { e.2 with loop := some (due.getLastD (if c.loopRuns a then (c.loopCfg a).rate else r)) })
      | none => e }
  else s

/-- Every frame-bound effect of the earlier phrases of core `i` has been applied, as a FENCE with the F kind waits for (R67, R87). -/
def framesDone (c : StringSt) (i : Nat) : Bool :=
  c.ring.recs.all fun r => (r.applied && (r.sent || !c.holds)) ||
    (match c.flight r.ring with | some f => decide (f.gseq ≠ r.gseq ∨ f.core ≠ i) | none => true)

/-- Cores that wait in a FENCE go on once the effects are there (R67). -/
def wakeFences (c : StringSt) : StringSt :=
  (List.range 4).foldl (fun c i =>
    match (c.core i).wait with
    | .frames => if framesDone c i then c.stepCore i else c
    | _ => c) c

/-- EFFECT_FRAME_APPLY (R87 step 9). -/
def effectFrames (s : State) : State :=
  let s := (s.applyStr .a).applyStr .b
  let s := (s.applyTiles .a).applyTiles .b
  ((s.syncRates .a).syncRates .b).updBoth wakeFences

/-- The write of record `r` of string `x`, just posted in `s'`, has ended in a PCIe error: it is counted, and host memory holds at its
place what it held before, as in `s` (20_register_map.md R450; log entry 30). -/
def recordError (s s' : State) (x : Str) (r : Rec) : State :=
  if r.cqEn then
    let a := r.cqBase + 32 * (r.oldCnt.getD ((s.str x).fld (Reg.RING_CQCFG r.ring) F.RING_CQCFG.CNT) % 256)
    ({ s' with hostMem := s'.hostMem.writeWords a ((List.range 8).map fun i => s.hostMem.word (a + 4 * i)) }).updStr x fun c =>
      c.addSat Reg.PCIE_CNT F.PCIE_CNT.HI 1
  else s'

/-- COMPLETION_POST: the next record of ring `n` is posted, `err` where its write ends in a PCIe error; after the record of a phrase that
requested DORMANT the strings power down (R90, R389). -/
def postRecord (s : State) (x : Str) (n : Nat) (err : Bool) : State :=
  let c := s.str x
  let s' := s.postNext x n
  match c.holds, postable c n with
  | true, some r =>
    let s' := if err then s.recordError s' x r else s'
    if r.gseq ≠ 0 ∧ c.pwr.dorm = some r.gseq then s'.goDormant x else s'.updStr x wakeFences
  | _, _ => s'

/-! ## Outcomes on the standby (R58) -/

/-- The standby's core `i` completes its operation with the active string's value; a status of its own that differs is recorded for
the health report. -/
def endFollow (s : State) (x : Str) (i gd v : Nat) (own : Option Nat) : State :=
  s.updStr x fun c =>
    let c := c.finish i gd v
    match own with
    | some w => if w = v then c else c.markFlag 8
    | none => c

/-- OPERATION_OUTCOME (R58). -/
def opOutcome (s : State) (x : Str) : State :=
  let c := s.str x
  let waiting := fun (g : Nat) => (List.range 4).findSome? fun i =>
    let k := c.core i
    match k.wait with
    | .outcome gd f => if k.gseq = g then some (i, gd, f) else none
    | _ => none
  match s.receive x (fun m => match m with | .outcome g o => (waiting g).map fun w => (w, o) | _ => none) with
  | none => s
  | some ((((i, gd, f)), o), s) =>
    match f with
    | .plain own => s.endFollow x i gd o.value own
    | .arm k policy treq =>
      let (st, s) := s.plarmFollow x k policy treq o
      s.endFollow x i gd o.value (some st)
    | .cancel k =>
      let (st, s) := s.plcancelFollow x i k o
      s.endFollow x i gd o.value (some st)
    | .calset act img =>
      let (st, _, s) := s.calset x act img (some o.time)
      s.endFollow x i gd o.value (some st)
    | .event ch clear =>
      let s := s.endFollow x i gd o.value none
      if clear ∧ o.value = sOK then s.updStr x fun c => c.setFld (Reg.EVF_CH ch) F.EVF_CH.SEEN 0 else s
    | .time ga =>
      let s := match ga with
        | some a => s.updStr x fun c => c.setWords a (ts96 o.time)
        | none => s
      s.endFollow x i gd o.value none

end State

/-! ## Commands -/

/-- EFFECT_FRAME_APPLY (R87). -/
def execEffectFrameApply (t : Nat) (s : State) : Out := .next (s.advance t).effectFrames.capoSettle

/-- COMPLETION_POST (R90). -/
def execCompletionPost (x : Str) (n : Fin 16) (err : Bool) (s : State) : Out := .next (s.postRecord x n.val err)

/-- OPERATION_OUTCOME (R58). The drops of missed strokes that stand before it in the command order come first (R226), here and below. -/
def execOperationOutcome (x : Str) (s : State) : Out := .next ((s.drainDrops x).opOutcome x)

/-- DOORBELL_MIRROR (R84). -/
def execDoorbellMirror (x : Str) (s : State) : Out := .next ((s.drainDrops x).mirrorDb x)

/-- CLAIM_ENTRY (R86). -/
def execClaimEntry (x : Str) (i : Fin 4) (s : State) : Out := .next ((s.drainDrops x).claimEntry x i.val)

/-- RETIRE_ENTRY (R87). -/
def execRetireEntry (x : Str) (s : State) : Out := .next ((s.drainDrops x).retireEntry x false)

/-- POSTED_MARK (R96). -/
def execPostedMark (x : Str) (s : State) : Out := .next ((s.drainDrops x).postedMark x false)

end Sys2Proof.Machine
end

