-- ==== Sys2Proof/Machine/FabSvc.lean ====
section
/-! DEFINITION. Loading a descriptor, by the services of a phrase or from the flash (04_photonic_seat.md R119 to R124), what a VALID
descriptor makes a string and its tiles do, and CALLOAD (11_calibration.md R279). A service answers its status and the new state. -/

namespace Sys2Proof.Machine
namespace StringSt

/-- A load is open from ring `r` (R120). -/
def loadOpen (s : StringSt) (r : Nat) : Bool :=
  decide (s.fabState = fabLOADING) && decide (s.fld Reg.FAB_STAT F.FAB_STAT.RING = r)

/-- DLBEGIN (R120, R121). -/
def dlbegin (s : StringSt) (ring : Nat) (barrier : Bool) (g3 : Nat) : Nat × StringSt :=
  if !barrier ∨ s.fabState = fabLOADING ∨ !s.quiescent then (sBUSY, s)
  else if g3 % 4 ≠ 0 ∨ 1572864 < g3 then (sBADVAL, s)
  else
    let s := { s with dlLen := g3, dlPrev := s.fabState }
    -- the descriptor in force stays so until data is accepted: its registers read 0 while STATE is LOADING (R118)
    let s := s.setFab fabLOADING
    let s := (s.setFld Reg.FAB_STAT F.FAB_STAT.SRC 1).setFld Reg.FAB_STAT F.FAB_STAT.RING ring
    (sOK, s.wr Reg.FAB_RXLEN 0)

/-- DLDATA (R120, R121): `sec` the caller's S. -/
def dldata (s : StringSt) (sec : Bool) (ring g3 g4 g5 : Nat) : Nat × StringSt :=
  if !s.loadOpen ring then (sNOTOPEN, s)
  else
    let n := s.rd Reg.FAB_RXLEN
    if g3 ≠ n ∨ g5 = 0 ∨ g5 % 4 ≠ 0 ∨ s.dlLen < g3 + g5 ∨ !s.phraseBuf sec false g4 g5 then (sBADVAL, s)
    else (sOK, (s.setBytes (fabBase + n) (s.bytes g4 g5)).wr Reg.FAB_RXLEN (n + g5))

/-- The registers of a failed check (R123). -/
def fabFail (s : StringSt) (e : Failed) : StringSt :=
  ((s.setFab fabFAILED).wr Reg.FAB_ERR (e.1 + 256 * e.2.1)).wr Reg.FAB_ERRIDX e.2.2

/-- DLABORT (R120, R121). -/
def dlabort (s : StringSt) (ring : Nat) : Nat × StringSt :=
  if !s.loadOpen ring then (sNOTOPEN, s)
  else if s.rd Reg.FAB_RXLEN = 0 then (sOK, s.setFab s.dlPrev)
  else (sOK, s.setFab fabFAILED)

/-- A byte of the flash; a byte that nothing has programmed reads 0xFF (log entry 6). -/
def flashByte (s : StringSt) (a : Nat) : Byte := Tab.get (fun _ => (0xFF : Byte)) s.flash a

def flashBytes (s : StringSt) (a n : Nat) : List Byte := (upFrom a n).map s.flashByte
def flashWord (s : StringSt) (a : Nat) : Nat := leNat (s.flashBytes a 4)

/-- The fields of a calibration image that must be 0 are 0 (R262 to R264). -/
def calImageOk (w : List Nat) : Bool :=
  let g := fun i => w.getD i 0
  decide (g 0 = 0x314C4143 ∧ g 1 = 1 ∧ g 14 = 0 ∧ g 15 = 0) && (upFrom 144 880).all (fun i => decide (g i = 0)) &&
    (List.range 2048).all (fun m => decide (bits (g (1024 + 2 * m)) 20 4 = 0 ∧ bits (g (1025 + 2 * m)) 26 6 = 0)) &&
    (List.range 16384).all fun a => decide (bits (g (5121 + 2 * a)) 28 4 = 0)

/-- CALLOAD of the phrase of core `i` (R279). -/
def calload (s : StringSt) (sec : Bool) (i g3 g4 : Nat) : Nat × StringSt :=
  if g4 ≠ calSize ∨ g3 % 64 ≠ 0 ∨ !s.phraseBuf sec false g3 g4 then (sBADVAL, s)
  else
    let w := s.words g3 (calSize / 4)
    if !calImageOk w ∨ !((List.range 8).all fun k => w.getD (4 + k) 0 == s.rd (Reg.FAB_DIGEST k)) then (sBADVAL, s)
    else if !s.fabValid then (sBUSY, s)
    else (sOK, s.bindEff i (.cal w))

end StringSt

namespace State

/-- The descriptor in string `x` becomes VALID (R121, R127, R129, R148, R165, R211, R227, R277, R392): its tables, its records, the
defaults of its calibration, or at a boot what the tiles' mirrors hold (R269), and its tiles' settings where it holds the line. -/
def becomeValid (s : State) (x : Str) (boot : Bool) : State :=
  let s := s.updStr x fun c => ((c.setFab fabVALID).buildTables.buildRows).buildActs
  let s := if boot ∧ (List.range 8).any (fun n => (s.tile n).mirrored) then s.calRebuild x else s.calDefaults x
  let s := s.eachTile fun n s => s.fabSettings x n
  let s := s.setThresholds x
  s.eachTile fun n s => if s.capo = some x then s.calToTile x n else s.refuse x n

/-- The end of a load of `len` bytes: the checks in order (R123), and what follows. The answer says that they pass. -/
def judgeLoad (s : State) (x : Str) (len : Nat) (boot : Bool) : Bool × State :=
  match (s.str x).fabCheck len with
  | some e => (false, s.updStr x fun c => c.fabFail e)
  | none => (true, (s.updStr x fun c => (c.wr Reg.FAB_ERR 0).wr Reg.FAB_ERRIDX noIdx).becomeValid x boot)

/-- DLEND (R120, R121). -/
def dlend (s : State) (x : Str) (ring : Nat) : Nat × State :=
  let c := s.str x
  if !c.loadOpen ring then (sNOTOPEN, s)
  else if c.rd Reg.FAB_RXLEN < c.dlLen then (sBADVAL, s)
  else
    let (ok, s) := s.judgeLoad x c.dlLen false
    (if ok then sOK else sBADVAL, s)

/-- The load from the string's flash after a reset (R119). -/
def flashLoad (s : State) (x : Str) : State :=
  let c := s.str x
  let base := 0x00800000
  if c.flashWord base ≠ 0x31444649 then s
  else
    let len := c.flashWord (base + 8)
    let n := min 1572864 (len + 16 + c.flashWord (base + len + 12))
    let s := s.updStr x fun c =>
      ((c.setBytes fabBase (c.flashBytes base n)).wr Reg.FAB_RXLEN n).setFld Reg.FAB_STAT F.FAB_STAT.SRC 0
    (s.judgeLoad x n true).2

end State
end Sys2Proof.Machine
end

