-- ==== Sys2Proof/Machine/Pegs.lean ====
section
/-! DEFINITION. The peg store of a string (02_quinli_isa.md R65, 18_reset_boot_security.md R409 to R411). -/

namespace Sys2Proof.Machine
namespace StringSt

/-- The junction temperature lies in the write window (R411): sensor 63, in 1/128 degree. -/
def pegTempOk (s : StringSt) : Bool := decide (-(degT 20) ≤ s.sensor 63 ∧ s.sensor 63 ≤ degT 125)

/-- The page of a peg address. -/
def pegPage (a : Nat) : Nat := (a - 0x70000000) / 256

/-- PEGWR of a word (R65, R411): its status; a write outside the window writes nothing. -/
def pegWrite (s : StringSt) (a v : Nat) : Nat × StringSt :=
  if s.pegTempOk then
    let n := Tab.get (fun _ => (0 : Nat)) s.wear (pegPage a)
    (sOK, { s with
      pegs := Tab.set (fun _ => (0 : Word)) s.pegs a (BitVec.ofNat 32 v)
      wear := Tab.set (fun _ => (0 : Nat)) s.wear (pegPage a) (satInc 2097151 n) })
  else (sTEMPBLOCK, (s.addSat Reg.PEG_STAT F.PEG_STAT.TBLKCNT 1).occur 29 a)

/-- The words at a list of addresses, in order; with none written where the temperature blocks (R411). -/
def pegWrites (s : StringSt) : List (Nat × Nat) → Nat × StringSt
  | [] => (sOK, s)
  | (a, v) :: l =>
    let (st, s) := s.pegWrite a v
    if st = sOK then s.pegWrites l else (st, s)

/-- PEG_WMAX: the highest page count, and the lowest page that has it (R425). -/
def pegMax (s : StringSt) : Nat × Nat :=
  s.wear.foldl (fun m e => if m.2 < e.2 then (e.1, e.2) else m) (0, 0)

/-- Steps 1 to 3 of R313: BOOTCNT goes up by one, the epoch follows from it, and NEXT of every network ring is 0. While the temperature
blocks the write, the epoch reads 0 and the monitor will retry. -/
def newEpoch (s : StringSt) : StringSt :=
  let (st, s) := s.pegWrite 0x7000000C (s.peg 0x7000000C + 1)
  let s := (List.range 4).foldl (fun (s : StringSt) r => s.wr (Reg.ICT_NEXT r) 0) s
  if st = sOK then { s.wr Reg.ICT_EPOCH (s.peg 0x7000000C * 2 + s.id.idx) with net := { s.net with retry := false } }
  else { s.wr Reg.ICT_EPOCH 0 with net := { s.net with retry := true } }

/-- EPOCH_RETRY (R313). -/
def epochRetry (s : StringSt) : StringSt := if s.net.retry && s.holds then s.newEpoch else s

end StringSt

/-- EPOCH_RETRY (R313). -/
def execEpochRetry (x : Str) (t : Nat) (s : State) : Out := .next ((s.advance t).updStr x StringSt.epochRetry)

end Sys2Proof.Machine
end

