-- ==== Sys2Proof/Machine/Redund.lean ====
section
/-! DEFINITION. The capo line and the roles of the strings, planned transfers, seizures, joins, health, verdicts and self-tests
(12_redundancy.md R283 to R306), with what a change of capo does to phrases (03_rings_ordering.md R96). -/

namespace Sys2Proof.Machine
namespace StringSt

def setXfer (c : StringSt) (v : Option Xfer) : StringSt := { c with red := { c.red with xfer := v } }

/-- The partner is ACTIVE or in HANDOVER, as the bridge reports (R288, RED_CAPOSTAT.PROLE). -/
def partnerHolds (c : StringSt) : Bool :=
  let r := c.fld Reg.RED_CAPOSTAT F.RED_CAPOSTAT.PROLE
  decide (r = rACTIVE) || decide (r = rHANDOVER)

/-- The OR of the latest health reports meets IMPMASK (R298). -/
def impairedBy (c : StringSt) (l : List Nat) : Bool :=
  decide ((l.foldl (fun v w => v ||| w) 0) % 128 &&& c.fld Reg.RED_CFG F.RED_CFG.IMPMASK ≠ 0)

/-- This string's, and its partner's, impairment as this string sees it. -/
def impaired (c : StringSt) : Bool := c.impairedBy c.red.mine
def partnerImpaired (c : StringSt) : Bool := c.impairedBy c.red.its

/-- The boundary whose take window the instant lies in, where it is one of this string's (R287). -/
def takeWindow (c : StringSt) : Option Nat :=
  let b := ceilTo frameT (c.time + 3 * usT)
  if b ≤ c.time + 5 * usT ∧ frameOf b % 2 = c.id.idx then some b else none

/-- TAKEDLY x 10 ms have passed since the string entered IDLE. -/
def takeDue (c : StringSt) : Bool :=
  decide (c.red.idleSince + c.fld Reg.RED_CFG F.RED_CFG.TAKEDLY * 10 * msT ≤ c.time)

/-- Claims made but not committed are committed, once no standby is joined (R86). -/
def alone (c : StringSt) : StringSt :=
  let c := c.setFld Reg.RED_CAPOSTAT F.RED_CAPOSTAT.PJOINED 0
  let open_ := sortBy (fun (a b : Nat × Flight) => decide (a.2.gseq ≤ b.2.gseq)) (c.inFlight.filter fun e => !e.2.committed)
  open_.foldl (fun c e => c.commitClaim e.2.gseq) c

/-- LOST clears in every loop (R297). -/
def clearLost (c : StringSt) : StringSt :=
  (c.runningLoops.filter fun a => (c.loopVal a).lost).foldl (fun c a => c.setLoopVal a { c.loopVal a with lost := false }) c

/-- A FATAL-free end of the string's service: FAILED is entered (R285). -/
def toFailed (c : StringSt) : StringSt := ((c.setLine false |>.setXfer none |>.endPhrases).dropOpen (!c.joined)).setRole rFAILED

/-- Cause and frame of a change of capo (R305); the interval of R301 counts from it. -/
def noteXfer (c : StringSt) (cause b : Nat) : StringSt :=
  let c := (c.setFld Reg.RED_XFER F.RED_XFER.CAUSE cause).setFld Reg.RED_XFER F.RED_XFER.ABORT 0
  let c := (c.wr Reg.RED_XFERFR (frameOf b % 4294967296)).addSat Reg.RED_CNT F.RED_CNT.C0 1
  { c with red := { c.red with capoAt := c.time } }

/-- A store of 1 to RED_CTL.READY: BOOT to IDLE (R285). -/
def redReady (c : StringSt) : StringSt :=
  if c.role = rBOOT then ({ c with red := { c.red with idleSince := c.time } }).setRole rIDLE else c

/-- A store of 1 to RED_CTL.TAKE: the take of an IDLE string no longer needs AUTOTAKE (R288). -/
def askTake (c : StringSt) : StringSt :=
  if c.role = rIDLE then { c with red := { c.red with takeReq := true } } else c

end StringSt

namespace State

/-- The string that serves phrases. -/
def active (s : State) : Option Str := if s.a.holds then some .a else if s.b.holds then some .b else none

/-! ## Dropping the standby -/

/-- COMPARE goes off in every tile at its next boundary (R296). -/
def compareOff (s : State) : State :=
  s.eachTile fun n s => s.updTile n fun d =>
    if d.cmpFrom.isSome && d.cmpOff.isNone then { d with cmpOff := some ((d.time / frameT + 1) * frameT) } else d

/-- The active string `x` runs without its standby from now on: what waited for the standby's acknowledgement is done, in its order
(R84, R86). -/
def runAlone (s : State) (x : Str) : State :=
  let s := s.updStr x fun c => c.alone.clearLost
  let w := (s.str x).ring.dbWait
  let s := s.updStr x fun c => { c with ring := { c.ring with dbWait := [] }, outbox := [] }
  let s := w.foldl (fun s e => s.acceptDb x e.1 e.2.1 e.2.2) s
  (s.updStr x fun c => c.settleAcks.reselect).compareOff

/-- The standby of `x` is dropped to IDLE (R285, R299). -/
def dropStandby (s : State) (x : Str) : State :=
  let s := s.updStr x.other fun c =>
    if c.role = rSTANDBY then
      let c := c.toIdle.clearLost
      { c with ring := { c.ring with recs := [] }, outbox := [] }
    else c
  s.runAlone x

/-! ## Change of capo (R96, R280, R288) -/

/-- String `x` takes the next mirrored number of a stream (R302). -/
def takeNumber (s : State) (x : Str) : State :=
  match s.receive x (fun m => match m with | .telem i q t => some (i, q, t) | _ => none) with
  | none => s
  | some ((i, q, t), s) =>
    s.updStr x fun c =>
      ({ c.wr (Reg.ICT_TSEQ i) (q + 1) with net := { c.net with nums := c.net.nums ++ [(i, q, t)] } }).matchSnap i

/-- What the partner has sent in the command order reaches string `x`. An ACK that was due to the partner is not sent any more
(13_network.md R324). A clearing doorbell of a ring whose fencing record is still to come is kept, with those behind it (R94). -/
def drainLink (s : State) (x : Str) : State :=
  let s := s.updStr x.other fun c => { c with net := { c.net with acks := [] } }
  let s := (List.range (s.str x.other).outbox.length).foldl (fun s _ =>
    ((((((s.drainDrops x).commitTake x fun _ => true).mirrorDb x).retireEntry x true).postedMark x true).opOutcome x).takeNumber x) s
  (s.str x.other).outbox.foldl (fun s m => match m with
    | .doorbell n p k l i => s.updStr x fun c =>
      let c := (l.foldl (fun c e => c.setBytes (slotAddr n e.1) e.2) c).takeMirror n i
      { c with ring := { c.ring with kept := c.ring.kept ++ [(n, p, k)] } }
    | _ => s) s

/-- An operation of R58 that waits for an outcome which will not come: its own status stands where its effects are done, and otherwise
it runs again. -/
def resumeWait (c : StringSt) (i : Nat) : StringSt :=
  match (c.core i).wait with
  | .outcome gd (.plain (some v)) => c.finish i gd v
  | .outcome _ _ => c.updCore i fun k => { k with run := .running, wait := .idle }
  | _ => c

/-- The string that now serves phrases, where it was the standby (R96). -/
def resumeAs (c : StringSt) : StringSt :=
  let c := c.setRole rACTIVE
  -- the epoch is the one received (13_network.md R313)
  let c := { c with net := { c.net with retry := false } }
  let c := c.setGseq (c.commitSeq + 1)
  let c := (List.range 4).foldl resumeWait c
  c.ring.recs.foldl (fun (c : StringSt) r =>
    if r.entry then updRec c r.gseq fun q => if q = r then { q with repost := true } else q
    else
      let lead := match c.flight r.ring with | some f => f.lead | none => 0
      let e := max (ceilTo frameT (c.time + max 30 lead * usT)) c.ring.lastEff
      let o := c.ring.ord + 1
      let c := { c with ring := { c.ring with ord := o } }
      let c := updRec c r.gseq fun q => if q = r then { q with entry := true, eff := if q.bound then some e else none, ord := o } else q
      if r.bound then ({ c with ring := { c.ring with lastEff := e } }).bindLoops r.effects e else c) c

/-- String `x`, which holds the line, takes over from its partner as the active string (R96); the tiles' copies of the calibration are
rewritten (R280). -/
def takeOver (s : State) (x : Str) : State :=
  let s := s.drainLink x
  let s := s.updStr x resumeAs
  let s := s.updStr x.other fun c => { c with outbox := c.outbox.filter fun m => match m with
    | .claim _ => false
    | .outcome _ _ => false
    | .doorbell .. => false
    | _ => true }
  let s := s.eachTile fun n s => s.calToTile x n
  s.updStr x StringSt.reselect

/-- The string that gave the line becomes the standby (R291 step 9): its operations of R58 wait for the new active string. A clearing write that it
had kept for a fencing record is dropped; R94 says nothing of it (DESIGN CHOICE, log entry 102). -/
def followOn (c : StringSt) : StringSt :=
  let c := (List.range 4).foldl (fun c i =>
    match (c.core i).wait with
    | .event gd ch clear _ => c.hold i (.outcome gd (.event ch clear))
    | .arm gd k =>
      match c.plan.arming.find? fun g => g.core == some i with
      | some g => c.hold i (.outcome gd (.arm k g.policy (some g.treq)))
      | none => c
    | .cancel gd k => c.hold i (.outcome gd (.cancel k))
    | _ => c) c
  let open_ := c.inFlight.filter fun e => !e.2.committed
  let c := open_.foldl (fun c e => (if e.2.det = 0 then c.abandonCore e.2.core else c).setFlight e.1 none) c
  let cals := c.plan.arming.filter fun g => g.core.isNone
  let c := { c with
    ring := { c.ring with kept := [], dbWait := [] }
    net := { c.net with acks := [] }
    plan := { c.plan with arming := [], withdrawing := [] } }
  -- the samples of a commit that is not placed are lost; one that is placed applies in both strings (11_calibration.md R280)
  let c := { c.dropOpen false with cal := { (c.dropOpen false).cal with commit := c.cal.commit } }
  (cals.foldl (fun c g => c.addStroke g.stroke) c).setRole rSTANDBY

/-- The loops of string `x` are aligned with the codes that the tiles hold (R288). -/
def alignLoops (s : State) (x : Str) : State :=
  s.updStr x fun c =>
    let c := c.freshJobs
    (c.runningLoops.filter c.loopRuns).foldl (fun c a =>
      let k := c.loopCfg a
      let v := c.loopVal a
      let acc := StringSt.clampAcc k ((((s.tile (a / 2048)).chan (a % 2048)).power * 65536 : Nat) : Int)
      c.setLoopVal a { v with
        acc := acc
        x1 := 0
        x2 := 0
        ys := v.ys.map fun _ => ((0 : Int), (0 : Int))
        invrun := 0
        blind := false
        lost := false
        fret := if v.lock then v.fret else c.bandFret k.cset (rhe acc 16) }) c

/-- A take by string `x` is forbidden while CAPO_FORCE_N is low (R292). -/
def forced (s : State) (x : Str) : Bool := !s.capoForceN && decide (x = .a)

/-- The line of the partner of `x` has been seen deasserted for 200 ns (R287). -/
def partnerLow (s : State) (x : Str) : Bool :=
  let p := s.str x.other
  !p.red.line && !p.lineSeen

/-- CAPO_TAKE: the cold take of string `x` (R288, R289, R453). -/
def capoTake (s : State) (x : Str) : State :=
  let c := s.str x
  match c.takeWindow with
  | none => s
  | some b =>
    let ok := decide (c.role = rIDLE) && (c.flag Reg.RED_CFG F.RED_CFG.AUTOTAKE || c.red.takeReq) && c.takeDue && s.partnerLow x &&
      (!c.brgUp || !c.partnerHolds) && !s.forced x
    if ok then
      let s := s.updStr x fun c =>
        let c := (c.setLine true).setRole rACTIVE
        ({ c with red := { c.red with takeReq := false, firstRec := List.range 8, claimFrom := b } }).newEpoch
      let s := s.alignLoops x
      let s := s.eachTile fun n s =>
        if (s.tile n).fld Reg.TILE_CALSTAT F.TILE_CALSTAT.RESTORED = 0 then s.restoreTile x n else s.readTile x n
      let s := s.updBoth fun c => c.noteXfer 6 b
      (s.updStr x StringSt.reselect).capoSettle
    else s

/-- CAPO_SEIZE: the standby `x` seizes the line after its partner's line has fallen (R290). A TRANSFER that arrives is ordered first
(R304). -/
def capoSeize (s : State) (x : Str) : State :=
  let c := s.str x
  match c.takeWindow with
  | none => s
  | some b =>
    let coming := (s.str x.other).outbox.any fun m => match m with | .transfer _ _ => true | _ => false
    let ok := decide (c.role = rSTANDBY) && c.flag Reg.RED_CFG F.RED_CFG.SEIZE && !c.impaired && c.red.xfer.isNone && !coming &&
      s.partnerLow x && !s.forced x
    if ok then
      let s := s.updStr x fun c => c.setLine true
      let s := s.takeOver x
      let s := s.updStr x fun c => { c.alone with red := { c.alone.red with claimFrom := b, blamedAt := none, verdict := false, owed := none } }
      let s := s.updBoth fun c => (c.noteXfer 5 b).addSat Reg.RED_CNT F.RED_CNT.C1 1
      s.capoSettle
    else s

/-! ## Planned transfers (R291, R292) -/

/-- Step 1: the active string `x`, joined, starts a transfer. -/
def startTransfer (s : State) (x : Str) (cause : Nat) : State :=
  let c := s.str x
  if c.role = rACTIVE ∧ c.joined ∧ c.red.xfer.isNone then
    let b := ceilTo frameT (c.time + 30 * usT)
    let ft := if frameOf b % 2 = x.other.idx then b else b + frameT
    s.updStr x fun c => ((c.setXfer (some ⟨ft, cause, false, true, s.forced x.other, c.time⟩)).setRole rHANDOVER).send (.transfer ft cause)
  else s

/-- CAPO_FORCE_N is low and string A acts by its role (R292); without a joined standby it leaves in its next take window, whose opening is
kept. -/
def forceAct (s : State) : State :=
  if s.capoForceN then s
  else if s.a.role = rACTIVE then
    if s.a.joined then s.startTransfer .a 4
    else
      let b := ceilTo frameT (s.a.time + 3 * usT)
      let b := if frameOf b % 2 = 0 then b else b + frameT
      (s.updStr .a fun c => { c with red := { c.red with forceOut := some (max s.a.time (b - 5 * usT)) } }.leaveForced).capoSettle
  else s

/-! ## Verdicts (R299) -/

/-- The partner is asked to reset, at most once a second and with PRSTEN = 1 (R286). -/
def askReset (c : StringSt) : StringSt :=
  let due : Bool := match c.red.prAt with | some t => decide (t + secT ≤ c.time) | none => true
  if c.flag Reg.RED_CFG F.RED_CFG.PRSTEN ∧ due then
    ({ c with red := { c.red with prAt := some c.time } }).setFld Reg.RED_CAPOSTAT F.RED_CAPOSTAT.PRQ 1
  else c

/-- The active string `x`, joined, carries out a verdict (R299). -/
def carryOut (s : State) (x : Str) : Verdict → State
  | .blame y =>
    if y = x then
      let s := s.updBoth fun c => c.occur 12 0
      let s := s.updStr x.other fun c => { c with red := { c.red with blamedAt := some c.time } }
      (s.updStr x fun c => { c with red := { c.red with verdict := true } }).startTransfer x 3
    else ((s.updBoth fun c => c.occur 13 0).dropStandby x).updStr x askReset
  | .undecided both => (s.updBoth fun c => c.occur (if both then 15 else 14) 0).dropStandby x

/-- A verdict that a transfer in progress held up is carried out by string `x`, which is active at its end, on the roles as they now are
(DESIGN CHOICE, log entry 51). -/
def settleOwed (s : State) (x : Str) : State :=
  match (s.str x).red.owed with
  | none => s
  | some v =>
    let s := s.updBoth fun c => { c with red := { c.red with owed := none } }
    if (s.str x).role = rACTIVE ∧ (s.str x).joined then s.carryOut x v else s

/-- A role swap that started in the same grant gives way to a verdict, and waits for the next interval (R304). -/
def yieldSwap (s : State) (x : Str) : State :=
  s.updStr x fun c =>
    let c := (c.setXfer none).setRole rACTIVE
    { c with
      red := { c.red with capoAt := c.time }
      outbox := c.outbox.filter fun m => match m with | .transfer _ _ => false | _ => true }

/-- The transfer that `x` had started is aborted, and `x` is ACTIVE (R291); a verdict that it held up, and a force that has fallen
meanwhile, are judged now (R304). -/
def abortXfer (s : State) (x : Str) : State :=
  let s := s.updStr x fun c =>
    let c := ((c.setXfer none).setRole rACTIVE).setFld Reg.RED_XFER F.RED_XFER.ABORT 1
    let c := c.addSat Reg.RED_CNT F.RED_CNT.C3 1
    { c with red := { c.red with verdict := false } }.reselect
  (s.settleOwed x).forceAct

/-- TRANSFER_REQUEST: N takes a TRANSFER and replies ACCEPT or REFUSE (R291 step 2). -/
def transferRequest (s : State) (x : Str) : State :=
  match s.receive x (fun m => match m with | .transfer ft k => some (ft, k) | _ => none) with
  | none => s
  | some ((ft, k), s) =>
    s.updStr x fun c =>
      let c := { c with red := { c.red with blamedAt := none } }
      if c.role = rSTANDBY ∧ c.impaired = false ∧ c.time + 10 * usT ≤ ft then
        (c.setXfer (some ⟨ft, k, true, false, false, c.time⟩)).send (.accept ft)
      else c.send (.refuse ft)

/-- TRANSFER_ACCEPT: O takes what N answers. On an ACCEPT of its transfer by FT - 6 us it claims no more (R291 steps 3 and 4); a REFUSE or an
ABORT leaves it without one. -/
def transferAccept (s : State) (x : Str) : State :=
  match s.receive x (fun m => match m with
      | .accept ft => some (some ft)
      | .refuse _ => some none
      | .abort _ => some none
      | _ => none) with
  | none => s
  | some (got, s) =>
    s.updStr x fun c => match c.red.xfer with
      | some v =>
        if v.giving ∧ got = some v.ft ∧ c.time + 6 * usT ≤ v.ft then (c.setXfer (some { v with accepted := true })).reselect else c
      | none => c

/-- TRANSFER_DEASSERT (R291 step 4). -/
def transferDeassert (s : State) (x : Str) : State :=
  let c := s.str x
  match c.red.xfer with
  | some v =>
    if !v.giving ∨ c.role ≠ rHANDOVER then s
    else if v.accepted then (if v.ft ≤ c.time + 5 * usT then (s.updStr x fun c => c.setLine false).capoSettle else s)
    else if v.ft ≤ c.time + 6 * usT then s.abortXfer x
    else s
  | none => s

/-- TRANSFER_ASSERT (R291 step 5). -/
def transferAssert (s : State) (x : Str) : State :=
  let c := s.str x
  let deny : Bool := match (s.str x.other).red.xfer with | some w => w.giving && w.deny | none => s.forced x
  match c.red.xfer with
  | some v =>
    if v.giving ∨ c.role ≠ rSTANDBY then s
    else if c.time + 3 * usT ≤ v.ft ∧ !deny then
      (if s.partnerLow x ∧ c.takeWindow = some v.ft then (s.updStr x fun c => c.setLine true).capoSettle else s)
    else if c.red.line then s
    else s.updStr x fun c => (c.setXfer none).send (.abort v.ft)
  | none => s

/-- TRANSFER_REASSERT_CHECK (R291 step 6). -/
def transferCheck (s : State) (x : Str) : State :=
  let c := s.str x
  match c.red.xfer with
  | some v =>
    if v.giving ∧ c.red.line = false ∧ v.ft ≤ c.time + 2 * usT + 500 * nsT ∧ (s.str x.other).red.line = false then
      ((s.updStr x fun c => c.setLine true).abortXfer x).capoSettle
    else s
  | none => s

/-- TRANSFER_COMPLETE: at FT string `x`, which has the line, is ACTIVE, and its partner, where it is still in HANDOVER, is STANDBY,
FAILED or IDLE by the cause (R291 steps 8 and 9). A force that has fallen meanwhile is judged on the new role (R304). -/
def transferComplete (s : State) (x : Str) : State :=
  let n := s.str x
  let o := s.str x.other
  match n.red.xfer with
  | some v =>
    if v.giving = false ∧ n.role = rSTANDBY ∧ n.red.line ∧ o.red.line = false ∧ v.ft ≤ n.time then
      let s := s.takeOver x
      let s := s.updStr x fun c => { c with red := { c.red with claimFrom := v.ft, xfer := none, blamedAt := none, verdict := false } }
      let s := s.updStr x.other fun c =>
        if c.role = rHANDOVER then
          let c := { c with red := { c.red with xfer := none, verdict := false } }
          (if v.cause = 3 then c.toFailed else if v.cause = 4 then c.toIdle else followOn c).setFld Reg.RED_CAPOSTAT
            F.RED_CAPOSTAT.PJOINED 0
        else c
      let s := if (s.str x.other).role = rSTANDBY then s.updStr x fun c => c.setFld Reg.RED_CAPOSTAT F.RED_CAPOSTAT.PJOINED 1
        else s.runAlone x
      let s := s.updBoth fun c => c.noteXfer v.cause v.ft
      let s := if v.cause = 1 ∨ v.cause = 2 then s.updBoth fun c => c.occur 17 0 else s
      ((s.updStr x StringSt.reselect).capoSettle.settleOwed x).forceAct
    else s
  | none => s

/-! ## Joining (R293 to R295) -/

def joinStep (c : StringSt) (n : Nat) : StringSt := c.setFld Reg.RED_JOIN F.RED_JOIN.STEP n

/-- A join ends in IDLE (R294), and the active string claims again. -/
def joinFail (s : State) (x : Str) (cause : Nat) : State :=
  let s := s.updStr x fun c => joinStep (c.toIdle.setFld Reg.RED_JOIN F.RED_JOIN.JCAUSE cause) 0
  s.updStr x.other fun c => if c.holds then (joinStep { c with red := { c.red with joinHeld := false } } 0).reselect else c

/-- Step 1 of the join, as soon as the time of the joining string is LOCKED on its partner's (14_time.md R332). -/
def joinSend (c : StringSt) : StringSt :=
  if c.role = rJOINING ∧ c.fld Reg.RED_JOIN F.RED_JOIN.STEP = 0 ∧ c.timeState = 2 ∧ c.esrcNow = 1 then
    (joinStep c 1).send
      (.joinReq ((List.range 8).map fun i => c.rd (Reg.SEC_FWMEAS i)) ((List.range 8).map fun i => c.rd (Reg.FAB_DIGEST i)))
  else c

/-- IDLE to JOINING (R285), and step 1. -/
def startJoin (s : State) (x : Str) : State :=
  let c := s.str x
  if c.role = rIDLE ∧ c.brgUp ∧ c.fld Reg.RED_CAPOSTAT F.RED_CAPOSTAT.PROLE = rACTIVE then
    s.updStr x fun c => joinSend (joinStep (c.setRole rJOINING) 0)
  else s

/-- JOINREQ at string `x` (R293 step 2, R294). -/
def joinReq (s : State) (x : Str) : State :=
  match s.receive x (fun m => match m with | .joinReq a b => some (a, b) | _ => none) with
  | none => s
  | some ((img, dig), s) =>
    s.updStr x fun c =>
      let own := (List.range 8).map fun i => c.rd (Reg.FAB_DIGEST i)
      let step := c.fld Reg.RED_JOIN F.RED_JOIN.STEP
      if c.role ≠ rACTIVE ∨ (1 ≤ step ∧ step ≤ 14) ∨ c.joined then c.send (.joinReply 4 own none)
      else if img ≠ (List.range 8).map fun i => c.rd (Reg.SEC_FWMEAS i) then c.send (.joinReply 1 own none)
      else
        let l := if dig = own then [] else c.bytes fabBase (c.rd Reg.FAB_RXLEN)
        (joinStep { c with red := { c.red with bundle := l.length } } 2).send (.joinReply 0 own (if dig = own then none else some l))

/-- What ends a join in a later step (R294): the partner is not ACTIVE any more, or the joining string's health is impaired. -/
def joinBad (s : State) (x : Str) : Option Nat :=
  if (s.str x.other).role ≠ rACTIVE then some 4 else if (s.str x).impaired then some 6 else none

/-- JOIN_REPLY at the joining string `x` (R293 step 3). -/
def joinReply (s : State) (x : Str) : State :=
  if (s.str x).role ≠ rJOINING then s
  else match s.receive x (fun m => match m with | .joinReply k d b => some (k, d, b) | _ => none) with
  | none => s
  | some ((cause, dig, bundle), s) =>
    if cause ≠ 0 then s.joinFail x cause
    else match s.joinBad x with
    | some k => s.joinFail x k
    | none =>
      let (ok, s) := match bundle with
        | some l =>
          let s := s.updStr x fun c =>
            { (c.setBytes fabBase l).wr Reg.FAB_RXLEN l.length with red := { c.red with bundle := l.length } }
          s.judgeLoad x l.length false
        | none => (true, s.updStr x fun c => { c with red := { c.red with bundle := 0 } })
      if ok ∧ dig = (List.range 8).map (fun i => (s.str x).rd (Reg.FAB_DIGEST i)) then
        let s := s.updStr x fun c => joinStep c 4
        s.updStr x.other fun c => joinStep { c with red := { c.red with joinHeld := true } } 4
      else s.joinFail x 2

/-- JOIN_CLAIM_DRAIN at the active string `x` (R293 steps 4 and 5): every claimed phrase has its record posted and its effect frame
passed, and staged crosstalk rows are written. -/
def joinDrain (s : State) (x : Str) : State :=
  let c := s.str x
  if c.holds ∧ c.red.joinHeld ∧ c.fld Reg.RED_JOIN F.RED_JOIN.STEP = 4 ∧ c.inFlight.isEmpty ∧ c.ring.recs.isEmpty ∧
      c.rte.staged.isEmpty ∧ c.cal.commit.isNone then
    (s.updStr x fun c => joinStep c 5).updStr x.other fun c => joinStep c 5
  else s

/-- Memory that the bulk state holds (R295): first address and length. -/
def bulkMem (c : StringSt) : List (Nat × Nat) :=
  [(0x00D80000, 0x80000), (0x00900000, 0x100000), (0x00A00000, 0x200000), (0x00DA8000, 0x20000), (0x00E18000, 0xC0000),
   (0x00600000, 0x110000), (0x00ED8000, 0x25000), (0x00E00000, 0x10000), (0x00400000, 0x100000)] ++
  ((List.range 128).filter fun k => decide (c.slotState k ≠ slFREE)).map fun k => (slotEnts k, 0x10000)

/-- Registers that the bulk state holds (R295, R445): blocks and single registers, as first offset and length. -/
def bulkRegs : List (Nat × Nat) :=
  [(0x1000, 0x218), (0x8000, 0x8000), (0x10000, 0x1000), (0x11000, 0x38), (0x12004, 4), (0x1200C, 4), (Reg.PWR_CFG, 4),
   (Reg.PWR_REQ, 4), (Reg.PWR_WAKENS, 4), (Reg.PWR_WAKESL, 4), (Reg.AGE_CFG, 4), (Reg.AGE_THR, 4), (0x21000, 0x1000), (0x22000, 0x1000),
   (Reg.XT_CFG, 4), (Reg.XT_MSEL, 4), (Reg.ICT_EPOCH, 0x1C), (Reg.ICT_TSTR 0, 0x140)]

def inRange (l : List (Nat × Nat)) (a : Nat) : Bool := l.any fun r => decide (r.1 ≤ a) && decide (a < r.1 + r.2)

/-- String `y` takes the bulk state of string `c` (R295). -/
def takeBulk (c y : StringSt) : StringSt :=
  let keep := y.sram.filter fun e => !inRange (bulkMem c) e.1 && !(decide (0x00800000 ≤ e.1 ∧ e.1 < 0x00900000) && decide (e.1 % 64 < 16))
  let new := c.sram.filter fun e => inRange (bulkMem c) e.1 || (decide (0x00800000 ≤ e.1 ∧ e.1 < 0x00900000) && decide (e.1 % 64 < 16))
  let sram := new.foldl (fun m e => Tab.insert m e.1 e.2) keep
  let y := { y with sram := sram }
  let offs := (c.regs.map (·.1) ++ y.regs.map (·.1)).filter fun o => inRange bulkRegs o
  let y := offs.foldl (fun y o => y.wr o (c.rd o)) y
  { y with
    ring := { c.ring with kept := [], dbWait := [], recs := [], flights := [] }
    plan := { c.plan with arming := [], withdrawing := [], strokes := c.plan.strokes ++ (c.plan.arming.map (·.stroke)) }
    rte := c.rte
    net := { y.net with peers := c.net.peers }
    cal := { y.cal with work := [], nOpen := 0, shut := none, commit := none }
    eng := { y.freshJobs.eng with sets := c.eng.sets, snaps := c.eng.snaps, cfgAt := c.eng.cfgAt } }

/-- JOIN_BULK_STATE at the joining string `x` (R293 steps 5 and 6): the bulk state, and the host pegs that differ. -/
def joinBulk (s : State) (x : Str) : State :=
  let c := s.str x
  let p := s.str x.other
  if c.role ≠ rJOINING ∨ c.fld Reg.RED_JOIN F.RED_JOIN.STEP ≠ 5 then s
  else match s.joinBad x with
  | some k => s.joinFail x k
  | none =>
    let bytes := (bulkMem p).foldl (fun n r => n + r.2) c.red.bundle
    let c := takeBulk p c
    let host := fun (e : Nat × Word) => decide (0x70040000 ≤ e.1)
    let addrs := ((p.pegs.filter host).map (·.1) ++ (c.pegs.filter host).map (·.1)).foldl setIns []
    let (st, c) := c.pegWrites ((addrs.filter fun a => decide (c.peg a ≠ p.peg a)).map fun a => (a, p.peg a))
    let units := (bytes + 262143) / 262144
    let s := s.setStr x (joinStep (c.setFld Reg.RED_JOIN F.RED_JOIN.BULK units) 6)
    let s := s.updStr x.other fun c => joinStep (c.setFld Reg.RED_JOIN F.RED_JOIN.BULK units) 6
    if st = sOK then s else s.joinFail x 5

/-- Words 4 to 12 of a block's loop records, its feed-forward values and what is kept of its latest frames, as a cut copies them (R293 step 7,
R297; log entry 53). -/
def copyLoops (p c : StringSt) (l : List Nat) : StringSt :=
  l.foldl (fun c a =>
    let c := c.setWords (loopRec a + 16) (p.words (loopRec a + 16) 9)
    { c with eng := { c.eng with
      ff := Tab.set (fun _ => []) c.eng.ff a (Tab.get (fun _ => []) p.eng.ff a)
      logs := Tab.set (fun _ => []) c.eng.logs a (Tab.get (fun _ => []) p.eng.logs a)
      cfgAt := Tab.set (fun _ => 0) c.eng.cfgAt a (Tab.get (fun _ => 0) p.eng.cfgAt a) } }) c

/-- The crosstalk jobs of block `j` that string `p` has still to run are those of string `c` (R293 step 8). -/
def copyXt (p c : StringSt) (j : Nat) : StringSt :=
  let own := (c.eng.xt.map fun q => { q with left := setDel q.left j }).filter fun q => !q.left.isEmpty
  let c := { c with eng := { c.eng with xt := own, snaps := p.eng.snaps } }
  (p.eng.xt.filter fun q => q.left.contains j).foldl (fun c q =>
    let more := match c.eng.xt.find? fun r => r.key == q.key with | some r => r.left | none => []
    c.xtAdd { q with left := setIns more j }) c

/-- The cut of block `j`: string `c` has the state of string `p` at its latest written-back frame, and catches up from there (R293 steps 7 and 8,
R206). -/
def cutBlock (p c : StringSt) (j : Nat) : StringSt :=
  let c := copyXt p (copyLoops p c (upFrom (32 * j) 32)) j
  { c with eng := { (c.fallBehind j).eng with
    done := Tab.set (fun _ => none) c.eng.done j (Tab.get (fun _ => none) p.eng.done j)
    wait := Tab.set (fun _ => []) c.eng.wait j (p.waitOf j)
    part := Tab.set (fun _ => none) c.eng.part j (Tab.get (fun _ => none) p.eng.part j) } }

/-- JOIN_LOOP_CUT: the joining string `x` takes the cut of block `j` and catches up from its frame (R293 steps 7 and 8, R294). -/
def loopCut (s : State) (x : Str) (j : Nat) : State :=
  let c := s.str x
  let p := s.str x.other
  let step := c.fld Reg.RED_JOIN F.RED_JOIN.STEP
  if c.role ≠ rJOINING ∨ step < 6 ∨ 8 < step then s
  else match s.joinBad x with
  | some k => s.joinFail x k
  | none =>
    let old : Bool := match Tab.get (fun _ => none) p.eng.done j, (c.hist (j / 64)).getLast? with
      | some f, some r => decide (f + 1 < r.frame)
      | _, _ => false
    if old && !(p.blkLoops j).isEmpty then s.joinFail x 7
    else s.updStr x fun c => joinStep { cutBlock p c j with red := { c.red with cut := setIns c.red.cut j } } 8

/-- Every block with running loops has been cut and has caught up with the active string (R293 step 8). -/
def blocksCurrent (c p : StringSt) : Bool :=
  (List.range 512).all fun j => (p.blkLoops j).isEmpty ||
    (c.red.cut.contains j && decide (c.lastJob j = p.lastJob j ∧ c.waitOf j = p.waitOf j))

/-- JOIN_BLOCK_CURRENT: every block of the joining string `x` is current; it becomes STANDBY, applies the tiles' stroke reports itself from now on, and
COMPARE comes on (R293 steps 9 and 10). -/
def joinDone (s : State) (x : Str) : State :=
  let c := s.str x
  let p := s.str x.other
  if c.role ≠ rJOINING ∨ c.fld Reg.RED_JOIN F.RED_JOIN.STEP < 6 then s
  else match s.joinBad x with
  | some k => s.joinFail x k
  | none =>
    if !blocksCurrent c p then s else
    let fj := ceilTo frameT (p.time + 20 * usT)
    let held := c.red.reports
    let s := s.updStr x fun c => joinStep { c.setRole rSTANDBY with red := { c.red with cut := [], reports := [] } } 15
    let s := held.foldl (fun s r => s.setStr x (s.takeReport x r.1 r.2.1 r.2.2.1 r.2.2.2)) s
    let s := s.updStr x.other fun c =>
      (joinStep { c.setFld Reg.RED_CAPOSTAT F.RED_CAPOSTAT.PJOINED 1 with red := { c.red with joinHeld := false } } 15).reselect
    s.eachTile fun n s => s.updTile n fun d => { d with cmpFrom := some (frameOf fj), cmpOff := none }

/-! ## Health and verdicts (R297 to R299) -/

/-- A flag of the health report stands: it was raised in the 1.024 ms before. -/
def flagNow (c : StringSt) (i : Nat) : Bool :=
  match Tab.get (fun _ => (none : Option Nat)) c.red.flagAt i with
  | some t => decide (c.time ≤ t + sweepT)
  | none => false

/-- Conditions that last are raised again at each report (R298, R305). -/
def lasting (c : StringSt) : StringSt :=
  let c := if (List.range 4).any fun i => decide ((c.core i).run = .stopped) then c.markFlag 2 else c
  let late := c.alv.deadline.isSome && !c.alv.suspended && decide (c.hbLeft * 10 * (10 * usT) ≤ c.hbSpan)
  let c := if late then c.markFlag 2 else c
  let c := if c.flag (Reg.ALV_SRC 27) F.ALV_SRC.LIVE then c.markFlag 4 else c
  let c := if c.flag Reg.THM_STAT F.THM_STAT.MLVL then c.markFlag 6 else c
  if c.runningLoops.any fun a => (c.loopVal a).lost then c.markFlag 7 else c

/-- The report (R298): its flags, the tiles whose link had a fault, its number. -/
def healthWord (c : StringSt) : Nat :=
  let flags := (List.range 9).foldl (fun v i => if flagNow c i then v + 2 ^ i else v) 0
  let tiles := (List.range 8).foldl (fun v n => if flagNow c (16 + n) then v + 2 ^ n else v) 0
  flags + 65536 * tiles + 16777216 * ((bits (c.rd Reg.RED_HEALTH) 24 8 + 1) % 256)

/-- What the two sets of recent health say (R299): `x` is the active string, whose health is `own`. -/
def verdictOf (x : Str) (own its : Bool) : Verdict :=
  match own, its with
  | true, false => .blame x
  | false, true => .blame x.other
  | a, _ => .undecided a

/-- A judgement (R299): both strings form the verdict, and the active string carries it out; one that a transfer in progress holds up waits for its end,
but a role swap of the same grant gives way (R304). None starts while a verdict is carried out. Without a joined standby there is no verdict between two
strings; a join that runs ends (R304). -/
def judge (s : State) : State :=
  match s.active with
  | none => s
  | some x =>
    let c := s.str x
    let p := s.str x.other
    if c.role = rACTIVE ∧ !c.joined ∧ p.role = rJOINING then s.joinFail x.other (if p.impaired then 6 else 4)
    else if !c.joined ∨ c.red.verdict ∨ c.red.owed.isSome then s
    else
      let v := verdictOf x c.impaired c.partnerImpaired
      let f := match v with
        | .blame y => if y = x then F.RED_VERD.C0 else F.RED_VERD.C1
        | .undecided _ => F.RED_VERD.C2
      let s := s.updBoth fun c => { c.addSat Reg.RED_VERD f 1 with red := { c.red with verdAt := some c.time } }
      match c.red.xfer with
      | none => s.carryOut x v
      | some w =>
        if (w.cause = 1 ∨ w.cause = 2) ∧ w.began = c.time ∧ !w.accepted then (s.yieldSwap x).carryOut x v
        else s.updBoth fun c => { c with red := { c.red with owed := some v } }

/-- A loop that is LOST in a string takes the partner's state in a cut of its block, the standby the active string's where it is lost in both;
LOST clears (R297). -/
def realign (s : State) (x : Str) (a : Nat) : State :=
  let la := ((s.str x).loopVal a).lost
  let lb := ((s.str x.other).loopVal a).lost
  let y := if lb then x.other else x
  if la ∨ lb then
    let s := s.updStr y fun c => cutBlock (s.str y.other) c (a / 32)
    s.updBoth fun c => (c.setLoopVal a { c.loopVal a with lost := false }).addSat Reg.RED_VERD F.RED_VERD.C3 1
  else s

/-- MISMATCH_REPORT: both strings take tile `n`'s next report of a mismatch, of a share digest, or of missing codes (R296 to R299). -/
def mismatchReport (s : State) (n : Nat) : State :=
  let p := fun (r : TRep) => match r with
    | .mismatch .. => some r
    | .digest .. => some r
    | .missCapo .. => some r
    | _ => none
  let d := s.tile n
  match takeFirst p d.toA with
  | none => s
  | some (r, la) =>
    let lb := match takeFirst p d.toB with | some (_, l) => l | none => d.toB
    let s := s.setTile n { d with toA := la, toB := lb }
    match r with
    | .mismatch a f ca cb =>
      let act := 2048 * n + a
      let s := s.updBoth fun c =>
        ((c.wr Reg.RED_MM (act + 32768)).wr Reg.RED_MMCODE (ca + 65536 * cb)).wr Reg.RED_MMFR (f % 4294967296)
      match s.active with
      | some x =>
        if ((s.str x).loopVal act).lost ∨ ((s.str x.other).loopVal act).lost then s.realign x act else s.judge
      | none => s
    | .digest k _ => (s.updBoth fun c => c.wr Reg.RED_MM (k + 16384 + 32768)).judge
    | .missCapo _ _ =>
      match s.active with
      | some x =>
        let c := s.str x
        if max 1 (c.fld Reg.RED_CFG F.RED_CFG.MISSTHR) ≤ Tab.get (fun _ => 0) c.red.missDel n then s.judge else s
      | none => s
    | _ => s

/-- HEALTH_REPORT of string `x` (R298); a report with DIVERGE starts a judgement (R299). -/
def healthReport (s : State) (x : Str) : State :=
  let s := s.updStr x fun c =>
    let c := lasting c
    let w := healthWord c
    { c.wr Reg.RED_HEALTH w with red := { c.red with mine := (w :: c.red.mine).take 11, healthAt := c.time } }
  let w := (s.str x).rd Reg.RED_HEALTH
  let s := if (s.str x).brgUp then
      s.updStr x.other fun c => { c.wr Reg.RED_PHEALTH w with red := { c.red with its := (w :: c.red.its).take 11 } }
    else s
  if bit w 8 then s.judge else s

/-- VERDICT_TIMEOUT: the standby `x` blamed the active string and received no TRANSFER within 50 us (R299). -/
def verdictTimeout (s : State) (x : Str) : State :=
  let c := s.str x
  match c.red.blamedAt with
  | some b =>
    if c.role = rSTANDBY ∧ b + 50 * usT ≤ c.time then (s.dropStandby x.other).updStr x fun c => c.occur 16 0 else s
  | none => s

/-- A planned transfer with cause swap, where R301 allows one; otherwise it is skipped and counted. -/
def swap (s : State) (x : Str) (cause : Nat) : State :=
  let c := s.str x
  let step := c.fld Reg.RED_JOIN F.RED_JOIN.STEP
  if c.joined ∧ c.role = rACTIVE ∧ !c.impaired ∧ !c.partnerImpaired ∧ !c.red.verdict ∧ c.red.owed.isNone ∧ !(1 ≤ step ∧ step ≤ 14) then s.startTransfer x cause
  else s.updStr x fun c =>
    { c.addSat Reg.RED_CNT F.RED_CNT.C2 1 with red := { c.red with skipAt := if cause = 1 then some c.time else c.red.skipAt } }

/-- ROLE_SWAP_DUE (R301). One that meets a verdict in one grant waits for the next interval (R304). -/
def swapDue (s : State) (x : Str) : State :=
  let c := s.str x
  let h := min 720 (c.fld Reg.RED_SWAP F.RED_SWAP.HOURS)
  let again : Bool := match c.red.skipAt with | some t => decide (t + 60 * secT ≤ c.time) | none => true
  if c.holds ∧ h ≠ 0 ∧ c.red.capoAt + h * 3600 * secT ≤ c.time ∧ again then
    if c.red.verdAt = some c.time then s.updStr x fun c => { c with red := { c.red with capoAt := c.time } } else s.swap x 1
  else s

/-- PARTNER_RESET_REQUEST: the second case of R286. -/
def resetRequest (s : State) (x : Str) : State :=
  let c := s.str x
  let silent : Bool := match c.red.hbAt with | some t => decide (t + 100 * usT ≤ c.time) | none => true
  if c.role = rSTANDBY ∧ (s.str x.other).red.line ∧ silent ∧
      (List.range 8).all fun n => decide (16 ≤ Tab.get (fun _ => 0) c.red.missAny n) then s.updStr x askReset
  else s

/-! ## The bridge link (R303, R306) -/

/-- BRIDGE_LINK_DOWN (R285, R294, R303). -/
def linkDown (s : State) : State :=
  if !s.a.brgUp && !s.b.brgUp then s else
  let s := s.updBoth fun c =>
    let c := (c.wr Reg.BRG_STAT 0).setFld Reg.RED_CAPOSTAT F.RED_CAPOSTAT.PROLE 0
    let c := { c with outbox := [], red := { c.red with hbAt := none } }
    (c.wr Reg.TIME_PART 0x80000000).occurLive 25 0
  let s := if (s.str .a).role = rJOINING then s.joinFail .a 3 else if (s.str .b).role = rJOINING then s.joinFail .b 3 else s
  match s.active with
  | some x => if (s.str x).joined then s.dropStandby x else s
  | none => s.updBoth fun c => if c.role = rSTANDBY then c.toIdle.clearLost else c

/-- BRIDGE_LINK_UP with the lanes that are in use (R306). -/
def linkUp (s : State) (lanes : Nat) : State :=
  if lanes % 4 = 0 then s else s.updBoth fun c => (c.wr Reg.BRG_STAT (1 + 4 * (lanes % 4))).live 25 false

/-- BRIDGE_HEARTBEAT at string `x`: the partner's heartbeat and role, and the frames with a bad link check and those sent again since the one before
(R306). A string in IDLE joins an ACTIVE partner with AUTOJOIN = 1 (R285), unless its last join failed (R294); a join ends where the partner is not
ACTIVE any more; the active string drops a standby that is none any more, and requests a reset of one that has failed (R285, R303). -/
def heartbeatIn (s : State) (x : Str) (crc retry : Nat) : State :=
  if (s.str x).brgUp then
    let r := (s.str x.other).role
    let s := s.updStr x fun c =>
      let c := { c with red := { c.red with hbAt := some c.time } }.setFld Reg.RED_CAPOSTAT F.RED_CAPOSTAT.PROLE r
      (c.addSat Reg.BRG_CNT F.BRG_CNT.CRCERR crc).addSat Reg.BRG_CNT F.BRG_CNT.RETRY retry
    let c := s.str x
    if c.role = rJOINING then
      match s.joinBad x with
      | some k => s.joinFail x k
      | none => s.updStr x joinSend
    else if c.role = rACTIVE ∧ c.joined ∧ r ≠ rSTANDBY then
      let s := s.runAlone x
      if r = rFAILED then s.updStr x askReset else s
    else if c.flag Reg.RED_CFG F.RED_CFG.AUTOJOIN ∧ c.fld Reg.RED_JOIN F.RED_JOIN.JCAUSE = 0 then s.startJoin x
    else s
  else s

/-- A store of 1 to RED_CTL.SWAP on the active string (R301). -/
def swapNow (s : State) (x : Str) : State := if (s.str x).holds then s.swap x 2 else s

/-- A store of 1 to RED_CTL.DROP on the active string (R285). -/
def dropNow (s : State) (x : Str) : State := if (s.str x).holds then s.dropStandby x else s

/-- JOIN_RETRY of string `x` (R294). -/
def joinRetry (s : State) (x : Str) : State :=
  let c := s.str x
  if c.role = rIDLE ∧ c.flag Reg.RED_CFG F.RED_CFG.AUTOJOIN ∧ c.fld Reg.RED_JOIN F.RED_JOIN.JCAUSE ≠ 0 ∧ c.takeDue then s.startJoin x else s

/-! ## Self-tests (R300) -/

/-- The regions whose digest the strings compare: coefficient sets, crosstalk matrix, route tables, calibration record. -/
def divergeDigest (c : StringSt) : List Byte :=
  sha256 (c.bytes 0x00900000 0x100000 ++ c.bytes 0x00A00000 0x200000 ++ c.bytes 0x00D80000 0x28000 ++ c.bytes calBase calSize)

/-- SELF_TEST of string `x` (R300). -/
def selfTest (s : State) (x : Str) : SelfTest → State
  | .scrub b word corr bad =>
    s.updStr x fun c =>
      let a := b * 0x200000 + 4 * word
      let c := c.setFld (Reg.SRB_SCRUB b) F.SRB_SCRUB.SCRUB ((word + 1) % 524288)
      let c := if corr then (c.addSat (Reg.SRB_CNT b) F.SRB_CNT.CORR 1).occur 6 a else c
      if bad then (((c.addSat (Reg.SRB_CNT b) F.SRB_CNT.UNCORR 1).wr (Reg.SRB_LASTERR b) a).markFlag 0).occur 5 a else c
  | .signature i good => s.updStr x fun c => if good ∨ (c.core i).busy then c else (c.markFlag 3).occur 24 0
  | .crypto good => s.updStr x fun c => if good then c else (c.markFlag 3).occur 24 0
  | .digest =>
    if (s.str x).holds ∧ (s.str x).joined ∧ divergeDigest (s.str x) ≠ divergeDigest (s.str x.other) then
      s.updBoth fun c => c.markFlag 8
    else s

end State

def execCapoTake (x : Str) (t : Nat) (s : State) : Out := .next ((s.advance t).capoTake x)
def execCapoSeize (x : Str) (t : Nat) (s : State) : Out := .next ((s.advance t).capoSeize x)
def execTransferRequest (x : Str) (t : Nat) (s : State) : Out := .next ((s.advance t).transferRequest x)
def execTransferAccept (x : Str) (s : State) : Out := .next (s.transferAccept x)
def execTransferDeassert (x : Str) (t : Nat) (s : State) : Out := .next ((s.advance t).transferDeassert x)
def execTransferAssert (x : Str) (t : Nat) (s : State) : Out := .next ((s.advance t).transferAssert x)
def execTransferReassertCheck (x : Str) (t : Nat) (s : State) : Out := .next ((s.advance t).transferCheck x)
def execTransferComplete (x : Str) (t : Nat) (s : State) : Out := .next ((s.advance t).transferComplete x)

/-- CAPO_FORCE_N goes low, deglitched (R292). -/
def execCapoForceFall (t : Nat) (s : State) : Out := .next ({ s.advance t with capoForceN := false }).forceAct

/-- CAPO_FORCE_N returns high (R292). -/
def execCapoForceRise (s : State) : Out := .next { s with capoForceN := true }

/-- RED_CTL.READY of string `x` (R285). -/
def execRedCtlReady (x : Str) (t : Nat) (s : State) : Out := .next ((s.advance t).updStr x StringSt.redReady)

def execRedCtlJoin (x : Str) (s : State) : Out := .next (s.startJoin x)

/-- RED_CTL.TAKE (R288). -/
def execRedCtlTake (x : Str) (s : State) : Out := .next (s.updStr x StringSt.askTake)

/-- RED_CTL.SWAP (R301). -/
def execRedCtlSwap (x : Str) (t : Nat) (s : State) : Out := .next ((s.advance t).swapNow x)

/-- RED_CTL.DROP (R285). -/
def execRedCtlDrop (x : Str) (s : State) : Out := .next (s.dropNow x)

def execJoinreq (x : Str) (s : State) : Out := .next (s.joinReq x)
def execJoinReply (x : Str) (s : State) : Out := .next (s.joinReply x)
def execJoinClaimDrain (x : Str) (s : State) : Out := .next (s.joinDrain x)
def execJoinBulkState (x : Str) (s : State) : Out := .next (s.joinBulk x)
def execJoinLoopCut (x : Str) (j : Fin 512) (s : State) : Out := .next (s.loopCut x j.val)
def execJoinBlockCurrent (x : Str) (t : Nat) (s : State) : Out := .next ((s.advance t).joinDone x)
def execJoinRetry (x : Str) (t : Nat) (s : State) : Out := .next ((s.advance t).joinRetry x)
def execMismatchReport (n : Fin 8) (t : Nat) (s : State) : Out := .next ((s.advance t).mismatchReport n.val)
def execVerdictTimeout (x : Str) (t : Nat) (s : State) : Out := .next ((s.advance t).verdictTimeout x)
def execHealthReport (x : Str) (t : Nat) (s : State) : Out := .next ((s.advance t).healthReport x)
def execRoleSwapDue (x : Str) (t : Nat) (s : State) : Out := .next ((s.advance t).swapDue x)
def execPartnerResetRequest (x : Str) (t : Nat) (s : State) : Out := .next ((s.advance t).resetRequest x)
def execBridgeLinkDown (t : Nat) (s : State) : Out := .next (s.advance t).linkDown.capoSettle
def execBridgeLinkUp (lanes : Fin 4) (s : State) : Out := .next (s.linkUp lanes.val)
def execBridgeHeartbeat (x : Str) (h : Beat) (s : State) : Out :=
  .next ((s.advance h.t).heartbeatIn x h.crc.toNat h.retry.toNat).capoSettle
/-- SELF_TEST (R300). -/
def execSelfTest (x : Str) (k : SelfTest) (s : State) : Out := if k.ok then .next (s.selfTest x k) else .fault .malformed

end Sys2Proof.Machine
end

