-- ==== Sys2Proof/Machine/Peek.lean ====
section
/-! DEFINITION. What a read of a register returns before anything the read itself does: the stored word with the fields that follow
from other state (20_register_map.md R443, and each block's layout). -/

namespace Sys2Proof.Machine
namespace StringSt

/-- SEQ_CORESTAT[i] (02_quinli_isa.md). -/
def coreStat (c : StringSt) (i : Nat) : Nat :=
  let k := c.core i
  let run := match k.run with | .notReleased => 0 | .running => 1 | .waiting => 2 | .halted => 3 | .stopped => 4
  k.pl + 4 * b2n k.sec + 8 * b2n k.tf + 16 * b2n (bit k.status.toNat 5) + 32 * run + 256 * k.ring + 4096 * b2n k.pcx

/-- RING_STAT[n] (R93 and its layout). -/
def ringStat (c : StringSt) (n : Nat) : Nat :=
  let w := c.rd (Reg.RING_STAT n)
  putBit (putBit (putBit w 16 (c.ringEn n)) 18 (c.flight n).isSome) 19 (decide (c.role = rSTANDBY))

/-- RING_CLAIM: the phrase that is ready to be claimed. -/
def ringClaim (c : StringSt) : Nat :=
  match StringSt.nextPhrase 4096 c with
  | some (n, k) => n + 16 * k + 2147483648
  | none => 0

/-- The fields of an engine whose domain is off read 0 but for ROLE and FCAUSE (R210). -/
def engRoleWord (c : StringSt) (e : Nat) : Nat :=
  let w := c.rd (Reg.ENG_ROLE e)
  let w := putBits w 8 10 (c.blocksOf e).length
  if c.domOn (5 + e) then w else putBits (putBit w 2 false) 8 10 0

def engLoadWord (c : StringSt) (e : Nat) : Nat :=
  if c.domOn (5 + e) then putBits (c.rd (Reg.ENG_LOAD e)) 0 16 (min 65535 (c.demand e / 1000000)) else 0

def engLatWord (c : StringSt) (e : Nat) : Nat := if c.domOn (5 + e) then c.rd (Reg.ENG_LAT e) else 0

def engStat (c : StringSt) : Nat :=
  let n := fun (r : Nat) => ((List.range 36).filter fun e => decide (c.role_ e = r)).length
  n 0 + 64 * n 1 + 4096 * n 2 + 262144 * ((List.range 512).filter c.unplaced).length

/-- Free stroke buffers as this string knows them, and the calendar's reservation (R257). -/
def planSbuf (c : StringSt) : Nat :=
  (List.range 8).foldl (fun v n => v + 2 ^ (4 * n) * ((4 - (c.holding n true + c.holding n false)) + 8 * b2n c.calReserved)) 0

/-- PLAN_NEXT: the head slot of the next stroke to play. -/
def planNext (c : StringSt) : Nat :=
  let l := c.plan.strokes.filter fun k => !k.began && !k.withdrawn && !k.past
  match sortBy (fun (a b : Stroke) => decide (a.ts < b.ts ∨ (a.ts = b.ts ∧ a.armSeq ≤ b.armSeq))) l with
  | k :: _ => k.slot + 2147483648
  | [] => 0

def planArmstat (c : StringSt) : Nat :=
  let n := fun (st : Nat) => ((List.range 128).filter fun k => decide (c.slotState k = st)).length
  n slFREE + 256 * n slOPEN + 65536 * n slSEALED + 16777216 * n slARMED

/-- ALV_SRC[src].LIVE (R367): kept for the string's own sources, followed for the others. -/
def pendWord (c : StringSt) (w : Nat) : Nat := (List.range 32).foldl (fun v b => if c.pendSrc (32 * w + b) then v + 2 ^ b else v) 0

/-- ALV_SUM. -/
def alvSum (c : StringSt) : Nat :=
  let l := (List.range 160).filter c.pendSrc
  let some := fun (sev : Nat) => l.any fun i => severity i == some sev
  c.fld Reg.ALV_SUM F.ALV_SUM.LSEQ + 65536 * b2n (some 3) + 131072 * b2n (some 2) + 262144 * b2n (some 1) + 524288 * b2n (some 0) +
    16777216 * l.length

/-- ALV_HBSTAT (R374, R375). -/
def hbStat (c : StringSt) : Nat :=
  let low := match c.alv.deadline, c.alv.minLeft with
    | some _, some m => min m c.hbLeft
    | some _, none => c.hbLeft
    | none, some m => m
    | none, none => 0
  c.hbLeft + 4096 * b2n c.alv.deadline.isSome + 8192 * b2n c.aliveOk + 16384 * b2n c.alv.suspended + 65536 * low

/-- A word of 32 channel bits. -/
def chanBits (p : Nat → Bool) (i : Nat) : Nat := (List.range 32).foldl (fun v b => if p (32 * i + b) then v + 2 ^ b else v) 0

/-- SEC_KEYS (R426). -/
def secKeys (c : StringSt) : Nat :=
  let cfg := (List.range 8).foldl (fun v k => if bit (c.keySlot k) 0 then v + 2 ^ k else v) 0
  let net := (List.range 8).foldl (fun v k => if c.netKeyValid k then v + 2 ^ k else v) 0
  cfg + 256 * net + 65536 * bits (c.peg 0x70000014) 4 4

/-! ## Streams (13_network.md R315) -/

/-- Record array of a stream's kind: base address, bytes of a record, records. -/
def kindArray (k : Nat) : Nat × Nat × Nat :=
  if k = 0 then (actRec 0, 64, 16384) else if k = 1 then (monRec 0, 32, 2048) else if k = 2 then (loopRec 0, 64, 16384) else (0, 64, 1)

/-- The configuration of stream `s` is valid (R315, R326). -/
def streamOk (c : StringSt) (s : Nat) : Bool :=
  let f := fun (q : Fld) => c.fld (Reg.ICT_TSTR s) q
  let kind := f F.ICT_TSTR.KIND
  let count := c.fld (Reg.ICT_TSRC s) F.ICT_TSRC.COUNT
  let arr := kindArray kind
  let key := c.netKeyWord (f F.ICT_TSTR.KEYID)
  decide (kind ≤ 4) && decide (f F.ICT_TSTR.QUEUE ≤ 5) && decide (f F.ICT_TSTR.PERIOD ≠ 0) && bit key 0 && bit key 12 &&
    decide (1 ≤ count ∧ count ≤ 4096) && decide (c.fld (Reg.ICT_TSRC s) F.ICT_TSRC.FIRST + count ≤ arr.2.2) &&
    (List.range 2).all fun n => !bit (f F.ICT_TSTR.PORTS) n ||
      decide (c.frameLen n ((if (c.streamPeer n s).v6 then 40 else 20) + 8 + 48 + 8 + count * arr.2.1) ≤ c.maxLen n)

/-- Port registers that follow from its queues (R318, R322). -/
def peekEth (c : StringSt) (n o : Nat) : Nat :=
  if Reg.ETH_QSTAT n 0 ≤ o ∧ o < Reg.ETH_QSTAT n 8 then
    let q := (o - Reg.ETH_QSTAT n 0) / 4
    let p := c.port n
    p.cells q + 8192 * b2n (c.headHeld n q) + 65536 * (p.deficit q % 65536)
  else if o = Reg.ETH_GCLCFG n then
    -- PEND until the first cycle start of the checked list (R319)
    let w := readFields (regFields o) (c.rd o)
    if (c.port n).next.any fun g => decide (g.2 ≤ c.time) then putBit w 8 false else w
  else if o = Reg.ETH_BUF n then
    let p := c.port n
    p.free c.time + 8192 * p.inflight c.time
  else readFields (regFields o) (c.rd o)

end StringSt

namespace State

/-- LIVE of tile source `k` of tile `n`, as the tile stands (R364, R367). -/
def tileLive (s : State) (c : StringSt) (n k : Nat) : Bool :=
  let d := s.tile n
  if k = 0 then c.flag (Reg.ALV_SRC (32 + 16 * n)) F.ALV_SRC.LIVE
  else if k = 3 then d.hold && decide (16 ≤ d.missRun)
  else if k = 4 then d.guarding
  else if k = 5 then d.chans.any fun e => bits e.2.live 0 5 ≠ 0
  else if k = 6 then d.mons.any fun e => e.2.liveOpen || e.2.liveShort
  else if k = 7 then (List.range 8).any fun i => bit (d.rd (Reg.TILE_THM i)) 25
  else if k = 9 then d.chans.any fun e => bit e.2.live 5
  else if k = 11 then d.mons.any fun e => e.2.liveOvr
  else false

/-- The word at offset `o` of string `x`'s register space, before what the read itself does. -/
def peek (s : State) (x : Str) (o : Nat) : Nat :=
  let c := s.str x
  let at_ := fun (base n : Nat) => decide (base ≤ o ∧ o < base + 4 * n)
  let ix := fun (base : Nat) => (o - base) / 4
  let raw := readFields (regFields o) (c.rd o)
  match o / 0x1000 with
  | 0x0 => raw
  | 0x1 =>
    if at_ (Reg.RING_STAT 0) 16 then c.ringStat (ix (Reg.RING_STAT 0))
    else if at_ (Reg.RING_DB 0) 16 then c.ringProd (ix (Reg.RING_DB 0))
    else if o = Reg.RING_CLAIM then c.ringClaim
    else raw
  | 0x2 => if at_ (Reg.SEQ_CORESTAT 0) 4 then c.coreStat (ix (Reg.SEQ_CORESTAT 0)) else raw
  | 0x4 =>
    if at_ (Reg.ENG_ROLE 0) 36 then c.engRoleWord (ix (Reg.ENG_ROLE 0))
    else if at_ (Reg.ENG_LAT 0) 36 then c.engLatWord (ix (Reg.ENG_LAT 0))
    else if at_ (Reg.ENG_LOAD 0) 36 then c.engLoadWord (ix (Reg.ENG_LOAD 0))
    else if o = Reg.ENG_STAT then c.engStat
    else raw
  | 0x10 =>
    if o = Reg.PLAN_ARMSTAT then c.planArmstat
    else if o = Reg.PLAN_SBUF then c.planSbuf
    else if o = Reg.PLAN_NEXT then c.planNext
    else if o = Reg.PLAN_CALNEXT_NS then (if 2 ≤ c.calState then nsOf c.plan.cycle else 0)
    else if o = Reg.PLAN_CALNEXT_SL then (if 2 ≤ c.calState then secOf c.plan.cycle % 4294967296 else 0)
    else raw
  | 0x11 => if o = Reg.CAL_STAT then putBit raw 0 c.calReady else raw
  | 0x12 =>
    if o = Reg.RED_CAPOSTAT then
      let raw := putBits raw 0 4 (s.lines + 4 * b2n c.red.line + 8 * b2n (!s.capoForceN))
      let raw := putBit raw 7 (bit raw 7 && decide ((s.str x.other).role = rSTANDBY))
      putBit raw 12 ((List.range 8).all fun n => (s.tile n).comparing)
    else raw
  | 0x13 => c.peekEth 0 o
  | 0x14 => c.peekEth 1 o
  | 0x15 =>
    if o = Reg.TIME_NS then nsOf c.time
    else if o = Reg.TIME_TXQ 0 ∨ o = Reg.TIME_TXQ 1 then putBits raw 0 5 (c.txq ((o - Reg.TIME_TXQ 0) / 16)).length
    else if o = Reg.TIME_TXID 0 ∨ o = Reg.TIME_TXID 1 then (c.readTxid ((o - Reg.TIME_TXID 0) / 16) false).1
    else if (List.range 4).any (fun i => decide (o = Reg.TIME_TOUTCFG i)) then
      putBit raw 29 (c.tout ((o - Reg.TIME_TOUTCFG 0) / 16)).next.isSome
    else if o = Reg.TIME_TCAPNS 0 ∨ o = Reg.TIME_TCAPNS 1 then (c.readTcap ((o - Reg.TIME_TCAPNS 0) / 16)).1
    else if o = Reg.TIME_TILE then
      (List.range 8).foldl (fun v n =>
        v + 2 ^ n * b2n ((s.tile n).domOn 0 && s.tileSynced n) + 2 ^ (8 + n) * b2n ((s.tile n).domOn 0 && (s.tile n).freeNow)) 0
    else raw
  | 0x16 =>
    if at_ (Reg.EVF_SEEN 0) 2 then StringSt.chanBits (fun ch => c.flag (Reg.EVF_CH ch) F.EVF_CH.SEEN) (ix (Reg.EVF_SEEN 0)) else raw
  | 0x18 =>
    if o = Reg.ALV_HBSTAT then c.hbStat
    else if o = Reg.ALV_SUM then c.alvSum
    else if o = Reg.ALV_LOG then putBits raw 0 8 (c.fld Reg.ALV_SUM F.ALV_SUM.LSEQ)
    else if o = Reg.ALV_SRC 9 then putBit raw 0 (c.runningLoops.any fun a => (c.loopVal a).lost)
    else if at_ (Reg.ALV_PEND 0) 5 then c.pendWord (ix (Reg.ALV_PEND 0))
    else if at_ (Reg.ALV_SRC 32) 128 then
      let i := ix (Reg.ALV_SRC 32)
      putBit raw 0 (s.tileLive c (i / 16) (i % 16))
    else raw
  | 0x1D =>
    if o = Reg.PEG_STAT then putBit raw 1 (!c.pegTempOk)
    else if o = Reg.PEG_WMAX then (let m := c.pegMax; m.2 + 2097152 * m.1)
    else if o = Reg.PEG_WCNT then Tab.get (fun _ => 0) c.wear (c.fld Reg.PEG_WSEL F.PEG_WSEL.PAGE)
    else raw
  | 0x1E =>
    if o = Reg.SEC_FWFLOOR then c.peg 0x70000000
    else if o = Reg.SEC_DSFLOOR then c.peg 0x70000004
    else if o = Reg.SEC_KYFLOOR then c.peg 0x70000008
    else if o = Reg.SEC_BOOTCNT then c.peg 0x7000000C
    else if o = Reg.SEC_KEYS then c.secKeys
    else raw
  | 0x1F =>
    if o = Reg.BRG_STAT then putBit raw 1 (c.red.hbAt.any fun t => decide (c.time ≤ t + 20 * usT)) else raw
  | 0x20 =>
    if o = Reg.DBG_STAT then
      putBits (putBit (putBit raw 0 (c.flag Reg.SEC_BOOT F.SEC_BOOT.DBGUNL)) 1 c.jtag) 2 4
        ((List.range 4).foldl (fun v i => if (c.core i).dbgHalt then v + 2 ^ i else v) 0)
    else raw
  | 0x22 =>
    if o = Reg.RTE_STAT then
      let n := c.rteCounts
      n.1 + 4096 * n.2.1 + 16777216 * n.2.2 + 2147483648 * b2n c.rteReady
    else raw
  | 0x23 =>
    if o = Reg.XT_STAT then ((List.range 16384).filter c.rowOn).length + 65536 * c.rte.staged.length else raw
  | 0x24 =>
    if at_ (Reg.ICT_TSTR 0) 16 then
      putBit raw 30 (c.flag o F.ICT_TSTR.EN && !c.streamOk (ix (Reg.ICT_TSTR 0)))
    else raw
  | p =>
    if 0x8 ≤ p ∧ p < 0x10 then (s.tile (p - 8)).view (o % 0x1000)
    else if 0x28 ≤ p ∧ p < 0x30 ∧ o % 0x1000 = 0 then
      let d := s.tile (p - 0x28)
      let up := d.domOn 0
      b2n up + 2 * (if up then 255 else 0) + 512 * b2n (d.capo == some x)
    else raw

end State
end Sys2Proof.Machine
end

