-- ==== Sys2Proof/Machine/NetRx.lean ====
section
/-! DEFINITION. Received frames: the filter and the policers of a port, the checks of an ICT message, and what each kind of frame draws
(13_network.md R307 to R317). -/

namespace Sys2Proof.Machine

/-- The number in `n` bytes from place `o`, most significant first, as Ethernet and IP fields are. -/
def beAt (l : List Byte) (o n : Nat) : Nat := ((l.drop o).take n).foldl (fun v b => 256 * v + b.toNat) 0

/-- Bytes that hold their own checksum sum to all ones. -/
def inetOk (l : List Byte) : Bool := inetSum l == 65535

/-- The policer that judges a frame (R317). -/
inductive Pol where
  | ict
  | ptp
  | address
  | other
  deriving DecidableEq, Repr

def Pol.idx : Pol → Nat
  | .ict => 0
  | .ptp => 1
  | .address => 2
  | .other => 3

/-- A frame that the filter of R307 accepts: its policer, what it is to the port, and the IP packet's parts. -/
structure Frame where
  pol : Pol
  /-- the kind of traffic that draws something; none: nothing in this model -/
  kind : Option RxKind
  v6 : Bool
  /-- source MAC, source address -/
  mac : List Byte
  ip : List Byte
  /-- source UDP port -/
  udp : Nat
  /-- UDP payload, or the ICMP bytes from the identifier on -/
  body : List Byte
  /-- the lengths of IP and UDP agree -/
  lens : Bool
  /-- checksums agree -/
  sound : Bool
  deriving DecidableEq, Repr

/-- The tag of a frame (R307, R317): VID, PCP, DEI, where it carries one. -/
structure VTag where
  vid : Nat
  pcp : Nat
  dei : Bool
  deriving DecidableEq, Repr

namespace StringSt

/-- An address is configured: an address of all zeros is off (R325). -/
def addrOn (l : List Byte) : Bool := l.any fun b => b != 0

def ictPort (c : StringSt) : Nat := c.fld Reg.ICT_CFG F.ICT_CFG.UDPPORT

/-- The policer and kind of a UDP datagram (R317); none where the port serves no such traffic (R307: DHCP). -/
def udpPol (c : StringSt) (v6 : Bool) (dport : Nat) : Option (Pol × Option RxKind) :=
  if dport = c.ictPort then some (.ict, some .ict)
  else if dport = 319 ∨ dport = 320 then some (.ptp, none)
  else if (!v6 ∧ dport = 68) ∨ (v6 ∧ dport = 546) then none
  else some (.other, none)

/-- The multicast MAC addresses of PTP over Ethernet: forwardable and non-forwardable (14_time.md R333). PRESUMED from IEEE 1588-2019, with the
addresses of the IP transports (log entry 103). -/
def ptpMac (dst : List Byte) : Bool := decide (dst = [0x01, 0x1B, 0x19, 0, 0, 0] ∨ dst = [0x01, 0x80, 0xC2, 0, 0, 0x0E])

/-- A multicast address of PTP over IPv4 whose MAC is `dst`. -/
def ptpIp4 (dst dip : List Byte) : Bool :=
  decide (dip = [224, 0, 1, 129] ∨ dip = [224, 0, 0, 107]) && decide (dst = [0x01, 0x00, 0x5E] ++ dip.drop 1)

/-- A multicast address of PTP over IPv6, of any scope, whose MAC is `dst`. -/
def ptpIp6 (dst dip : List Byte) : Bool :=
  let z : List Byte := List.replicate 12 0
  ((decide (dip.take 1 = [0xFF]) && decide ((dip.drop 1).take 1 |>.all fun b => b.toNat / 16 = 0) && decide (dip.drop 2 = z ++ [0x01, 0x81])) ||
    decide (dip = [0xFF, 0x02] ++ z ++ [0, 0x6B])) && decide (dst = [0x33, 0x33] ++ dip.drop 12)

/-- An ARP frame (R307). -/
def arpFrame (c : StringSt) (n : Nat) (src p : List Byte) : Frame :=
  let ask := decide (beAt p 0 2 = 1) && decide (beAt p 2 2 = 0x0800) && decide (beAt p 4 2 = 0x0604) && decide (beAt p 6 2 = 1) &&
    addrOn (c.ownIp4 n) && decide ((p.drop 24).take 4 = c.ownIp4 n)
  ⟨.address, if ask then some .arp else none, false, src, (p.drop 14).take 4, 0, [], decide (28 ≤ p.length), true⟩

/-- An IPv4 packet (R307): none where it is discarded. `dst`, `uni`: the frame's destination MAC, and whether it is the port's own. -/
def ip4Frame (c : StringSt) (n : Nat) (uni : Bool) (dst src p : List Byte) : Option Frame :=
  let total := beAt p 2 2
  let proto := beAt p 9 1
  let q := (p.take total).drop 20
  let sip := (p.drop 12).take 4
  let dip := (p.drop 16).take 4
  let fits := decide (20 ≤ total ∧ total ≤ p.length)
  let head := inetOk (p.take 20)
  let on := addrOn (c.ownIp4 n)
  let mine := uni && on && decide (dip = c.ownIp4 n)
  if beAt p 0 1 ≠ 0x45 ∨ beAt p 6 2 % 16384 ≠ 0 then none
  else if proto = 17 then
    match c.udpPol false (beAt q 2 2) with
    | some (k, d) =>
      if mine || (decide (k = .ptp) && on && ptpIp4 dst dip) then
        let len := beAt q 4 2
        some ⟨k, d, false, src, sip, beAt q 0 2, (q.take len).drop 8, fits && decide (len = q.length ∧ 8 ≤ len),
          head && (decide (beAt q 6 2 = 0) || inetOk (pseudoHdr false sip dip 17 len ++ q))⟩
      else none
    | none => none
  else if !mine then none
  else if proto = 1 ∧ beAt q 0 1 = 8 then
    some ⟨.address, some .echo, false, src, sip, 0, q.drop 4, fits && decide (8 ≤ q.length), head && inetOk q⟩
  else some ⟨.other, none, false, src, sip, 0, [], fits, head⟩

/-- The solicited-node multicast address of the port's IPv6 address (R307). -/
def solicited (c : StringSt) (n : Nat) : List Byte :=
  [0xFF, 0x02, 0, 0, 0, 0, 0, 0, 0, 0, 0, 1, 0xFF] ++ (c.ownIp6 n).drop 13

/-- An IPv6 packet (R307): none where it is discarded. `node`: the frame came to the MAC of the solicited-node address. -/
def ip6Frame (c : StringSt) (n : Nat) (uni node : Bool) (dst src p : List Byte) : Option Frame :=
  let len := beAt p 4 2
  let next := beAt p 6 1
  let q := (p.drop 40).take len
  let sip := (p.drop 8).take 16
  let dip := (p.drop 24).take 16
  let fits := decide (40 + len ≤ p.length)
  let on := addrOn (c.ownIp6 n)
  let mine := uni && on && decide (dip = c.ownIp6 n)
  let sum := inetOk (pseudoHdr true sip dip next len ++ q)
  if beAt p 0 1 / 16 ≠ 6 then none
  else if next = 17 then
    match c.udpPol true (beAt q 2 2) with
    | some (k, d) =>
      -- a datagram without a checksum is not supported (R307)
      if (mine || (decide (k = .ptp) && on && ptpIp6 dst dip)) && decide (beAt q 6 2 ≠ 0) then
        some ⟨k, d, true, src, sip, beAt q 0 2, q.drop 8, fits && decide (beAt q 4 2 = q.length ∧ 8 ≤ q.length), sum⟩
      else none
    | none => none
  else if next = 58 then
    let typ := beAt q 0 1
    let nd := decide (typ = 135 ∨ typ = 136)
    if !mine && !(nd && on && (node || uni) && decide (dip = c.solicited n)) then none
    else if typ = 133 ∨ typ = 134 ∨ typ = 137 then none
    else if typ = 135 then
      let ask := decide ((q.drop 8).take 16 = c.ownIp6 n)
      some ⟨.address, if ask then some .nd else none, true, src, sip, 0, [], fits && decide (24 ≤ q.length), sum⟩
    else if typ = 136 then some ⟨.address, none, true, src, sip, 0, [], fits, sum⟩
    else if typ = 128 then some ⟨.address, some .echo, true, src, sip, 0, q.drop 4, fits && decide (8 ≤ q.length), sum⟩
    else some ⟨.other, none, true, src, sip, 0, [], fits, sum⟩
  else if !mine ∨ [0, 43, 44, 50, 51, 60, 135].contains next then none
  else some ⟨.other, none, true, src, sip, 0, [], fits, true⟩

/-- The filter of R307 on a frame without its FCS: the accepted frame with its tag, or none where it is discarded and counted. -/
def filter (c : StringSt) (n : Nat) (f : List Byte) : Option (Frame × Option VTag) :=
  let dst := f.take 6
  let src := (f.drop 6).take 6
  let outer := beAt f 12 2
  let tci := beAt f 14 2
  let tag : Option VTag := if outer = 0x8100 then some ⟨tci % 4096, tci / 8192, bit tci 12⟩ else none
  let o := if outer = 0x8100 then 16 else 12
  let typ := beAt f o 2
  let p := f.drop (o + 2)
  let tagOk := if c.tagged n then tag.any fun v => v.vid == c.fld (Reg.ETH_CFG n) F.ETH_CFG.VID else tag.all fun v => v.vid == 0
  let uni := decide (dst = c.ownMac n)
  let all := dst.all fun b => b == 0xFF
  let node := decide (dst = [0x33, 0x33, 0xFF] ++ (c.ownIp6 n).drop 13)
  let multi := !all && decide (beAt dst 0 1 % 2 = 1)
  if !tagOk ∨ [0x8100, 0x88A8].contains typ ∨ typ = 0x8808 then none
  else
    let r : Option Frame :=
      if typ = 0x0806 then (if uni || all then some (c.arpFrame n src p) else none)
      else if typ = 0x0800 then (if uni || multi then c.ip4Frame n uni dst src p else none)
      else if typ = 0x86DD then (if uni || multi then c.ip6Frame n uni node dst src p else none)
      else if typ = 0x88F7 then (if uni || ptpMac dst then some ⟨.ptp, none, false, src, [], 0, [], true, true⟩ else none)
      else if uni then some ⟨.other, none, false, src, [], 0, [], true, true⟩
      else none
    r.map fun v => (v, tag)

/-! ## Policers (R317) -/

/-- CIR, PIR in 64 kb/s units, CBS, PBS in bytes, as they act. -/
def polRates (c : StringSt) (n k : Nat) : Nat × Nat :=
  let cir := c.fld (Reg.ETH_POLCFG n k) F.ETH_POLCFG.RATE
  (cir, max cir (c.fld (Reg.ETH_POLPIR n k) F.ETH_POLPIR.RATE))
def polBursts (c : StringSt) (n k : Nat) : Nat × Nat :=
  (max (c.maxLen n) (64 * c.fld (Reg.ETH_POLBS n k) F.ETH_POLBS.C), max (c.maxLen n) (64 * c.fld (Reg.ETH_POLBS n k) F.ETH_POLBS.P))

/-- A frame of `len` bytes is judged by policer `k`: whether it is accepted (R317). -/
def police (c : StringSt) (n k len : Nat) (tag : Option VTag) : Bool × StringSt :=
  let (cir, pir) := c.polRates n k
  let (cbs, pbs) := c.polBursts n k
  let green := fun (c : StringSt) => (true, c.addMod (Reg.ETH_POLG n k) F.ETH_POLG.GREEN 1)
  if cir = 0 ∧ pir = 0 then green c
  else
    let (tc, tp) := match Tab.get (fun _ => none) (c.port n).pol k with
      | some (tc, tp, t) => (min (256 * cbs) (tc + tokens cir (c.time - t)), min (256 * pbs) (tp + tokens pir (c.time - t)))
      | none => (256 * cbs, 256 * pbs)
    let cfg := c.rd (Reg.ETH_POLCFG n k)
    -- pre-colour: 0 green, 1 yellow, 2 red
    let pre := match tag with
      | some v => if bit cfg 20 && v.dei then (if bit cfg (22 + v.pcp) then 2 else 1) else 0
      | none => 0
    let l := 256 * len
    let colour := if pre = 2 ∨ tp < l then 2 else if pre = 1 ∨ tc < l then 1 else 0
    let tp := if colour = 2 then tp else tp - l
    let tc := if colour = 0 then tc - l else tc
    let c := c.updPort n fun p => { p with pol := Tab.set (fun _ => none) p.pol k (some (tc, tp, c.time)) }
    let c := c.wr (Reg.ETH_POLTOK n k) (tc / 16384 % 65536 + 65536 * (tp / 16384 % 65536))
    if colour = 0 then green c
    else if colour = 1 then (!bit cfg 21, c.addSat (Reg.ETH_POLYR n k) F.ETH_POLYR.YELLOW 1)
    else (false, c.addSat (Reg.ETH_POLYR n k) F.ETH_POLYR.RED 1)

/-- A store to a register of policer `k`: 0 POLCFG, 1 POLPIR, 2 POLBS. Its buckets are full, and CFGERR says whether the configuration
is corrected (R317, R324). -/
def storePol (c : StringSt) (n k sel v : Nat) : StringSt :=
  let c := if sel = 0 then c.wr (Reg.ETH_POLCFG n k) (v % 1073741824)
    else if sel = 1 then c.setFld (Reg.ETH_POLPIR n k) F.ETH_POLPIR.RATE v
    else c.wr (Reg.ETH_POLBS n k) v
  let bad := decide (c.fld (Reg.ETH_POLPIR n k) F.ETH_POLPIR.RATE < (c.polRates n k).1) ||
    decide (64 * c.fld (Reg.ETH_POLBS n k) F.ETH_POLBS.C < c.maxLen n) || decide (64 * c.fld (Reg.ETH_POLBS n k) F.ETH_POLBS.P < c.maxLen n)
  let c := c.setFld (Reg.ETH_POLPIR n k) F.ETH_POLPIR.CFGERR (b2n bad)
  c.updPort n fun p => { p with pol := Tab.set (fun _ => none) p.pol k none }

/-! ## Reception -/

/-- Checks 1 to 3 of R311 on the payload of a UDP datagram: the message without its tag and its key, or the counter it counts in. -/
def ictCheck (c : StringSt) (body : List Byte) : Option Nat × StringSt :=
  let len := leNat ((body.drop 12).take 2)
  let bad := fun (c : StringSt) => (none, c.addSat Reg.ICT_CNT2 F.ICT_CNT2.HI 1)
  if body.length ≠ 48 + len then bad c
  else
    let w0 := leNat (body.take 4)
    let key := bits w0 20 3
    let m := body.take (32 + len)
    if !c.netKeyValid key ∨ c.ictTag key m ≠ body.drop (32 + len) then (none, c.addSat Reg.ICT_CNT F.ICT_CNT.LO 1)
    else
      let typ := bits w0 8 8
      let ring := bits w0 16 4
      let word := fun (i : Nat) => leNat ((body.drop (4 * i)).take 4)
      let ranged := decide (typ = 1 ∨ typ = 3 ∨ typ = 5)
      let numbered := decide (typ = 1 ∨ typ = 3)
      let clean := decide (bits w0 0 8 = 1) && !bit w0 23 && decide (bits w0 25 7 = 0) && decide (word 7 = 0) && decide (len % 4 = 0) &&
        (ranged || decide (ring = 0)) && (numbered || decide (word 2 = 0)) && decide (bits (word 3) 16 16 = 0)
      if clean && (ranged || decide (typ = 4)) then (some key, c) else bad c

/-- Cells of receive space in use (R320). -/
def rxCells (c : StringSt) : Nat := (c.net.rx.map Rx.cells).sum

/-- An accepted frame waits in receive space, of 256-byte cells, for what it draws (R311, R320). -/
def keepFrame (c : StringSt) (n : Nat) (frame : List Byte) (f : Frame) : StringSt :=
  let len := frame.length
  match f.kind with
  | none => c
  | some k =>
    if k = .ict ∧ !c.flag Reg.ICT_CFG F.ICT_CFG.EN then c
    else if !f.lens then (if k = .ict then c.addSat Reg.ICT_CNT2 F.ICT_CNT2.HI 1 else c)
    else if !f.sound then c
    else
      let cells := (len + 255) / 256
      if 4096 < c.rxCells + cells then c.addSat (Reg.ETH_RXCNT n) F.ETH_RXCNT.NOBUF 1
      else
        let put := fun (c : StringSt) (key : Nat) (body : List Byte) =>
          let (v, c) := c.netDraw 4096
          let at_ := pickCells 4096 (c.net.rx.map Rx.place).flatten 4096 cells v
          let c := c.fillCells 0x01B00000 at_ frame
          { c with net := { c.net with rx := c.net.rx ++ [(⟨k, ⟨n, f.v6, f.mac, f.ip, f.udp, key⟩, cells, body, at_⟩ : Rx)] } }
        if k = .ict then
          match c.ictCheck f.body with
          | (some key, c) => put c key (f.body.take (f.body.length - 16))
          | (none, c) => c
        else put c 0 f.body

/-- A PTP frame goes to the receive buffer with its timestamp while PTP is on (14_time.md R334, R341). How firmware takes it from there
the spec does not say (log entry 29). -/
def keepPtp (c : StringSt) (n : Nat) (f : Frame) (frame : List Byte) : StringSt :=
  let profile := c.fld Reg.TIME_PTPCFG F.TIME_PTPCFG.PROFILE
  if f.lens && f.sound && (decide (profile = 1) || decide (profile = 2)) && !c.flag Reg.TIME_PTPCFG F.TIME_PTPCFG.CFGERR then
    let at_ := c.time - c.fld (Reg.TIME_LAT n) F.TIME_LAT.INGRESS * 4096
    { c with net := { c.net with ptpRx := c.net.ptpRx ++ [(n, at_, frame)] } }
  else c

/-- A frame reaches port `n`, from its destination MAC to its FCS (R307, R308, R317, R323). -/
def receiveFrame (c : StringSt) (n : Nat) (frame : List Byte) : StringSt :=
  let len := frame.length
  let count := fun (f : Fld) => c.addSat (Reg.ETH_RXCNT n) f 1
  if !c.linkUp n ∨ len < 64 then c
  else if leNat (frame.drop (len - 4)) ≠ crc32 (frame.take (len - 4)) then count F.ETH_RXCNT.FCS
  else if c.maxLen n < len then count F.ETH_RXCNT.LONG
  else match c.filter n (frame.take (len - 4)) with
    | none => count F.ETH_RXCNT.DISC
    | some (f, tag) =>
      match c.police n f.pol.idx len tag with
      | (true, c) => if f.pol = .ptp then c.keepPtp n f frame else c.keepFrame n frame f
      | (false, c) => c

/-! ## What a kept frame draws -/

/-- The oldest kept frame of a kind leaves receive space. -/
def takeRx (c : StringSt) (k : RxKind) : Option (Rx × StringSt) :=
  (takeFirst (fun (r : Rx) => if r.kind = k then some r else none) c.net.rx).map fun v =>
    (v.1, { c with net := { c.net with rx := v.2 } })

def answerArp (c : StringSt) : StringSt :=
  match c.takeRx .arp with
  | some (r, c) => (c.enqueue r.peer.port 6 (.arp r.peer.mac r.peer.ip) none).1
  | none => c

def answerNd (c : StringSt) : StringSt :=
  match c.takeRx .nd with
  | some (r, c) => (c.enqueue r.peer.port 6 (.nd r.peer.mac r.peer.ip) none).1
  | none => c

def answerEcho (c : StringSt) : StringSt :=
  match c.takeRx .echo with
  | some (r, c) => (c.enqueue r.peer.port 6 (.echo r.peer.v6 r.peer.mac r.peer.ip r.body) none).1
  | none => c

/-- The type of a kept ICT message. -/
def Rx.typ (r : Rx) : Nat := leNat ((r.body.drop 1).take 1)
def Rx.word (r : Rx) (i : Nat) : Nat := leNat ((r.body.drop (4 * i)).take 4)
def Rx.ring (r : Rx) : Nat := bits (Rx.word r 0) 16 4
/-- Payload bytes. -/
def Rx.load (r : Rx) : List Byte := r.body.drop 32

/-- The oldest kept ICT message, where it is of type `typ`. -/
def takeIct (c : StringSt) (typ : Nat) : Option (Rx × StringSt) :=
  match c.takeRx .ict with
  | some (r, c) => if Rx.typ r = typ then some (r, c) else none
  | none => none

/-- An ACK with a result other than ACCEPTED to the source of a message. -/
def nack (c : StringSt) (r : Rx) (result : Nat) : StringSt := c.sendAck r.peer (Rx.ring r) (Rx.word r 2) result 0xFFFFFFFF

/-- The producer of a ring as the doorbells still waiting for their copy will make it (R84). -/
def netProd (c : StringSt) (n : Nat) : Nat := (c.ringAfter n).1

/-- Checks 5, 7, 8 and 9 of R311 on a PHRASE or FENCE: the result code of the first that fails, 0 where all pass. -/
def cmdCheck (c : StringSt) (r : Rx) : Nat :=
  let n := Rx.ring r
  let seq := Rx.word r 2
  let epoch := c.rd Reg.ICT_EPOCH
  let below := (c.ictNext n + 4294967296 - seq) % 4294967296
  if !c.holds then 6
  else if Rx.word r 1 ≠ epoch ∨ epoch = 0 then 4
  else if n < 12 ∨ !bit (c.netKeyWord r.peer.key) (8 + (n - 12)) ∨ !c.ringEn n then 7
  else if below = 0 then 0
  else if below ≤ 64 then 1
  else if below < 2147483648 then 3
  else 2

/-- A command of ring `n` is accepted: NEXT goes up, and completions go to its source from now on (R312, R314). -/
def acceptCmd (c : StringSt) (r : Rx) (prod cmd slot : Nat) : StringSt :=
  let n := Rx.ring r
  let seq := Rx.word r 2
  let c := c.wr (Reg.ICT_NEXT (n - 12)) (seq + 1)
  { c with net := { c.net with
    peers := Tab.set (fun _ => none) c.net.peers n (some r.peer)
    acks := c.net.acks ++ [(⟨n, prod, cmd, r.peer, seq, slot⟩ : AckWait)] } }

end StringSt

namespace State

/-- The doorbell of an accepted command, and the ACKs that are then due (R312). -/
def netDoorbell (s : State) (x : Str) (n prod cmd : Nat) : State :=
  (s.doorbell x n prod cmd false).updStr x StringSt.settleAcks

/-- PHRASE (R311, R312): checks, then the slots, with a pad before a phrase that would cross the end of the ring. -/
def netPhrase (s : State) (x : Str) : State :=
  match (s.str x).takeIct 1 with
  | none => s
  | some (r, c) =>
    let s := s.setStr x c
    let n := StringSt.Rx.ring r
    let h := Hdr.of (leWords 8 (StringSt.Rx.load r))
    let len := (StringSt.Rx.load r).length
    let prod := c.netProd n
    let k := prod % 256
    let pad := if 256 < k + h.nslot then 256 - k else 0
    let res := c.cmdCheck r
    if res ≠ 0 then s.updStr x fun c => c.nack r res
    else if len < 32 ∨ len < 32 + 4 * h.ninsn ∨ 256 * h.nslot < len then s.updStr x fun c => c.nack r 8
    else if 256 < cntSub prod (c.ringCons n) + pad + h.nslot then s.updStr x fun c => c.nack r 5
    else
      let s := s.updStr x fun c =>
        let c := if pad = 0 then c else c.setWords (slotAddr n k) [0x5A + 256 + 65536 * pad, 0, 0, 0, 0, 0, 0, 0]
        let c := c.setBytes (slotAddr n (k + pad)) (StringSt.Rx.load r ++ List.replicate (256 * h.nslot - len) 0)
        c.acceptCmd r ((prod + pad + h.nslot) % 65536) 0 ((k + pad) % 256)
      s.netDoorbell x n ((prod + pad + h.nslot) % 65536) 0

/-- FENCE (R311, R312): the command is given under R94 with the producer as it stands. -/
def netFence (s : State) (x : Str) : State :=
  match (s.str x).takeIct 3 with
  | none => s
  | some (r, c) =>
    let s := s.setStr x c
    let n := StringSt.Rx.ring r
    let cmd := leNat ((StringSt.Rx.load r).take 4)
    let res := c.cmdCheck r
    if res ≠ 0 then s.updStr x fun c => c.nack r res
    else
      let prod := c.netProd n
      -- a CMD other than 1 and 2 is refused as a doorbell of CMD 3 is
      let cmd := if cmd = 1 ∨ cmd = 2 then cmd else 3
      (s.updStr x fun c => c.acceptCmd r prod cmd 0xFFFFFFFF).netDoorbell x n prod cmd

/-- STATUS: answered by either string (R310, R311). -/
def netStatus (s : State) (x : Str) : State :=
  match (s.str x).takeIct 4 with
  | none => s
  | some (r, c) =>
    let s := s.setStr x c
    let w := [c.rd Reg.ICT_EPOCH] ++ (List.range 4).map (fun i => c.rd (Reg.ICT_NEXT i)) ++ [s.peek x Reg.RED_CAPOSTAT] ++
      (List.range 4).map (fun i => c.ringStat (12 + i)) ++
      ((List.range 4).map fun i => [c.rd (Reg.RING_LSEQ_L (12 + i)), c.rd (Reg.RING_LSEQ_H (12 + i))]).flatten
    s.updStr x fun c => c.sendIct r.peer (c.ictMsg 0x84 0 r.peer.key 0 0 false c.time (StringSt.wordBytes w))

/-- RESEND (R311, R314): a kept record's COMPLETION goes out again as it went out; any other sequence number draws STALE. -/
def netResend (s : State) (x : Str) : State :=
  match (s.str x).takeIct 5 with
  | none => s
  | some (r, c) =>
    let s := s.setStr x c
    let n := StringSt.Rx.ring r
    let g := leNat ((StringSt.Rx.load r).take 8)
    if !c.holds then s.updStr x fun c => c.nack r 6
    else match (Tab.get (fun _ => []) c.net.kept n).find? fun e => e.1 == g with
      | some (_, w) => s.updStr x fun c =>
          match Tab.get (fun _ => none) c.net.peers n with
          | some _ => c.sendCompletion n w
          | none => c.sendIct r.peer (c.ictMsg 0x85 n r.peer.key 0 0 (bit (w.getD 0 0) 29) c.time (StringSt.wordBytes w))
      | none => s.updStr x fun c => c.nack r 3

end State

/-! ## Commands -/

/-- ETH_FRAME_RECEIVE (R307, R317). -/
def execEthFrameReceive (x : Str) (n : Fin 2) (frame : List Byte) (t : Nat) (s : State) : Out :=
  .next ((s.advance t).updStr x fun c => c.receiveFrame n.val frame)

/-- POLICER_CONFIG_WRITE (R324). -/
def execPolicerConfigWrite (x : Str) (n : Fin 2) (k : Fin 4) (sel : Fin 3) (v : Word) (s : State) : Out :=
  .next (s.updStr x fun c => c.storePol n.val k.val sel.val v.toNat)

/-- ARP_REQUEST (R307). -/
def execArpRequest (x : Str) (s : State) : Out := .next (s.updStr x StringSt.answerArp)

/-- ND_SOLICITATION (R307). -/
def execNdSolicitation (x : Str) (s : State) : Out := .next (s.updStr x StringSt.answerNd)

/-- ECHO_REQUEST (R307). -/
def execEchoRequest (x : Str) (s : State) : Out := .next (s.updStr x StringSt.answerEcho)

/-- PHRASE (R312). -/
def execPhrase (x : Str) (t : Nat) (s : State) : Out := .next ((s.advance t).netPhrase x)

/-- FENCE_CMD (R312). -/
def execFenceCmd (x : Str) (t : Nat) (s : State) : Out := .next ((s.advance t).netFence x)

/-- STATUS (R310). -/
def execStatus (x : Str) (t : Nat) (s : State) : Out := .next ((s.advance t).netStatus x)

/-- RESEND (R314). -/
def execResend (x : Str) (t : Nat) (s : State) : Out := .next ((s.advance t).netResend x)

end Sys2Proof.Machine
end

