-- ==== Sys2Proof/Machine/NetTx.lean ====
section
/-! DEFINITION. Gate lists, queue samples, the link of a port, and telemetry streams (13_network.md R315, R316, R319 to R323,
12_redundancy.md R302). -/

namespace Sys2Proof.Machine
namespace StringSt

/-! ## Gate lists (R319) -/

/-- Entries of the gate list as the registers hold it. -/
def gclEnts (c : StringSt) (n : Nat) : List (Nat × Nat) :=
  (List.range (c.fld (Reg.ETH_GCLCFG n) F.ETH_GCLCFG.NENT)).map fun i =>
    let w := c.rd (Reg.ETH_GCL n i)
    (w % 256, w / 256)

/-- The check of a list. -/
def gclOk (c : StringSt) (n : Nat) : Bool :=
  let k := c.fld (Reg.ETH_GCLCFG n) F.ETH_GCLCFG.NENT
  let cyc := c.rd (Reg.ETH_GCLCYC n)
  let l := c.gclEnts n
  decide (1 ≤ k ∧ k ≤ 64) && l.all (fun e => decide (1 ≤ e.2)) && decide ((l.map Prod.snd).sum = cyc) && decide (10000 ≤ cyc)

/-- The base instant: seconds above bit 31 are those of the time unit at the store. -/
def gclBase (c : StringSt) (n : Nat) : Nat :=
  instant (secOf c.time / 4294967296 * 4294967296 + c.rd (Reg.ETH_GCLBASE_SL n)) (c.rd (Reg.ETH_GCLBASE_NS n)) 0

/-- A store of `v` to ETH_GCLCFG (R319). -/
def storeGcl (c : StringSt) (n v : Nat) : StringSt :=
  let o := Reg.ETH_GCLCFG n
  let c := c.gclSwitch n
  let c := (c.setFld o F.ETH_GCLCFG.EN v).setFld o F.ETH_GCLCFG.NENT (v / 2)
  if !bit v 0 then
    (c.setFld o F.ETH_GCLCFG.PEND 0).updPort n fun p => { p with op := none, next := none }
  else if c.gclOk n then
    let base := c.gclBase n
    let cyc := c.rd (Reg.ETH_GCLCYC n)
    let lo := c.time + 10 * usT
    let start := if lo ≤ base then base else base + (lo - base + cyc * nsT - 1) / (cyc * nsT) * (cyc * nsT)
    let c := (c.setFld o F.ETH_GCLCFG.PEND 1).setFld o F.ETH_GCLCFG.ERR 0
    let g : Gcl := ⟨base, cyc, c.gclEnts n⟩
    c.updPort n fun p => { p with next := some (g, start) }
  else c.setFld o F.ETH_GCLCFG.ERR 1

/-- QUEUE_SAMPLE: the sample of the latest instant that is a whole multiple of INTV us, once (R321). -/
def queueSample (c : StringSt) (n : Nat) : StringSt :=
  let per := c.fld (Reg.ETH_SAMPCFG n) F.ETH_SAMPCFG.INTV * usT
  let b := c.time / per * per
  if per = 0 ∨ (c.port n).sampAt = some b then c
  else (List.range 8).foldl (fun (c : StringSt) q =>
    let delay := match (c.port n).queue q with
      | f :: _ => min 524287 ((b - f.since) / (100 * nsT))
      | [] => 0
    let depth := (c.port n).cells q
    let c := c.wr (Reg.ETH_QSAMP n q) (depth + 8192 * delay)
    let m := Reg.ETH_QMAX n q
    (c.setFld m F.ETH_QMAX.DEPTH (max depth (c.fld m F.ETH_QMAX.DEPTH))).setFld m F.ETH_QMAX.DELAY (max delay (c.fld m F.ETH_QMAX.DELAY)))
    (c.updPort n fun p => { p with sampAt := some b })

/-! ## Links (R323) -/

/-- The numbers of a discarded frame are missing. -/
def missTel (c : StringSt) (n : Nat) (t : Option Tel) : StringSt :=
  match t with
  | some v => c.addMissing n v.stream v.first v.count
  | none => c

/-- ETH_LINK_LOSS: every queued frame, and one in transmission, is discarded and counted in TAIL (R323, R324). -/
def linkLoss (c : StringSt) (n : Nat) : StringSt :=
  if !c.linkUp n then c
  else
    let c := (c.setFld (Reg.ETH_STAT n) F.ETH_STAT.LINK 0).addSat (Reg.ETH_STAT n) F.ETH_STAT.DOWNS 1
    let c := match (c.port n).flying with
      | some (q, f, e) => if c.time < e then (c.countTail n q 1).missTel n f.tel else c
      | none => c
    let c := (List.range 8).foldl (fun (c : StringSt) q =>
      let l := (c.port n).queue q
      l.foldl (fun (c : StringSt) f => c.missTel n f.tel) (c.countTail n q l.length)) c
    let c := c.updPort n fun p => { p with queues := [], drr := [], defs := [], served := false, flying := none }
    (c.occurLive (18 + n) 0).fire (128 + n)

/-- ETH_LINK_UP: the link comes up while the port is enabled; producer 128 + n fires (R343). -/
def linkReturn (c : StringSt) (n : Nat) : StringSt :=
  if c.flag (Reg.ETH_CFG n) F.ETH_CFG.EN ∧ c.domOn (57 + n) ∧ !c.linkUp n then
    ((c.setFld (Reg.ETH_STAT n) F.ETH_STAT.LINK 1).live (18 + n) false).fire (128 + n)
  else c

/-- A store to ETH_CFG: with EN at 0 the link is held down (R325). -/
def storeEthCfg (c : StringSt) (n v : Nat) : StringSt :=
  let c := c.wr (Reg.ETH_CFG n) (putBit (v % 1073741824) 3 false)
  if bit v 0 then c else c.linkLoss n

/-! ## Telemetry (R315, R316, R302) -/

def snapPeriod (c : StringSt) (s : Nat) : Nat := c.fld (Reg.ICT_TSTR s) F.ICT_TSTR.PERIOD * 100 * usT

/-- A store to ICT_TSTR: a stream that is switched on or off, or gets another period or set of ports, starts anew (R326). -/
def storeTstr (c : StringSt) (s v : Nat) : StringSt :=
  let o := Reg.ICT_TSTR s
  let old := c.rd o
  let c := c.wr o (v % 1073741824)
  if bits old 0 3 = bits v 0 3 ∧ bits old 12 16 = bits v 12 16 then c
  else { c with net := { c.net with
    snapAt := Tab.set (fun _ => none) c.net.snapAt s none
    snaps := c.net.snaps.filter fun w => w.stream != s } }

end StringSt

namespace State

/-- The payload of a snapshot of stream `i` of string `x` (R315). -/
def snapLoad (s : State) (x : Str) (i : Nat) : List Byte :=
  let c := s.str x
  let kind := c.fld (Reg.ICT_TSTR i) F.ICT_TSTR.KIND
  let first := c.fld (Reg.ICT_TSRC i) F.ICT_TSRC.FIRST
  let count := c.fld (Reg.ICT_TSRC i) F.ICT_TSRC.COUNT
  let arr := StringSt.kindArray kind
  let recs :=
    if kind ≤ 2 then c.bytes (arr.1 + first * arr.2.1) (count * arr.2.1)
    else if kind = 3 then
      StringSt.wordBytes ([Reg.RED_HEALTH, Reg.RED_PHEALTH, Reg.RED_CAPOSTAT, Reg.ENG_STAT, Reg.ENG_LSTAT, Reg.PLAN_ARMSTAT,
        Reg.CAL_NCONV, Reg.CAL_NACT, Reg.ALV_FIRSTFAULT].map (s.peek x) ++ [0, 0, 0, 0, 0, 0, 0])
    else StringSt.wordBytes ((List.range 16).map fun q => c.rd (Reg.ETH_QSAMP (q / 8) (q % 8)))
  StringSt.wordBytes [kind + 256 * first, count] ++ recs

/-- TELEMETRY_SNAPSHOT: stream `i` of string `x` at its latest snapshot instant (R315, R316). The active string numbers it, with the
numbers of instants whose job has not run; the standby waits for the number. -/
def snapshot (s : State) (x : Str) (i : Nat) : State :=
  let c := s.str x
  let per := c.snapPeriod i
  let b := c.time / per * per
  let last := Tab.get (fun _ => (none : Option Nat)) c.net.snapAt i
  if !c.flag (Reg.ICT_TSTR i) F.ICT_TSTR.EN ∨ !c.streamOk i ∨ !c.flag Reg.ICT_CFG F.ICT_CFG.EN ∨ last = some b then s
  else
    let load := s.snapLoad x i
    let skipped := match last with | some a => (b - a) / per - 1 | none => 0
    s.updStr x fun c =>
      let c := { c with net := { c.net with snapAt := Tab.set (fun _ => none) c.net.snapAt i (some b) } }
      if c.holds then
        let seq := (c.rd (Reg.ICT_TSEQ i) + skipped) % 4294967296
        let c := c.wr (Reg.ICT_TSEQ i) (seq + 1)
        let c := if c.joined then c.send (.telem i seq b) else c
        c.sendSnap i seq b load
      else if c.role = rSTANDBY then
        ({ c with net := { c.net with snaps := c.net.snaps ++ [(⟨i, b, load⟩ : Snap)] } }).matchSnap i
      else c

/-- TELEMETRY_SEQ_MIRROR: the standby `x` takes the next mirrored number (R302). -/
def seqMirror (s : State) (x : Str) : State :=
  if (s.str x).role = rSTANDBY then s.takeNumber x else s

/-- TELEMETRY_SEQ_TIMEOUT: snapshots of stream `i` without a number for 100 us are not sent (R302). -/
def seqTimeout (s : State) (x : Str) (i : Nat) : State :=
  s.updStr x fun c => { c with net := { c.net with
    snaps := c.net.snaps.filter fun v => !(v.stream == i && decide (v.t + StringSt.snapWait < c.time))
    nums := c.net.nums.filter fun m => !(m.1 == i && decide (m.2.2 + StringSt.snapWait < c.time)) } }

end State

/-! ## Commands -/

/-- EGRESS_PICK (R318). A PTP frame that firmware has handed to the port before joins Q7 first (14_time.md R333; log entry 29). -/
def execEgressPick (x : Str) (n : Fin 2) (p : Pick) (s : State) : Out :=
  .next ((s.advance p.t).updStr x fun c =>
    let c := c.gclSwitch n.val
    (match p.ptp with | some f => (c.enqueue n.val 7 (.ptp f) none).1 | none => c).egressPick n.val)

/-- GCL_ENABLE (R319): a store of `v`, with EN at 1. -/
def execGclEnable (x : Str) (n : Fin 2) (nent : BitVec 7) (t : Nat) (s : State) : Out :=
  .next ((s.advance t).updStr x fun c => c.storeGcl n.val (1 + 2 * nent.toNat))

/-- GCL_DISABLE (R319). -/
def execGclDisable (x : Str) (n : Fin 2) (nent : BitVec 7) (s : State) : Out :=
  .next (s.updStr x fun c => c.storeGcl n.val (2 * nent.toNat))

/-- GCL_SWITCH (R319). -/
def execGclSwitch (x : Str) (n : Fin 2) (t : Nat) (s : State) : Out := .next ((s.advance t).updStr x fun c => c.gclSwitch n.val)

/-- QUEUE_SAMPLE (R321). -/
def execQueueSample (x : Str) (n : Fin 2) (t : Nat) (s : State) : Out :=
  .next ((s.advance t).updStr x fun c => c.queueSample n.val)

/-- ETH_LINK_LOSS (R323). -/
def execEthLinkLoss (x : Str) (n : Fin 2) (t : Nat) (s : State) : Out := .next ((s.advance t).updStr x fun c => c.linkLoss n.val)

/-- ETH_LINK_UP (R323). -/
def execEthLinkUp (x : Str) (n : Fin 2) (t : Nat) (s : State) : Out := .next ((s.advance t).updStr x fun c => c.linkReturn n.val)

/-- TELEMETRY_SNAPSHOT (R315). -/
def execTelemetrySnapshot (x : Str) (i : Fin 16) (t : Nat) (s : State) : Out := .next ((s.advance t).snapshot x i.val)

/-- TELEMETRY_SEQ_MIRROR (R302). -/
def execTelemetrySeqMirror (x : Str) (s : State) : Out := .next (s.seqMirror x)

/-- TELEMETRY_SEQ_TIMEOUT (R302). -/
def execTelemetrySeqTimeout (x : Str) (i : Fin 16) (t : Nat) (s : State) : Out := .next ((s.advance t).seqTimeout x i.val)

end Sys2Proof.Machine
end

