-- ==== Sys2Proof/Machine/Reset.lean ====
section
/-! DEFINITION. Power-up, power loss and resets (17_power_thermal_ageing.md R379 to R389, 18_reset_boot_security.md R403 to R411). -/

namespace Sys2Proof.Machine

/-- The value of a register after a string-level reset (R404): fields whose Warm column says Hold, live or Peg stay. -/
def warmWord (x : Str) (o : Nat) (w : Word) : Word :=
  BitVec.ofNat 32 ((regFields o).foldl (fun v f => if f.keep then putBits v f.lo f.w (bits w.toNat f.lo f.w) else v) (coldWord x o).toNat)

/-- Bits of GEN_RSTCAUSE (R424). -/
inductive Cause where
  | rstn
  | flr
  | wake
  | str
  | wdog
  | partner
  deriving DecidableEq, Repr

def Cause.fld : Cause → Fld
  | .rstn => F.GEN_RSTCAUSE.RSTN
  | .flr => F.GEN_RSTCAUSE.FLR
  | .wake => F.GEN_RSTCAUSE.WAKE
  | .str => F.GEN_RSTCAUSE.STR
  | .wdog => F.GEN_RSTCAUSE.WDOG
  | .partner => F.GEN_RSTCAUSE.PARTNER

namespace StringSt

/-- What a string-level reset makes of a string (R404, R405, R408): its pegs, flash, time and servo rate, its always-on counters and
the fields that hold; everything else as after a cold reset, with every domain on. -/
def afterReset (c : StringSt) (k : Cause) : StringSt :=
  let d : StringSt := { StringSt.cold c.id with
    regs := c.regs.foldl (fun m e => Tab.set (coldWord c.id) m e.1 (warmWord c.id e.1 e.2)) []
    pegs := c.pegs
    wear := c.wear
    flash := c.flash
    time := c.time
    free := c.free
    red := { RedUnit.cold with seen := c.red.seen, lineAt := if c.red.line then c.time else c.red.lineAt, capoAt := c.red.capoAt,
                               prAt := c.red.prAt }
    eng := { EngUnit.cold with heard := (List.range 8).foldl (fun m n => Tab.set (fun _ => 0) m n c.time) [] }
    tim := { TimeUnit.cold with lastSample := c.time }
    pwr := { PwrUnit.cold with hottest := c.pwr.hottest, last := c.pwr.last, vinOut := c.pwr.vinOut, vinIn := c.pwr.vinIn } }
  let d := (List.range 3).foldl (fun (d : StringSt) w => d.wr (Reg.PWR_SDOM w) (coldWord c.id (Reg.PWR_SDOM w)).toNat) d
  (d.setFld Reg.GEN_RSTCAUSE k.fld 1).addSat Reg.GEN_RSTCAUSE F.GEN_RSTCAUSE.NRST 1

/-- A string in OFF, or the same string when cold reset is released: what the pegs and the flash hold stays (R408). -/
def afterCold (c : StringSt) : StringSt := { StringSt.cold c.id with pegs := c.pegs, wear := c.wear, flash := c.flash, free := c.free }

end StringSt

namespace State

/-- A string-level reset of string `x` (R405). The line falls; messages that it has sent over the bridge link before still arrive at a
standby, which can seize (R303); without such a standby the partner finds the link down at once. The reset reaches no tile. -/
def resetString (s : State) (x : Str) (k : Cause) : State :=
  if s.stage.off then s
  -- two resets of one string at one instant are one (R423)
  else if (s.str x).pwr.rstAt = some s.now then s.updStr x fun c => c.setFld Reg.GEN_RSTCAUSE k.fld 1
  else
    let c := s.str x
    let seize := c.holds && decide ((s.str x.other).role = rSTANDBY)
    let s := if seize then s else s.linkDown
    let d := c.afterReset k
    let s := s.setStr x { d with outbox := if seize then c.outbox else [], pwr := { d.pwr with rstAt := some s.now } }
    let s := s.updStr x.other fun p => { p with outbox := [] }
    (s.eachTile fun n s => s.updTile n fun d => d.setReports x []).capoSettle

/-- BROWN_OUT and SURGE_SHUTDOWN: cold reset is asserted, the drive rails and then every rail go off, and the module is OFF (R379, R383). -/
def powerOff (s : State) (surge : Bool) : State :=
  if s.stage.off then s
  else
    let off := fun (c : StringSt) =>
      let c := c.afterCold
      let c := (List.range 3).foldl (fun (c : StringSt) w => c.wr (Reg.PWR_SDOM w) 0) c
      let c := (List.range 2).foldl (fun (c : StringSt) w => c.wr (Reg.PWR_TDOM w) 0) c
      let c := (c.setFld Reg.GEN_RSTCAUSE F.GEN_RSTCAUSE.POR 0).setFld Reg.GEN_RSTCAUSE F.GEN_RSTCAUSE.BROWN 1
      let c := c.setFld Reg.PWR_STAT F.PWR_STAT.STATE 3
      (List.range 4).foldl (fun (c : StringSt) i => c.updCore i fun k => { k with run := .notReleased }) c
    let s := s.updBoth off
    { s.eachTile fun n s => s.updTile n fun d => { TileSt.cold n with power := 0, free := d.free } with
      stage := { s.stage with off := true, surge := surge, offAt := s.now, drive := false } }

/-- POWER_UP: the rail sequence ends and cold reset is released (R382); VIN has been above 34.0 V for 10 ms, and within its operating range for
1 s after a surge (R379). -/
def powerUp (s : State) : State :=
  if s.stage.off ∧ s.stage.offAt + (if s.stage.surge then 1000 else 10) * msT ≤ s.now then
    let on := fun (c : StringSt) =>
      let w := c.rd Reg.GEN_RSTCAUSE
      c.afterCold.setFld Reg.GEN_RSTCAUSE F.GEN_RSTCAUSE.BROWN (bits w 1 1)
    let s := s.updBoth on
    { s.eachTile fun n s => s.updTile n fun d => { TileSt.cold n with free := d.free } with
      stage := { s.stage with off := false, drive := true } }
  else s

/-- WAKE: an enabled source that stands in either string ends DORMANT through a warm reset of both (R389, R408). -/
def wake (s : State) : State :=
  let src := wakeSources s.a ||| wakeSources s.b
  -- a wake acts once the entry is complete (R399)
  let dormant := fun (c : StringSt) => decide (c.fld Reg.PWR_STAT F.PWR_STAT.STATE = 2) && c.pwr.dorm.isNone
  if dormant s.a && dormant s.b && decide (src ≠ 0) then
    let s := (s.resetString .a .wake).resetString .b .wake
    let s := s.updBoth fun c => c.setFld Reg.PWR_STAT F.PWR_STAT.WAKE src
    (s.eachTile fun n s => s.updTile n fun d =>
      { d with chans := [], mons := [], power := 127, pwrHold := false }.restartAll).showTiles
  else s

/-- TILE_RESET: stores to GEN_RST.TILE in string `x` (R406); what follows, up to RESTORED, is done by the string's firmware. -/
def tileReset (s : State) (x : Str) (mask : Nat) : State :=
  if s.capo = some x then
    ((List.range 8).filter (bit mask ·)).foldl (fun (s : State) n =>
      if (s.tile n).domOn 0 then (s.updTile n TileSt.resetCtl).restoreTile x n else s) s
  else s

end State

namespace StringSt

/-- GEN_ERST: a reset of engine `e` (R407). -/
def engineReset (c : StringSt) (e : Nat) : StringSt :=
  if (c.blocksOf e).isEmpty then
    let c := (c.setFld (Reg.ENG_ROLE e) F.ENG_ROLE.ROLE 3).setFld (Reg.ENG_ROLE e) F.ENG_ROLE.FCAUSE 0
    let o := Reg.PWR_SDOM ((5 + e) / 32)
    let c := c.wr o (putBit (c.rd o) ((5 + e) % 32) false)
    { c with pwr := { c.pwr with spareIn := setDel c.pwr.spareIn e } }
  else c.addSat Reg.GEN_RSTSTAT F.GEN_RSTSTAT.EREF 1

/-- HOURS_INCREMENT (R410). -/
def addHour (c : StringSt) : StringSt := (c.pegWrite 0x70000010 (c.peg 0x70000010 + 1)).2

end StringSt

/-! ## Commands -/

/-- POWER_UP (R382). -/
def execPowerUp (t : Nat) (s : State) : Out := .next (s.advance t).powerUp

/-- BROWN_OUT (R383). -/
def execBrownOut (t : Nat) (s : State) : Out := .next ((s.advance t).powerOff false)

/-- SURGE_SHUTDOWN (R379). -/
def execSurgeShutdown (t : Nat) (s : State) : Out := .next ((s.advance t).powerOff true)

/-- WAKE (R389). -/
def execWake (t : Nat) (s : State) : Out := .next (s.advance t).wake

/-- WARM_RESET: RST_N low for 1 us, or a Function Level Reset (R405). -/
def execWarmReset (x : Str) (flr : Bool) (t : Nat) (s : State) : Out :=
  .next ((s.advance t).resetString x (if flr then .flr else .rstn))

/-- STRING_RESET: a secure store to GEN_RST.STR (R405). -/
def execStringReset (x : Str) (t : Nat) (s : State) : Out := .next ((s.advance t).resetString x .str)

/-- WATCHDOG_RESET: the watchdog delay of a heartbeat miss has passed (R374). -/
def execWatchdogReset (x : Str) (t : Nat) (s : State) : Out :=
  let s := s.advance t
  match (s.str x).alv.wdAt with
  | some w => .next (if w ≤ (s.str x).time then s.resetString x .wdog else s)
  | none => .next s

/-- PARTNER_REQUESTED_RESET: string `x` sees its partner's request (R286). -/
def execPartnerRequestedReset (x : Str) (t : Nat) (s : State) : Out :=
  let s := s.advance t
  .next (if (s.str x.other).flag Reg.RED_CAPOSTAT F.RED_CAPOSTAT.PRQ then
    (s.updStr x.other fun p => p.setFld Reg.RED_CAPOSTAT F.RED_CAPOSTAT.PRQ 0).resetString x .partner
  else s)

/-- TILE_RESET (R406). -/
def execTileReset (x : Str) (mask : BitVec 8) (s : State) : Out := .next (s.tileReset x mask.toNat)

/-- ENGINE_RESET (R407). -/
def execEngineReset (x : Str) (e : Fin 36) (s : State) : Out := .next (s.updStr x fun c => c.engineReset e.val)

/-- HOURS_INCREMENT (R410). -/
def execHoursIncrement (x : Str) (s : State) : Out := .next (if s.stage.off then s else s.updStr x StringSt.addHour)

end Sys2Proof.Machine
end

