-- ==== Sys2Proof/Machine/Security.lean ====
section
/-! DEFINITION. The boot ROM, keys, the security services and attestation (18_reset_boot_security.md R412 to R422). A service answers its
status and the new string. -/

namespace Sys2Proof.Machine

/-- The first `n` bytes that a constant of the configuration gives. -/
def fuse (n : Nat) (f : Nat → Byte) : List Byte := (List.range n).map f

/-- The words of a 32-byte value. -/
def words8 (l : List Byte) : List Nat := leWords 8 l

namespace StringSt

def serialWords : List Nat := [Config.serial.toNat % 4294967296, Config.serial.toNat / 4294967296]

/-- ROOTREV (R410). -/
def rootRev (c : StringSt) : Nat := bits (c.peg 0x70000014) 4 4

def runSlot (c : StringSt) : Nat := c.fld Reg.SEC_BOOT F.SEC_BOOT.SLOT

def wrWords (c : StringSt) (o : Nat) (l : List Nat) : StringSt := l.zipIdx.foldl (fun c e => c.wr (o + 4 * e.2) e.1) c

/-- SEC_DBGNONCE is formed from the device secret, BOOTCNT and the time (R420). -/
def newNonce (c : StringSt) : StringSt :=
  let l := fuse 32 (Config.deviceSecret c.id.idx) ++ leBytes 4 (c.peg 0x7000000C) ++ wordBytes (ts96 c.time)
  c.wrWords (Reg.SEC_DBGNONCE 0) (words8 (sha256 l))

/-- The seed of a label: the first 16 bytes of its HMAC under the device secret (R417). -/
def idSeed (c : StringSt) (label : List Byte) : List Byte := (hmacSha256 (fuse 32 (Config.deviceSecret c.id.idx)) label).take 16

/-- The three seeds of the identity key pair, of the labels SKSEED, SKPRF and PKSEED in ASCII (R417). -/
def idSecret (c : StringSt) : List Byte := c.idSeed [0x53, 0x4B, 0x53, 0x45, 0x45, 0x44]
def idPrf (c : StringSt) : List Byte := c.idSeed [0x53, 0x4B, 0x50, 0x52, 0x46]
def idPublic (c : StringSt) : List Byte := c.idSeed [0x50, 0x4B, 0x53, 0x45, 0x45, 0x44]

/-- The 32 bytes of the identity public key: its seed and its root (R417; FIPS 205). -/
def idKey (c : StringSt) : List Byte := c.idPublic ++ Slh.sha2_128f.rootOf c.idSecret c.idPublic

/-! ## Boot (R413, R414) -/

/-- The result of the check of the image at slot `k`, for a read that works: 1 passed, 2 to 5 the failures of SEC_BOOT. -/
def imageCheck (c : StringSt) (k : Nat) : Nat :=
  let a := 0x400000 * k
  let w := fun (i : Nat) => c.flashWord (a + 4 * i)
  let len := w 2
  let header := decide (w 0 = 0x31574649) && decide (w 1 = 1 + 65536 * 64) && decide (64 ≤ len ∧ len ≤ 4178016) && decide (len % 16 = 0) &&
    decide (w 4 % 4 = 0 ∧ w 4 < len) && decide (w 5 = 0) && (upFrom 8 8).all fun i => decide (w i = 0)
  if !header then 2
  else
    let b := a + len
    let key := c.flashWord (b + 8)
    let trailer := decide (c.flashWord b = 0x31475349) && decide (c.flashWord (b + 4) = 1) && decide (c.flashWord (b + 12) = 16224)
    let pub := c.flashBytes (b + 16240) 48
    if !trailer then 2
    else if 3 < key ∨ bit c.rootRev key ∨ sha256 pub ≠ fuse 32 (Config.rootDigest key) then 3
    else if !Slh.sha2_192s.verify pub (c.flashBytes a len) (c.flashBytes (b + 16) 16224) then 4
    else if w 3 < c.peg 0x70000000 then 5
    else 1

/-- Slot `k` is tried (R414); `fault`: its flash read fails. The answer says whether the image passed. -/
def bootSlot (c : StringSt) (k : Nat) (fault : Bool) : Bool × StringSt :=
  let r := if fault then 6 else c.imageCheck k
  let c := c.setFld Reg.SEC_BOOT (if k = 0 then F.SEC_BOOT.RES0 else F.SEC_BOOT.RES1) r
  let a := 0x400000 * k
  let len := c.flashWord (a + 8)
  let c := if fault then c.addSat Reg.QSPI_CNT F.QSPI_CNT.RDERR 1
    else if r = 2 then c
    else c.setBytes 0 (c.flashBytes a len)
  if r = 1 then
    let c := c.wrWords (Reg.SEC_FWMEAS 0) (words8 (sha256 (c.flashBytes a len)))
    let c := c.wr Reg.SEC_FWSVN (c.flashWord (a + 12))
    let c := (c.pegWrite 0x7000000C (c.peg 0x7000000C + 1)).2
    let c := (c.setFld Reg.SEC_BOOT F.SEC_BOOT.SLOT k).setFld Reg.SEC_BOOT F.SEC_BOOT.STATE 1
    let c := c.setFld Reg.SEC_BOOT F.SEC_BOOT.ROOT (c.flashWord (a + len + 8))
    (true, (c.refetch 0).updCore 0 fun q => { q with pc := BitVec.ofNat 32 (c.flashWord (a + 16)) })
  else (false, c)

/-- The boot ROM chooses and checks an image (R414): whether one runs. -/
def boot (c : StringSt) (faults : Nat) : Bool × StringSt :=
  let cfg := c.peg 0x70000014
  let pref := bits cfg 0 1
  let try_ := bits cfg 1 2
  let c := c.wrWords (Reg.SEC_IDPK 0) (words8 c.idKey)
  let c := (c.setFld Reg.QSPI_STAT F.QSPI_STAT.PRESENT 1).wr Reg.QSPI_JEDEC (Config.jedec c.id.idx).toNat
  let (first, c) :=
    if try_ = 1 ∨ try_ = 2 then
      match c.pegWrite 0x70000014 (putBits cfg 1 2 0) with
      | (0, c) => (try_ - 1, c.setFld Reg.SEC_BOOT F.SEC_BOOT.TRIED 1)
      | (_, c) => (pref, c)
    else (pref, c)
  let (ok, c) := match c.bootSlot first (bit faults first) with
    | (true, c) => (true, c)
    | (false, c) => c.bootSlot (1 - first) (bit faults (1 - first))
  (ok, (if ok then c else c.setFld Reg.SEC_BOOT F.SEC_BOOT.STATE 2).newNonce)

/-! ## Services (R416) -/

/-- A string mask selects this string. -/
def selected (c : StringSt) (g5 : Nat) : Bool := bit g5 c.id.idx

/-- FLPROG: whole sectors of the flash are erased and programmed. -/
def flprog (c : StringSt) (sec : Bool) (g3 g4 g5 g6 : Nat) : Nat × StringSt :=
  if !c.selected g5 then (sOK, c)
  else
    let slot := 0x400000 * c.runSlot
    let overlaps := fun (a n : Nat) => decide (g3 < a + n ∧ a < g3 + g6)
    if g3 % 4096 ≠ 0 ∨ g4 % 4 ≠ 0 ∨ g6 % 4096 ≠ 0 ∨ g6 < 4096 ∨ 65536 < g6 ∨ 0x1000000 < g3 + g6 ∨ !c.phraseBuf sec false g4 g6 then
      (sBADVAL, c)
    else if overlaps slot 0x400000 ∨ overlaps 0xF00000 0x100000 then (sBUSY, c)
    else
      let c := { c with flash := (c.bytes g4 g6).zipIdx.foldl (fun (m : Tab Byte) (e : Byte × Nat) => Tab.set (fun _ => (0xFF : Byte)) m (g3 + e.2) e.1) c.flash }
      (sOK, c.addSat Reg.QSPI_CNT F.QSPI_CNT.ERASES (g6 / 4096))

/-- FWTRY. -/
def fwtry (c : StringSt) (g3 g5 : Nat) : Nat × StringSt :=
  if !c.selected g5 then (sOK, c)
  else if 1 < g3 then (sBADVAL, c)
  else c.pegWrite 0x70000014 (putBits (c.peg 0x70000014) 1 2 (g3 + 1))

/-- A floor goes up; one already as high is kept. -/
def raise (c : StringSt) (a v : Nat) : Nat × StringSt := if c.peg a < v then c.pegWrite a v else (sOK, c)

/-- SVNCOMMIT. -/
def svncommit (c : StringSt) (g3 : Nat) : Nat × StringSt :=
  if bit g3 1 ∧ !c.fabValid then (sBUSY, c)
  else
    let (r0, c) :=
      if bit g3 0 then
        match c.raise 0x70000000 (c.rd Reg.SEC_FWSVN) with
        | (0, c) =>
          let cfg := c.peg 0x70000014
          let new := putBits cfg 0 1 c.runSlot
          if new = cfg then (sOK, c) else c.pegWrite 0x70000014 new
        | r => r
      else (sOK, c)
    if r0 ≠ sOK then (r0, c)
    else if bit g3 1 then c.raise 0x70000004 (c.rd Reg.FAB_SVN)
    else (sOK, c)

/-- The trailer of R117 after a body of `n` bytes in `b`: the key slot that it names, where the trailer is well formed. -/
def trailerKey (b : List Byte) (n : Nat) : Option Nat :=
  let w := fun (i : Nat) => leNat ((b.drop (n + 4 * i)).take 4)
  if b.length = n + 16240 ∧ w 0 = 0x31475349 ∧ w 1 = 1 ∧ w 3 = 16224 ∧ w 2 < 8 then some (w 2) else none

/-- The body of `n` bytes in `b` is signed under a VALID key slot with bit `flag` of its word 0 set (R418). -/
def signedBy (c : StringSt) (b : List Byte) (n flag : Nat) : Bool :=
  match trailerKey b n with
  | some k => bit (c.keySlot k) 0 && bit (c.keySlot k) flag && Slh.sha2_192s.verify (c.slotKey k) (b.take n) ((b.drop (n + 16)).take 16224)
  | none => false

/-- One entry of a key bundle (R419): its words. -/
def entKind (e : List Nat) : Nat := bits (e.getD 0 0) 0 4
def entIdx (e : List Nat) : Nat := bits (e.getD 0 0) 4 3

/-- An entry's fields are in range: reserved bits and words are 0 (R419). -/
def entOk (e : List Nat) : Bool :=
  let w := e.getD 0 0
  let used := if entKind e = 1 then 12 else if entKind e = 3 then 8 else 0
  let flags := if entKind e = 1 then decide (bits w 8 24 = bits w 8 3) else if entKind e = 3 then decide (bits w 8 24 = bits w 8 5)
    else decide (bits w 8 24 = 0)
  decide (1 ≤ entKind e ∧ entKind e ≤ 5) && !bit w 7 && flags && (upFrom (1 + used) (15 - used)).all (fun i => decide (e.getD i 0 = 0)) &&
    (decide (entKind e ≠ 5) || decide (entIdx e < 4))

/-- The peg words that an entry writes. -/
def entWrites (nonce : List Nat) (root : Nat) (e : List Nat) : List (Nat × Nat) :=
  let i := entIdx e
  let w := e.getD 0 0
  let cfg := 0x70001000 + 64 * i
  let net := 0x70002000 + 64 * i
  match entKind e with
  | 1 => (upFrom 1 12).map (fun j => (cfg + 4 * j, e.getD j 0)) ++ [(cfg, 1 + 256 * bits w 8 3)]
  | 2 => [(cfg, 0)]
  | 3 =>
    let mask := hmacSha256 (fuse 32 Config.transportKey)
      (leBytes 4 0x314E4B49 ++ wordBytes nonce ++ [BitVec.ofNat 8 i])
    (List.range 8).map (fun j => (net + 32 + 4 * j, (e.getD (1 + j) 0) ^^^ ((leWords 8 mask).getD j 0))) ++ [(net, 1 + 256 * bits w 8 5)]
  | 4 => [(net, 0)]
  | _ => [(0x70000014, root)]

/-- Applies the entries in order (R419); the status is that of the first write that fails. -/
def applyKeys (nonce : List Nat) : List (List Nat) → StringSt → Nat × StringSt
  | [], c => (sOK, c)
  | e :: l, c =>
    let cfg := c.peg 0x70000014
    match c.pegWrites (entWrites nonce (putBit cfg (4 + entIdx e) true) e) with
    | (0, c) => applyKeys nonce l c
    | r => r

/-- Word 0 of the configuration key slots as the entries would leave them. -/
def slotsAfter (c : StringSt) (l : List (List Nat)) : List Nat :=
  (List.range 8).map fun k => l.foldl (fun v e =>
    if entIdx e = k ∧ entKind e = 1 then 1 + 256 * bits (e.getD 0 0) 8 3
    else if entIdx e = k ∧ entKind e = 2 then 0
    else v) (c.keySlot k)

/-- KEYLOAD (R419). -/
def keyload (c : StringSt) (sec : Bool) (g3 g4 : Nat) : Nat × StringSt :=
  if g3 % 4 ≠ 0 ∨ g4 < 32 ∨ 32 + 64 * 16 + 16240 < g4 ∨ !c.phraseBuf sec false g3 g4 then (sBADVAL, c)
  else
    let b := c.bytes g3 g4
    let w := fun (i : Nat) => leNat ((b.drop (4 * i)).take 4)
    let n := bits (w 1) 16 8
    let ents := (List.range n).map fun i => leWords 16 (b.drop (32 + 64 * i))
    let fits := decide (w 0 = 0x31424B49) && decide (bits (w 1) 0 16 = 1) && decide (bits (w 1) 24 8 = 0) && decide (1 ≤ n ∧ n ≤ 16) &&
      decide (w 2 = 32 + 64 * n) && ents.all entOk
    let mine := [w 6, w 7] = serialWords ∨ (w 6 = 0 ∧ w 7 = 0)
    let admin := (c.slotsAfter ents).any fun v => bit v 0 && bit v 8
    let root := ents.any fun e => entKind e == 5 && entIdx e == c.fld Reg.SEC_BOOT F.SEC_BOOT.ROOT
    if !fits ∨ !mine ∨ w 3 ≤ c.peg 0x70000008 ∨ !c.signedBy b (w 2) 8 ∨ !admin ∨ root then (sBADVAL, c)
    else match applyKeys [w 4, w 5] ents c with
      | (0, c) => c.pegWrite 0x70000008 (w 3)
      | r => r

/-- DBGUNLOCK (R420): a token for this string; a new nonce follows whether or not it unlocks. -/
def dbgunlock (c : StringSt) (sec : Bool) (g3 g5 : Nat) : Nat × StringSt :=
  if !c.selected g5 then (sOK, c)
  else
    let b := c.bytes g3 (48 + 16240)
    let w := fun (i : Nat) => leNat ((b.drop (4 * i)).take 4)
    let ok := c.phraseBuf sec false g3 (48 + 16240) && decide (w 0 = 0x31554449) && decide (w 1 = c.id.idx) && decide ([w 2, w 3] = serialWords) &&
      decide ((upFrom 4 8).map w = (List.range 8).map fun i => c.rd (Reg.SEC_DBGNONCE i)) && c.signedBy b 48 10
    let d := if ok then c.setFld Reg.SEC_BOOT F.SEC_BOOT.DBGUNL 1 else c
    (if ok then sOK else sBADVAL, d.newNonce)

/-- The 48 words of an attestation report that are signed (R421). -/
def report (c : StringSt) (nonce : List Nat) : List Nat :=
  let at8 := fun (o : Nat) => (List.range 8).map fun i => c.rd (o + 4 * i)
  [0x31524149,
    1 + 65536 * c.id.idx + 131072 * c.role + 1048576 * c.fld Reg.SEC_BOOT F.SEC_BOOT.DBGUNL + 2097152 * c.runSlot] ++
  nonce ++ ts96 c.time ++ at8 (Reg.SEC_FWMEAS 0) ++
  (if c.fabValid then at8 (Reg.FAB_DIGEST 0) else [0, 0, 0, 0, 0, 0, 0, 0]) ++ at8 (Reg.CAL_DIGEST 0) ++
  [c.rd Reg.SEC_FWSVN, c.peg 0x70000000, c.rd Reg.FAB_SVN, c.peg 0x70000004, c.peg 0x70000008, c.peg 0x7000000C, c.secKeys] ++
  serialWords ++ [0, 0]

/-- ATTEST (R421). -/
def attest (c : StringSt) (sec : Bool) (g3 g4 : Nat) : Nat × StringSt :=
  if g4 % 64 ≠ 0 ∨ !c.phraseBuf sec false g3 32 ∨ !c.phraseBuf sec true g4 17280 then (sBADVAL, c)
  else
    let w := c.report (c.words g3 8)
    let c := c.setWords g4 w
    (sOK, c.setBytes (g4 + 192) (Slh.sha2_128f.sign c.idSecret c.idPrf c.idPublic (wordBytes w)))

end StringSt

/-- BOOT_IMAGE_CHECK: the boot ROM of string `x` after a reset (R414); a read of a slot whose bit is set in `faults` fails. An image that
runs then loads its descriptor (04_photonic_seat.md R119). -/
def execBootImageCheck (x : Str) (faults : BitVec 2) (t : Nat) (s : State) : Out :=
  let s := s.advance t
  let c := s.str x
  if s.stage.off ∨ c.fld Reg.SEC_BOOT F.SEC_BOOT.STATE ≠ 0 then .next s
  else
    let (ok, c) := c.boot faults.toNat
    let s := s.setStr x c
    .next (if ok then s.flashLoad x else s)

end Sys2Proof.Machine
end

