-- ==== Sys2Proof/Machine/Access.lean ====
section
/-! DEFINITION. Loads and stores of registers, by whom they are permitted and what each does (00_scope.md R8 to R14, 02_quinli_isa.md
R45, R46, 20_register_map.md R443 to R446); the address space of a core (R34, R35); the DBG block (R449); host writes (R446). -/

namespace Sys2Proof.Machine

/-- Who accesses a register: the host, or core `i` at a level with its S and the ring of its phrase. -/
inductive Agent where
  | host
  | core (i pl : Nat) (sec : Bool) (ring : Nat)
  deriving DecidableEq, Repr

/-- The core of a string as it accesses. -/
def CoreSt.agent (c : CoreSt) (i : Nat) : Agent := .core i c.pl c.sec c.ring

/-- The power domain of the block that holds the register at BAR0 offset `o` (R444). -/
def StringSt.regDom (c : StringSt) (o : Nat) : Nat :=
  match o / 0x1000 with
  | 0x00 => 0
  | 0x01 => 43
  | 0x12 => 0
  | 0x13 => 57
  | 0x14 => 58
  | 0x15 => 60
  | 0x16 => 0
  | 0x17 => if o < Reg.MBX_STAT 0 then c.mbxDom ((o - Reg.MBX_DATA 0 0) / 64) else 0
  | 0x18 => 0
  | 0x19 => 0
  | 0x1A => 0
  | 0x1C => 64
  | 0x1D => 62
  | 0x1E => 61
  | 0x1F => 63
  | 0x25 => 59
  | 0x26 => 61
  | k => if 0x30 ≤ k ∧ k < 0x40 then 41 + (k - 0x30) else 1

/-- The block of the register at offset `o` has its power (R37). -/
def State.regOn (s : State) (x : Str) (o : Nat) : Bool :=
  if 8 ≤ o / 0x1000 ∧ o / 0x1000 < 16 then (s.tile (o / 0x1000 - 8)).domOn 0 else (s.str x).domOn ((s.str x).regDom o)

/-- The offset lies in a register array: `n` registers from `b`, `d` bytes apart. -/
def inArr (o b n d : Nat) : Bool := decide (b ≤ o) && decide (o < b + n * d) && decide ((o - b) % d = 0)

/-- MBX_DATA of mailboxes 0 to 3. -/
def secureMbx (o : Nat) : Bool := decide (Reg.MBX_DATA 0 0 ≤ o ∧ o < Reg.MBX_DATA 4 0)

/-- A level may load the register at `o` (R45, R354). -/
def loadPerm (o : Nat) (w : Agent) : Bool :=
  match w with
  | .host => true
  | .core _ pl sec _ =>
    let block := o / 0x1000
    (!secureMbx o || sec) && (decide (pl ≠ 2) || sec || !(decide (block = 0x1D) || decide (block = 0x1E)))

/-- The registers that a phrase of ring `r` may store to (R444, R445, R91). -/
def phrasePerm (o r : Nat) : Bool :=
  let block := o / 0x1000
  (decide (8 ≤ block) && decide (block < 16)) || decide (block = 0x13) || decide (block = 0x14) ||
    [Reg.RING_CQBASE_L r, Reg.RING_CQBASE_H r, Reg.RING_CQCFG r, Reg.PLAN_CFG, Reg.PLAN_CALCFG, Reg.CAL_CFG, Reg.CAL_CFG2,
      Reg.RED_CFG, Reg.RED_SWAP, Reg.RED_CTL, Reg.TIME_PTPCFG, Reg.TIME_LAT 0, Reg.TIME_LAT 1, Reg.TIME_TCAPCFG 0,
      Reg.TIME_TCAPCFG 1, Reg.PWR_REQ, Reg.PWR_CFG, Reg.PWR_WAKENS, Reg.PWR_WAKESL, Reg.AGE_CFG, Reg.AGE_THR, Reg.RTE_CFG,
      Reg.XT_CFG, Reg.XT_MSEL].contains o ||
    (decide (Reg.TIME_TOUTCFG 0 ≤ o) && decide (o < Reg.TIME_TOUTCFG 4)) || inArr o (Reg.ICT_TSTR 0) 16 4 ||
    inArr o (Reg.ICT_TSRC 0) 16 4 || inArr o (Reg.ICT_DST 0 0) 32 4

/-- Registers that only S = 1 may store to, by the value stored where that matters (R40, R77, R363, R424; log entry 22). -/
def monitorOnly (o v : Nat) : Bool :=
  let block := o / 0x1000
  decide (block = 0x1D) || decide (block = 0x1E) || inArr o (Reg.RING_DB 0) 4 4 || decide (o = Reg.SEQ_START) ||
    inArr o (Reg.MBX_CFG 0) 4 4 || inArr o (Reg.MBX_STAT 0) 4 4 || (decide (o = Reg.GEN_RST) && bit v 0)

/-- The host may write the register at `o` (R446). -/
def hostPerm (o : Nat) (unlocked : Bool) : Bool :=
  inArr o (Reg.RING_DB 4) 8 4 || inArr o (Reg.MBX_STAT 4) 12 4 || inArr o (Reg.MBX_HSTAGE 0) 16 4 || decide (o = Reg.MBX_HPOST) ||
    decide (o = Reg.MBX_HTAKE) || decide (o = Reg.MBX_EPRST) || (unlocked && inArr o Reg.DBG_STAT 4 4)

/-- A store of `v` to the register at `o` is permitted; one that the host may not make is discarded (R45, R446). -/
def storePerm (c : StringSt) (o v : Nat) (w : Agent) : Bool :=
  match w with
  | .host => hostPerm o (c.flag Reg.SEC_BOOT F.SEC_BOOT.DBGUNL)
  | .core _ pl sec r => if pl = 0 then true else if pl = 1 then sec || !monitorOnly o v else phrasePerm o r

/-! ## Loads -/

/-- DBG_CTL.HALT of core `i` (R449): a halt is refused but in BOOT, IDLE and FAILED. -/
def StringSt.dbgHaltReq (c : StringSt) (i : Nat) (on : Bool) : StringSt :=
  if !on then c.updCore i fun k => { k with dbgHalt := false }
  else if (c.core i).dbgHalt then c
  else if c.role = rBOOT ∨ c.role = rIDLE ∨ c.role = rFAILED then c.updCore i fun k => { k with dbgHalt := true }
  else c.setFld Reg.DBG_STAT F.DBG_STAT.REFUSED 1

/-- DBG_CTL.HALT follows the cores. -/
def StringSt.dbgShow (c : StringSt) : StringSt :=
  c.setFld Reg.DBG_CTL F.DBG_CTL.HALT ((List.range 4).foldl (fun v i => if (c.core i).dbgHalt then v + 2 ^ i else v) 0)

/-- An access through DBG_DATA fails (R449). -/
def StringSt.dbgFail (c : StringSt) : StringSt := c.setFld Reg.DBG_STAT F.DBG_STAT.DERR 1

/-- DBG_ADDR moves on after an access that takes place (R449). -/
def StringSt.dbgNext (c : StringSt) : StringSt := c.wr Reg.DBG_ADDR (c.rd Reg.DBG_ADDR + 4)

/-- A word of the boot ROM. -/
def romWord (a : Nat) : Nat := leNat ((upFrom (a % 0x20000) 4).map Config.romByte)

/-- The word at a core address as DBG_DATA reads it: none where the address is reserved or powered down (R449). -/
def State.dbgWord (s : State) (x : Str) (a : Nat) : Option Nat :=
  let c := s.str x
  if a < 0x02000000 then (if c.ramOk a 4 then some (c.word a) else none)
  else if 0x40000000 ≤ a ∧ a < 0x40040000 then
    let o := a - 0x40000000
    if (regAt o).isSome && s.regOn x o then some (s.peek x o) else none
  else if 0x70000000 ≤ a ∧ a < 0x70080000 then (if c.domOn 62 then some 0 else none)
  else if 0x7F000000 ≤ a ∧ a < 0x7F020000 then some 0
  else none

/-- A read of DBG_DATA, by any accessor (R449). -/
def State.dbgRead (s : State) (x : Str) : Nat × State :=
  let c := s.str x
  if !c.flag Reg.SEC_BOOT F.SEC_BOOT.DBGUNL then (0, s)
  else match s.dbgWord x (c.rd Reg.DBG_ADDR) with
    | some v => (v, s.updStr x StringSt.dbgNext)
    | none => (0, s.updStr x StringSt.dbgFail)

/-- A write of DBG_DATA (R449): to SRAM only, and only in BOOT, IDLE and FAILED. -/
def StringSt.dbgWrite (c : StringSt) (v : Nat) : StringSt :=
  let a := c.rd Reg.DBG_ADDR
  if !c.flag Reg.SEC_BOOT F.SEC_BOOT.DBGUNL then c
  else if a < 0x02000000 ∧ c.ramOk a 4 = true ∧ (c.role = rBOOT ∨ c.role = rIDLE ∨ c.role = rFAILED) then (c.setWord a v).dbgNext
  else c.dbgFail

namespace State

/-- The endpoint of the mailboxes that an agent is (R354). -/
def endpoint : Agent → Nat
  | .host => 4
  | .core i _ _ _ => i

/-- The core that a load of RING_CLAIM claims for, where it is at firmware level and has no phrase. -/
def claimer (c : StringSt) : Agent → Option Nat
  | .host => none
  | .core i pl _ _ => if pl = 1 ∧ c.mayClaim i = true then some i else none

/-- A load of the register at `o` with all that it does: what it returns, and the state after it (R8, R10). -/
def loadReg (s : State) (x : Str) (o : Nat) (w : Agent) : Nat × State :=
  let c := s.str x
  let block := o / 0x1000
  if 8 ≤ block ∧ block < 16 then
    let r := (s.tile (block - 8)).loadReg (o % 0x1000) true
    (r.1, s.setTile (block - 8) r.2)
  else if o = Reg.TIME_NS then (nsOf c.time, s.updStr x fun c => c.readNs.2)
  else if o = Reg.TIME_TXID 0 ∨ o = Reg.TIME_TXID 1 then
    let n := (o - Reg.TIME_TXID 0) / 16
    ((c.readTxid n true).1, s.updStr x fun c => (c.readTxid n true).2)
  else if o = Reg.TIME_TCAPNS 0 ∨ o = Reg.TIME_TCAPNS 1 then
    let j := (o - Reg.TIME_TCAPNS 0) / 16
    ((c.readTcap j).1, s.updStr x fun c => (c.readTcap j).2)
  else if o = Reg.RING_CLAIM then
    match claimer c w with
    | some i =>
      -- the word read names the phrase that the load claims (R44, R52)
      (c.ringClaim, s.phraseClaim x i false)
    | none => (s.peek x o, s)
  else if o < Reg.MBX_STAT 0 ∧ block = 0x17 then
    if secureMbx o ∧ w = .host then (0, s)
    else
      let k := (o - Reg.MBX_DATA 0 0) / 64
      (s.peek x o, if (o - Reg.MBX_DATA 0 0) % 64 = 0 then s.updStr x fun c => c.k4Read k (endpoint w) else s)
  else if o = Reg.ALV_HBSTAT then (s.peek x o, s.updStr x fun c => { c with alv := { c.alv with minLeft := none } })
  else if o = Reg.PCIE_STAT then
    -- link up, 1, 2 or 4 lanes, a speed: which, no rule gives (R450; log entry 2)
    let v := c.draw 24
    (v.1 % 2 + 2 * 2 ^ (v.1 / 2 % 3) + 16 * (v.1 / 6), s.setStr x v.2)
  else if o = Reg.PCIE_ERR ∨ o = Reg.PSTG_PHASE ∨ (o = Reg.TIME_PTPSTAT ∧ c.ptpOn = true) then
    -- errors on the PCIe link, the power stage's phases, the states of the PTP ports: values that no rule gives (R333, R450; log entry 2)
    let v := c.draw (if o = Reg.PCIE_ERR then 4294967296 else 65536)
    (v.1, s.setStr x v.2)
  else if Reg.TLK_ERR 0 ≤ o ∧ o ≤ Reg.TLK_ERR 7 ∧ o % 0x1000 = 4 then
    -- how often a link has sent a transfer again, no rule gives (R450; log entry 2)
    let v := (c.wr o (clearRead (regFields o) (c.rd o))).draw 65536
    (putBits (s.peek x o) 16 16 v.1, s.setStr x v.2)
  else if o = Reg.DBG_DATA then s.dbgRead x
  else (s.peek x o, s.updStr x fun c => c.wr o (clearRead (regFields o) (c.rd o)))

/-! ## Stores -/

/-- Index of a register in an array. -/
def idx (o b d : Nat) : Nat := (o - b) / d

/-- A store to a register without behaviour of its own, by the access type of each field (R8, R11). -/
def storePlain (c : StringSt) (o v : Nat) : StringSt := c.wr o (storeFields (regFields o) (c.rd o) v)

/-- A store to ALV_SRC[src]: sticky bits cleared, FORCE set or cleared (R365, R368). -/
def storeSrc (c : StringSt) (src v : Nat) : StringSt :=
  let c := c.clearSticky src (bit v 1) (bit v 2)
  if bit v 3 then c.force src else c.setFld (Reg.ALV_SRC src) F.ALV_SRC.FORCE 0

/-- A store to MBX_CFG[k] (R354): a receiver that does not exist, or the host for a secure mailbox, is stored as 0. -/
def storeMbxCfg (c : StringSt) (k v : Nat) : StringSt :=
  let r := bits v 0 3
  c.wr (Reg.MBX_CFG k) (bits v 3 3 * 8 + if 4 < r ∨ (r = 4 ∧ k < 4) then 0 else r)

/-- A store to DBG_CTL: halts and releases at once; steps of halted cores (R449). A core's own request to step is performed by
DBG_CTL_STEP, which the host's stores are. -/
def storeDbgCtl (c : StringSt) (v : Nat) (w : Agent) : StringSt :=
  let c := ((List.range 4).foldl (fun c i => c.dbgHaltReq i (bit v i)) c).dbgShow
  match w with
  | .host => c
  | .core .. => { c with dbgReq := (List.range 4).foldl (fun r i => if bit v (4 + i) && (c.core i).dbgHalt then putBit r i true else r) c.dbgReq }

/-- A store to RED_CTL (R285, R288, R301); a phrase reaches SWAP and DROP only (R445). -/
def storeRedCtl (s : State) (x : Str) (v : Nat) (phrase : Bool) : State :=
  let b := fun (f : Fld) => bit v f.lo
  let s := if b F.RED_CTL.READY && !phrase then s.updStr x StringSt.redReady else s
  let s := if b F.RED_CTL.JOIN && !phrase then s.startJoin x else s
  let s := if b F.RED_CTL.TAKE && !phrase then s.updStr x StringSt.askTake else s
  let s := if b F.RED_CTL.SWAP then s.swapNow x else s
  if b F.RED_CTL.DROP then s.dropNow x else s

/-- Stores to the TIME block (R328 to R341). -/
def storeTime (c : StringSt) (o v : Nat) : StringSt :=
  if o = Reg.TIME_SEC_H then { c with tim := { c.tim with heldH := v % 65536 } }
  else if o = Reg.TIME_SEC_L then { c with tim := { c.tim with heldL := v } }
  else if o = Reg.TIME_NS then c.storeNs v
  else if o = Reg.TIME_FNS then c
  else if o = Reg.TIME_OFFS then c.storeOffs v
  else if o = Reg.TIME_CTL then c.storeTimeCtl v
  else if o = Reg.TIME_PTPCFG then c.storePtpCfg v
  else if inArr o (Reg.TIME_TOUTCFG 0) 4 16 then c.toutStore (idx o (Reg.TIME_TOUTCFG 0) 16) v
  else storePlain c o v

/-- Stores to the block of Ethernet port `n` (R317 to R325). -/
def storeEth (c : StringSt) (n o v : Nat) : StringSt :=
  if o = Reg.ETH_CFG n then c.storeEthCfg n v
  else if inArr o (Reg.ETH_POLCFG n 0) 12 4 then
    let i := idx o (Reg.ETH_POLCFG n 0) 4
    c.storePol n (i % 4) (i / 4) v
  else if o = Reg.ETH_GCLCFG n then c.storeGcl n v
  else storePlain c o v

/-- A phrase's store to PWR_REQ: its phrase carries a frame-bound effect (R387). -/
def reqPower (c : StringSt) (i v : Nat) : StringSt :=
  ((c.wr Reg.PWR_REQ (bits v 0 2)).setFld Reg.PWR_STAT F.PWR_STAT.PEND 1).bindEff i (.pwrReq (bits v 0 2))

/-- A permitted store of `v` to the register at `o`, with all that it does. -/
def storeRegBy (s : State) (x : Str) (o v : Nat) (w : Agent) : State :=
  let up := fun (f : StringSt → StringSt) => s.updStr x f
  let sec := match w with | .host => false | .core _ _ sec _ => sec
  let phrase := match w with | .host => none | .core i pl _ _ => if pl = 2 then some i else none
  let host := decide (w = .host)
  match o / 0x1000 with
  | 0x00 =>
    if o = Reg.GEN_RST then
      let s := s.tileReset x (bits v 8 8)
      if bit v 0 then s.resetString x .str else s
    else if o = Reg.GEN_ERST 0 ∨ o = Reg.GEN_ERST 1 then
      let b := 32 * idx o (Reg.GEN_ERST 0) 4
      up fun c => ((List.range 36).filter fun e => decide (b ≤ e ∧ e < b + 32) && bit v (e - b)).foldl (fun (c : StringSt) e => c.engineReset e) c
    else up fun c => storePlain c o v
  | 0x01 =>
    if inArr o (Reg.RING_DB 0) 16 4 then s.doorbell x (idx o (Reg.RING_DB 0) 4) (bits v 0 16) (bits v 16 2) host
    else if inArr o (Reg.RING_CQCFG 0) 16 4 then up fun c => c.cqEnable (idx o (Reg.RING_CQCFG 0) 4) v
    else if o = Reg.RING_EN then up fun c =>
      (c.wr o (if sec then v % 65536 else putBits (v % 65536) 0 4 (c.rd o))).reselect
    else up fun c => storePlain c o v
  | 0x02 => if o = Reg.SEQ_START then up fun c => c.seqStart v else up fun c => storePlain c o v
  | 0x04 =>
    if inArr o (Reg.ENG_ROLE 0) 36 4 then up fun c => c.roleWrite (idx o (Reg.ENG_ROLE 0) 4) v else up fun c => storePlain c o v
  | 0x05 => up fun c => c.mapWrite (idx o (Reg.ENGMAP_BLK 0) 4) v
  | 0x10 =>
    -- LEAD of a running calendar cannot be changed (10_plans_strokes.md R256)
    if o = Reg.PLAN_CALCFG then up fun c => if calRUNNING ≤ c.calState then c else storePlain c o v else up fun c => storePlain c o v
  | 0x12 => if o = Reg.RED_CTL then s.storeRedCtl x v phrase.isSome else up fun c => storePlain c o v
  | 0x13 => up fun c => storeEth c 0 o v
  | 0x14 => up fun c => storeEth c 1 o v
  | 0x15 => up fun c => storeTime c o v
  | 0x16 =>
    if o = Reg.EVF_FIRE then up fun c => (c.softFire (bits v 0 6)).1
    else if o = Reg.EVF_CSTAT then
      up fun c => (List.range 4).foldl (fun (c : StringSt) i => if bit v i && bit (c.rd o) i then c.clearLine i else c) c
    else if Reg.EVF_C2K 0 0 ≤ o ∧ o < Reg.EVF_CH 0 then
      let k := idx o (Reg.EVF_C2K 0 0) 4 % 6
      -- consumers 92 to 191 are reserved (R344)
      up fun c => c.wr o (if k < 2 then v else if k = 2 then v % 268435456 else 0)
    else up fun c => storePlain c o v
  | 0x17 =>
    if inArr o (Reg.MBX_CFG 0) 16 4 then up fun c => storeMbxCfg c (idx o (Reg.MBX_CFG 0) 4) v
    else if o = Reg.MBX_HPOST then up fun c => c.hostPost (v % 16)
    else if o = Reg.MBX_HTAKE then up fun c => c.hostTake (v % 16)
    else if o = Reg.MBX_EPRST then
      up fun c => (List.range 5).foldl (fun (c : StringSt) e => if bit v e && (!host || decide (e = 4)) then c.endpointReset e else c) c
    else up fun c => storePlain c o v
  | 0x18 =>
    if o = Reg.ALV_HBEAT then up fun c => c.heartbeat v
    else if inArr o (Reg.ALV_SRC 0) 160 4 then up fun c => storeSrc c (idx o (Reg.ALV_SRC 0) 4) v
    else if o = Reg.ALV_CFG ∧ !sec then up fun c => storePlain c o (putBit v 0 (c.flag o F.ALV_CFG.INJEN))
    else up fun c => storePlain c o v
  | 0x19 =>
    if o = Reg.PWR_REQ then match phrase with
      | some i => up fun c => reqPower c i v
      | none => up fun c => storePlain c o v
    else if o = Reg.PWR_MPLIM then up fun c => c.wr o (min 160000 (v % 262144))
    else if o = Reg.PWR_VACTLIM then up fun c => c.wr o (min 2000 (v % 4096))
    else if o = Reg.PWR_CTL then (if bit v 0 then s.railOn else s)
    else up fun c => storePlain c o v
  | 0x1A =>
    let s := up fun c => storePlain c o v
    if inArr o (Reg.THM_TRES 0) 8 4 then s.sendThm x (idx o (Reg.THM_TRES 0) 4)
    else if inArr o (Reg.THM_TMASK 0) 8 4 then s.sendThm x (idx o (Reg.THM_TMASK 0) 4)
    -- firmware sets the thresholds anew (R392)
    else if o = Reg.THM_LVL then s.setThresholds x
    else s
  | 0x1C => if o = Reg.HKA_CFG then up fun c => c.storeHka v else up fun c => storePlain c o v
  | 0x20 =>
    if o = Reg.DBG_CTL then up fun c => storeDbgCtl c v w
    else if o = Reg.DBG_ADDR then up fun c => c.wr o (v / 4 * 4)
    else if o = Reg.DBG_DATA then up fun c => c.dbgWrite v
    else up fun c => storePlain c o v
  | 0x23 =>
    if o = Reg.XT_MSEL then up fun c => c.storeMsel v
    else if o = Reg.XT_CFG then match phrase with
      | some i => up fun c => c.bindEff i (.xtCfg v)
      | none => up fun c => storePlain c o v
    else up fun c => storePlain c o v
  | 0x24 =>
    if inArr o (Reg.ICT_TSTR 0) 16 4 then up fun c => c.storeTstr (idx o (Reg.ICT_TSTR 0) 4) v else up fun c => storePlain c o v
  | k => if 8 ≤ k ∧ k < 16 then s.tileStore x (k - 8) (o % 0x1000) v phrase.isSome else up fun c => storePlain c o v

/-- A store as above; lines and roles that it changes are seen (R283). -/
def storeReg (s : State) (x : Str) (o v : Nat) (w : Agent) : State := (s.storeRegBy x o v w).capoSettle

/-! ## The address space of a core (R34, R35, R45, R46) -/

/-- What an access of `n` bytes at address `a` by a core meets; a store is of the value `v`. -/
def meets (s : State) (x : Str) (k : CoreSt) (i a n : Nat) (st : Option Nat) : Meets :=
  let c := s.str x
  if a < 0x02000000 then c.buffer k.pl k.sec st.isSome a n
  else if 0x40000000 ≤ a ∧ a < 0x40040000 then
    let o := a - 0x40000000
    if n ≠ 4 ∨ (regAt o).isNone = true ∨ s.regOn x o = false then .buserr
    else if (match st with | some v => storePerm c o v (k.agent i) | none => loadPerm o (k.agent i)) then .fine
    else .priv
  else if 0x7F000000 ≤ a ∧ a + n ≤ 0x7F020000 then (if st.isNone && decide (k.pl = 0) then .fine else .priv)
  else .buserr

/-- SRAM as core `i` loads it at `a`: a phrase sees a commit that its command order puts before it in the calibration record, though the
effect frame has not come (R267; log entry 100). -/
def loadView (c : StringSt) (i a : Nat) : StringSt :=
  let k := c.core i
  match c.cal.commit with
  | some m =>
    if k.pl = 2 ∧ m.gseq ≤ k.gseq ∧ 0x00ED8000 ≤ a ∧ a < 0x00EFD000 then c.calInto m.frame m.words else c
  | none => c

/-- A load of `n` bytes at `a`, which meets no error: the number read, least significant byte first, and the state after it. -/
def loadAt (s : State) (x : Str) (i a n : Nat) : Nat × State :=
  let c := s.str x
  if a < 0x02000000 then ((loadView c i a).sram.read a n, s)
  else if a < 0x40040000 then s.loadReg x (a - 0x40000000) ((c.core i).agent i)
  else (leNat ((upFrom (a % 0x20000) n).map Config.romByte), s)

/-- A store of the low `n` bytes of `v` at `a`, which meets no error. -/
def storeAt (s : State) (x : Str) (i a n v : Nat) : State :=
  if a < 0x02000000 then s.updStr x fun c => { c with sram := c.sram.write a n v }
  else s.storeReg x (a - 0x40000000) v (((s.str x).core i).agent i)

end State

/-! ## Commands -/

/-- REGISTER_WRITE: a store of a word to a register by the host, firmware or the monitor (R8, R11, R12, R446). A store that is not
permitted, or reaches no register, has no effect here: what a core's own store raises is said of SW (R52). -/
def execRegisterWrite (x : Str) (o : BitVec 18) (v : Word) (w : Writer) (s : State) : Out :=
  let o := o.toNat / 4 * 4
  let a : Agent := match w with | .host => .host | .firmware => .core 0 1 false 0 | .monitor => .core 0 0 true 0
  .next (if (w ≠ .host ∨ (s.str x).domOn 59) ∧ ((regAt o).isSome && s.regOn x o && storePerm (s.str x) o v.toNat a) = true then
    s.storeReg x o v.toNat a else s)

/-- RC_READ: a read of a register by the host, or through DBG, which clears nothing (R8, R10). A host read in a domain that is off
returns a Completer Abort (R37). -/
def execRcRead (x : Str) (o : BitVec 18) (dbg : Bool) (s : State) : Out :=
  let o := o.toNat / 4 * 4
  .next (if dbg ∨ (regAt o).isNone = true ∨ (s.str x).domOn 59 = false then s
    else if s.regOn x o then (s.loadReg x o .host).2
    else s.updStr x fun c => c.addSat Reg.PCIE_CNT F.PCIE_CNT.LO 1)

/-- BAR2_HOST_WRITE: one word that the host writes through BAR2 (R14, R84, R446). -/
def execBar2HostWrite (x : Str) (a : BitVec 25) (v : Word) (s : State) : Out :=
  let c := s.str x
  let a := a.toNat / 4 * 4
  let ring := decide (0x440000 ≤ a ∧ a < 0x4C0000)
  .next (if c.domOn 59 = false then s
    else if ring ∧ c.role = rSTANDBY then s.updStr x fun c => c.addSat Reg.RING_DISC F.RING_DISC.STBYWR 1
    else if (ring ∨ (0x500000 ≤ a ∧ a < 0x600000)) ∧ c.ramOk a 4 = true then s.updStr x fun c => c.setWord a v.toNat
    else s)

/-- DBG_CTL_HALT: a host write of a HALT bit while debug is unlocked (R449). -/
def execDbgCtlHalt (x : Str) (i : Fin 4) (on : Bool) (s : State) : Out :=
  .next (s.updStr x fun c =>
    if c.flag Reg.SEC_BOOT F.SEC_BOOT.DBGUNL && c.domOn 1 && c.domOn 59 then (c.dbgHaltReq i.val on).dbgShow else c)

/-- DBG_DATA_READ (R449). -/
def execDbgDataRead (x : Str) (s : State) : Out := .next (if (s.str x).domOn 1 then (s.dbgRead x).2 else s)

/-- DBG_DATA_WRITE: a host write (R449). -/
def execDbgDataWrite (x : Str) (v : Word) (s : State) : Out :=
  .next (s.updStr x fun c => if c.domOn 1 && c.domOn 59 then c.dbgWrite v.toNat else c)

end Sys2Proof.Machine
end

