-- ==== Sys2Proof/Machine/Encoding.lean ====
section
/-! DEFINITION. The instructions of a Quinli core and their words (02_quinli_isa.md R47 to R54, R59): fields as the formats give them,
whether or not an instruction uses them. -/

namespace Sys2Proof.Machine

/-- The ALU group, op 0x00 (R49). -/
inductive Alu where
  | add | sub | and | or | xor | sll | srl | sra | slt | sltu | mul | mulh | mulhu | div | divu | rem | remu | slli | srli | srai
  | min | max | clz
  deriving DecidableEq, Repr

/-- Format I: the immediate group, loads, stores, branches and JALR (R51, R52, R54). -/
inductive ImmOp where
  | addi | andi | ori | xori | lui | slti | sltiu | lw | lh | lhu | lb | lbu | sw | sh | sb | beq | bne | blt | bge | bltu | bgeu | jalr
  deriving DecidableEq, Repr

/-- The ATOM group, op 0x17 (R53). -/
inductive Atom where
  | swap | aadd | cas
  deriving DecidableEq, Repr

/-- Format X: the device operations (R59). -/
inductive Dev where
  | chrd | chwr | loopset | fretset | plbeg | pladd | plseal | plarm | plcancel | calset | evfire | evwait | mbpost | mbtake
  | pegwr | pegrd | tsread | fence | yield | done | trap | halt | mfs | mts | eret
  deriving DecidableEq, Repr

/-- An instruction with its fields. -/
inductive Insn where
  | alu (f : Alu) (gd ga gb : BitVec 5)
  | imm (f : ImmOp) (gd ga : BitVec 5) (v : BitVec 16)
  | jump (link : Bool) (v : BitVec 26)
  | atom (f : Atom) (gd ga gb : BitVec 5)
  | dev (f : Dev) (gd ga : BitVec 5) (v : BitVec 10)
  deriving DecidableEq, Repr

/-- func of the ALU group (R49). -/
def Alu.func : Alu → BitVec 11
  | .add => 0x001
  | .sub => 0x002
  | .and => 0x003
  | .or => 0x004
  | .xor => 0x005
  | .sll => 0x006
  | .srl => 0x007
  | .sra => 0x008
  | .slt => 0x009
  | .sltu => 0x00A
  | .mul => 0x00B
  | .mulh => 0x00C
  | .mulhu => 0x00D
  | .div => 0x00E
  | .divu => 0x00F
  | .rem => 0x010
  | .remu => 0x011
  | .slli => 0x012
  | .srli => 0x013
  | .srai => 0x014
  | .min => 0x015
  | .max => 0x016
  | .clz => 0x017

def Alu.all : List Alu :=
  [.add, .sub, .and, .or, .xor, .sll, .srl, .sra, .slt, .sltu, .mul, .mulh, .mulhu, .div, .divu, .rem, .remu, .slli, .srli, .srai,
    .min, .max, .clz]

/-- op of format I (R48). -/
def ImmOp.op : ImmOp → BitVec 6
  | .addi => 0x01
  | .andi => 0x02
  | .ori => 0x03
  | .xori => 0x04
  | .lui => 0x05
  | .slti => 0x06
  | .sltiu => 0x07
  | .lw => 0x08
  | .lh => 0x09
  | .lhu => 0x0A
  | .lb => 0x0B
  | .lbu => 0x0C
  | .sw => 0x0D
  | .sh => 0x0E
  | .sb => 0x0F
  | .beq => 0x10
  | .bne => 0x11
  | .blt => 0x12
  | .bge => 0x13
  | .bltu => 0x14
  | .bgeu => 0x15
  | .jalr => 0x16

def ImmOp.all : List ImmOp :=
  [.addi, .andi, .ori, .xori, .lui, .slti, .sltiu, .lw, .lh, .lhu, .lb, .lbu, .sw, .sh, .sb, .beq, .bne, .blt, .bge, .bltu, .bgeu,
    .jalr]

/-- func of the ATOM group (R53). -/
def Atom.func : Atom → BitVec 11
  | .swap => 0x001
  | .aadd => 0x002
  | .cas => 0x003

def Atom.all : List Atom := [.swap, .aadd, .cas]

/-- op and sub of format X (R59). -/
def Dev.code : Dev → BitVec 6 × BitVec 6
  | .chrd => (0x20, 0)
  | .chwr => (0x20, 1)
  | .loopset => (0x21, 0)
  | .fretset => (0x21, 1)
  | .plbeg => (0x22, 0)
  | .pladd => (0x22, 1)
  | .plseal => (0x22, 2)
  | .plarm => (0x22, 3)
  | .plcancel => (0x22, 4)
  | .calset => (0x22, 5)
  | .evfire => (0x23, 0)
  | .evwait => (0x23, 1)
  | .mbpost => (0x24, 0)
  | .mbtake => (0x24, 1)
  | .pegwr => (0x25, 0)
  | .pegrd => (0x25, 1)
  | .tsread => (0x26, 0)
  | .fence => (0x27, 0)
  | .yield => (0x27, 1)
  | .done => (0x27, 2)
  | .trap => (0x27, 3)
  | .halt => (0x27, 4)
  | .mfs => (0x28, 0)
  | .mts => (0x28, 1)
  | .eret => (0x28, 2)

def Dev.all : List Dev :=
  [.chrd, .chwr, .loopset, .fretset, .plbeg, .pladd, .plseal, .plarm, .plcancel, .calset, .evfire, .evwait, .mbpost, .mbtake,
    .pegwr, .pegrd, .tsread, .fence, .yield, .done, .trap, .halt, .mfs, .mts, .eret]

/-- op of an instruction, which CAUSE.INFO gives for a fault (R69). -/
def Insn.op : Insn → BitVec 6
  | .alu _ _ _ _ => 0x00
  | .imm f _ _ _ => f.op
  | .jump false _ => 0x18
  | .jump true _ => 0x19
  | .atom _ _ _ _ => 0x17
  | .dev f _ _ _ => f.code.1

/-- The word of an instruction (R47). -/
def encodeInsn : Insn → BitVec 32
  | .alu f gd ga gb => (0x00 : BitVec 6) ++ gd ++ ga ++ gb ++ f.func
  | .imm f gd ga v => f.op ++ gd ++ ga ++ v
  | .jump link v => (if link then (0x19 : BitVec 6) else 0x18) ++ v
  | .atom f gd ga gb => (0x17 : BitVec 6) ++ gd ++ ga ++ gb ++ f.func
  | .dev f gd ga v => f.code.1 ++ gd ++ ga ++ f.code.2 ++ v

/-- The instruction that a word spells; none for an unassigned op, func or sub (R47, R48). -/
def decodeInsn (w : BitVec 32) : Option Insn :=
  let op : BitVec 6 := w.extractLsb' 26 6
  let gd : BitVec 5 := w.extractLsb' 21 5
  let ga : BitVec 5 := w.extractLsb' 16 5
  let gb : BitVec 5 := w.extractLsb' 11 5
  let func : BitVec 11 := w.extractLsb' 0 11
  if op = 0x00 then (Alu.all.find? fun f => f.func == func).map fun f => .alu f gd ga gb
  else if op = 0x17 then (Atom.all.find? fun f => f.func == func).map fun f => .atom f gd ga gb
  else if op = 0x18 then some (.jump false (w.extractLsb' 0 26))
  else if op = 0x19 then some (.jump true (w.extractLsb' 0 26))
  else match ImmOp.all.find? fun f => f.op == op with
    | some f => some (.imm f gd ga (w.extractLsb' 0 16))
    | none => (Dev.all.find? fun f => f.code == (op, w.extractLsb' 10 6)).map fun f => .dev f gd ga (w.extractLsb' 0 10)

/-- The fields that a device operation does not use are zero: gd, ga, and the bits of imm10 above a width (R59). -/
def Dev.legal (f : Dev) (gd ga : BitVec 5) (v : BitVec 10) : Bool :=
  let form := fun (useD useA : Bool) (w : Nat) =>
    (useD || decide (gd = 0)) && (useA || decide (ga = 0)) && decide (v.toNat < 2 ^ w)
  match f with
  | .chrd => form true true 3
  | .chwr => form true true 3
  | .loopset => form true true 2
  | .fretset => form true false 4
  | .plbeg => form true false 7
  | .pladd => form true true 7
  | .plseal => form true true 7
  | .plarm => form true true 8
  | .plcancel => form true false 7
  | .calset => form true true 2
  | .evfire => form true false 6
  | .evwait => form true true 7
  | .mbpost => form true true 4
  | .mbtake => form true true 4
  | .pegwr => form true true 0
  | .pegrd => form true true 0
  | .tsread => form true true 2 && decide (v.toNat ≠ 3)
  | .fence => form false false 3
  | .yield => form false false 0
  | .done => form false true 8
  | .trap => form false false 10
  | .halt => form false false 0
  | .mfs => form true false 10
  | .mts => form false true 10
  | .eret => form false false 0

/-- The fields that must be zero are zero (R47, R49, R51, R59). -/
def Insn.legal : Insn → Bool
  | .alu .clz _ _ gb => decide (gb = 0)
  | .imm .lui _ ga _ => decide (ga = 0)
  | .dev f gd ga v => f.legal gd ga v
  | _ => true

end Sys2Proof.Machine
end

