-- ==== Sys2Proof/Machine/Traps.lean ====
section
/-! DEFINITION. What a core does between instructions: traps, ERET, the interrupt lines, instruction fetch and ECC
(02_quinli_isa.md R69 to R73, 16_faults.md R373). -/

namespace Sys2Proof.Machine

/-- Causes (R70). -/
abbrev tILLEGAL : Nat := 0x01
abbrev tPRIV : Nat := 0x02
abbrev tALIGN : Nat := 0x03
abbrev tBUSERR : Nat := 0x04
abbrev tECC : Nat := 0x05
abbrev tFETCH : Nat := 0x06
abbrev tOPERAND : Nat := 0x07
abbrev tORDER : Nat := 0x08
abbrev tYIELD : Nat := 0x09
abbrev tDONE : Nat := 0x0A
abbrev tSWTRAP : Nat := 0x0B
abbrev tMCALL : Nat := 0x0C
abbrev tINT : Nat := 0x10

/-- A trap: its cause, CAUSE.INFO and BAD. -/
structure Trap where
  code : Nat
  info : Nat
  bad : Nat
  deriving DecidableEq, Repr

namespace CoreSt

def ts (c : CoreSt) : Bool := bit c.status.toNat 5
def ie (c : CoreSt) : Bool := bit c.status.toNat 3
def ppl (c : CoreSt) (mon : Bool) : Nat := bits c.status.toNat (if mon then 8 else 6) 2

/-- STATUS as MFS reads it: PCX equals PHRASE.ACTIVE (R69). -/
def statusWord (c : CoreSt) : Nat := putBit c.status.toNat 10 c.pcx

/-- A trap of this core goes to the secure monitor (R71). -/
def toMonitor (c : CoreSt) (code : Nat) : Bool := decide (code = tMCALL) || decide (c.pl = 0) || (decide (c.pl = 1) && c.tf)

/-- The CAUSE word of a trap at this core (R69). -/
def cause (c : CoreSt) (t : Trap) (nf : Bool) : Nat := t.code + 256 * c.pl + 1024 * b2n c.sec + 2048 * b2n nf + 4096 * (t.info % 1024)

/-- take_trap of R71, but for a double fault. -/
def takeTrap (c : CoreSt) (t : Trap) (nf : Bool) (epc : Nat) : CoreSt :=
  let cause := BitVec.ofNat 32 (c.cause t nf)
  let w := c.status.toNat
  if c.toMonitor t.code then
    { c with
      epcSm := BitVec.ofNat 32 epc
      causeSm := cause
      badSm := BitVec.ofNat 32 t.bad
      -- PPL_SM = from; PL = 0, S = 1, TS = 1, IE = 0
      status := BitVec.ofNat 32 (putBit (putBit (putBit (putBits (putBits w 8 2 c.pl) 0 2 0) 2 true) 5 true) 3 false)
      pc := c.tvecSm
      run := .running
      wait := .idle }
  else
    { c with
      epcFw := BitVec.ofNat 32 epc
      causeFw := cause
      badFw := BitVec.ofNat 32 t.bad
      -- PPL_FW = from; PL = 1, S = 0, TF = 1, IE = 0
      status := BitVec.ofNat 32 (putBit (putBit (putBit (putBits (putBits w 6 2 c.pl) 0 2 1) 2 false) 4 true) 3 false)
      pc := c.tvecFw
      run := .running
      wait := .idle }

/-- PHRASE.ACTIVE and PCX fall as firmware leaves the handler that the end of a phrase entered (R57, R69). -/
def leaveHandler (c : CoreSt) : CoreSt :=
  if c.ended ∧ c.pl = 1 then { c with ended := false, phrase := BitVec.ofNat 32 (c.phrase.toNat % 2147483648) } else c

/-- What ERET meets (R71): a trap, or the core at the level and address that it returns to. -/
def eret (c : CoreSt) : Except (Nat × Nat) CoreSt :=
  let c := c.leaveHandler
  let mon := decide (c.pl = 0)
  let tgt := c.ppl mon
  let ret := if mon then c.epcSm else c.epcFw
  if c.pl = 2 then .error (tPRIV, 0)
  else if c.pl ≠ 0 ∧ tgt = 0 then .error (tILLEGAL, 0)
  else if tgt = 3 then .error (tILLEGAL, 0)
  else if tgt = 2 ∧ c.pcx = false then .error (tORDER, 0)
  else if ret.toNat % 4 ≠ 0 then .error (tALIGN, ret.toNat)
  else
    let w := putBit c.status.toNat (if mon then 5 else 4) false
    let sec := decide (tgt = 0) || (decide (tgt = 2) && decide (c.ring ≤ 3))
    .ok { c with status := BitVec.ofNat 32 (putBit (putBits w 0 2 tgt) 2 sec), pc := ret, run := .running, wait := .idle }

end CoreSt

namespace StringSt

/-- A trap at monitor level with TS = 1 stops the core: source i occurs, and the core's endpoint is reset (R71, R358, R364). -/
def doubleFault (c : StringSt) (i : Nat) : StringSt :=
  let c := c.updCore i fun k => { k with run := .stopped, wait := .idle }
  (c.occur i (c.core i).epcSm.toNat).endpointReset i

/-- SEQ_TRAPLOG and SEQ_TRAPPC after a trap with NF = 0. -/
def logTrap (c : StringSt) (i : Nat) (k : CoreSt) (t : Trap) : StringSt :=
  let o := Reg.SEQ_TRAPLOG i
  ((c.setFld o F.SEQ_TRAPLOG.LAST (k.cause t false)).addSat o F.SEQ_TRAPLOG.FCNT 1).wr (Reg.SEQ_TRAPPC i) k.pc.toNat

end StringSt

namespace State

/-- A trap with NF = 0 at the instruction that core `i` runs (R70 to R72). At phrase level the phrase is retired as FAULT. -/
def fault (s : State) (x : Str) (i : Nat) (t : Trap) : State :=
  let k := (s.str x).core i
  if k.pl = 0 ∧ k.ts = true then (s.updStr x fun c => c.doubleFault i).capoSettle
  else s.updStr x fun c =>
    let c := (c.logTrap i k t).updCore i fun k => k.takeTrap t false k.pc.toNat
    if k.pl = 2 then
      let off := match c.flight k.ring with | some f => StringSt.phraseOff k.ring f.slot k.pc.toNat | none => 0
      c.retire i recFAULT t.code t.bad off t.info
    else c

/-- A trap with NF = 1 that an instruction of core `i` makes, which completes: EPC is the next instruction (R69, R71). -/
def call (s : State) (x : Str) (i : Nat) (t : Trap) : State :=
  let k := (s.str x).core i
  if k.pl = 0 ∧ k.ts = true then (s.updStr x fun c => c.doubleFault i).capoSettle
  else s.updStr x fun c => (c.countInsn i).updCore i fun k => k.takeTrap t true (k.pc.toNat + 4)

end State

namespace StringSt

/-! ## Interrupts (R73, R373) -/

/-- Some source of a severity has STICKY or FSTICKY set, or FORCE (R368, R373). -/
def sevPresent (c : StringSt) (sev : Nat) : Bool := (List.range 160).any fun k => severity k == some sev && c.present k

/-- IPEND of core `i` in string `c`; `reports`: a stroke report waits for firmware (R373). -/
def ipend (c : StringSt) (i : Nat) (reports : Bool) : Nat :=
  let sev := fun (l : Nat) => bit (c.fld Reg.ALV_CFG F.ALV_CFG.FCORE) i && bit (c.fld Reg.ALV_CFG F.ALV_CFG.FSEVEN) (3 - l) && c.sevPresent (3 - l)
  let boxes := fun (p : Nat → Bool) => (List.range 16).any p
  let lines : List Bool := [sev 0, sev 1, sev 2, sev 3, c.latchFull (80 + i),
    boxes fun k => c.mbxFull k && decide (c.mbxRcv k = i) && c.flag (Reg.MBX_CFG k) F.MBX_CFG.ARRIEN,
    boxes fun k => c.flag (Reg.MBX_STAT k) F.MBX_STAT.ACKP && decide (c.mbxSrc k = i) && c.flag (Reg.MBX_CFG k) F.MBX_CFG.ACKEN,
    decide (c.ringClaim ≠ 0),
    c.net.rx.any fun r => decide (r.kind = .ict),
    !c.net.ptpRx.isEmpty || !(c.txq 0).isEmpty || !(c.txq 1).isEmpty,
    reports,
    false,
    c.alv.deadline.isSome && decide (c.hbLeft < max 1 (c.fld Reg.ALV_CFG F.ALV_CFG.HBDL))]
  lines.zipIdx.foldl (fun v e => if e.1 then v + 2 ^ e.2 else v) 0

/-! ## Fetch and ECC -/

/-- A level may fetch at an address (R45): at phrase level, from the instruction block of its phrase. -/
def fetchPerm (c : StringSt) (k : CoreSt) (a : Nat) : Bool :=
  if k.pl = 0 then decide (a < 0x400000) || (decide (0x7F000000 ≤ a) && decide (a < 0x7F020000))
  else if k.pl = 1 then decide (a < 0x400000)
  else match c.flight k.ring with
    | some f => let b := slotAddr k.ring f.slot + 32; decide (b ≤ a) && decide (a < b + 4 * f.ninsn)
    | none => false

/-- An access to the word of SRAM at `a` meets an error in its ECC: it is counted and reported (R70, R300, R364). -/
def eccMeets (c : StringSt) (a : Nat) : Ecc → StringSt
  | .clean => c
  | .single => (c.addSat (Reg.SRB_CNT (a / 0x200000)) F.SRB_CNT.CORR 1).occur 6 a
  | .double =>
    let b := a / 0x200000
    (((c.addSat (Reg.SRB_CNT b) F.SRB_CNT.UNCORR 1).wr (Reg.SRB_LASTERR b) a).markFlag 0).occur 5 a

/-- A core runs its next instruction: it is running, not halted for debug unless it is stepped, and within its budget (R81, R449). -/
def mayRun (c : StringSt) (i : Nat) (step : Bool) : Bool :=
  let k := c.core i
  decide (k.run = .running) && (k.dbgHalt == step) &&
    (decide (k.pl ≠ 2) || (match c.flight k.ring with | some f => decide (f.count < f.budget) | none => true))

end StringSt

namespace State

/-- A stroke report of some tile waits for the firmware of string `x` (R373 line 10). -/
def reportWaits (s : State) (x : Str) : Bool :=
  (List.range 8).any fun n => ((s.tile n).reports x).any fun r => match r with | .played .. => true | .missed .. => true | _ => false

/-- IPEND of core `i` of string `x` (R373). -/
def ipend (s : State) (x : Str) (i : Nat) : Nat :=
  putBit ((s.str x).ipend i (s.reportWaits x)) 11 !(s.str x.other).outbox.isEmpty

/-- INT (R73): between instructions, or in an EVWAIT, the lowest line that is pending and enabled is taken. -/
def interrupt (s : State) (x : Str) (i : Nat) : State :=
  let k := (s.str x).core i
  let due := s.ipend x i &&& k.imask.toNat
  let at_ := match k.wait with
    | .idle => decide (k.run = .running)
    | .event .. => true
    | .outcome _ (.event ..) => true
    | _ => false
  let level := decide (k.pl = 2) || (decide (k.pl = 1) && k.ie && !k.tf)
  if due ≠ 0 ∧ at_ = true ∧ level = true ∧ k.dbgHalt = false then
    let line := ((List.range 32).find? fun l => bit due l).getD 0
    s.updStr x fun c => c.updCore i fun k => k.takeTrap ⟨tINT, line, 0⟩ true k.pc.toNat
  else s

end State
end Sys2Proof.Machine
end

