-- ==== Sys2Proof/Machine/Quinli.lean ====
section
/-! DEFINITION. What one instruction of a Quinli core does (02_quinli_isa.md R49 to R72). -/

namespace Sys2Proof.Machine

/-! ## Values (R49 to R51, R54) -/

/-- Leading zeros of a word, 32 for zero (R49). -/
def clz (a : Word) : Nat := ((List.range 32).takeWhile fun j => !a.getLsbD (31 - j)).length

/-- Quotient and remainder (R50): a divisor of zero gives all ones and the dividend. -/
def divS (a b : Word) : Word := if b = 0 then 0xFFFFFFFF else a.sdiv b
def divU (a b : Word) : Word := if b = 0 then 0xFFFFFFFF else a / b
def remS (a b : Word) : Word := if b = 0 then a else a.srem b
def remU (a b : Word) : Word := if b = 0 then a else a % b

/-- The result of the ALU group on ga and gb; `n` is the number in field gb (R49). -/
def aluVal (f : Alu) (a b : Word) (n : Nat) : Word :=
  match f with
  | .add => a + b
  | .sub => a - b
  | .and => a &&& b
  | .or => a ||| b
  | .xor => a ^^^ b
  | .sll => a <<< (b.toNat % 32)
  | .srl => a >>> (b.toNat % 32)
  | .sra => a.sshiftRight (b.toNat % 32)
  | .slt => if a.toInt < b.toInt then 1 else 0
  | .sltu => if a.toNat < b.toNat then 1 else 0
  | .mul => a * b
  | .mulh => BitVec.ofInt 32 (a.toInt * b.toInt / 4294967296)
  | .mulhu => BitVec.ofNat 32 (a.toNat * b.toNat / 4294967296)
  | .div => divS a b
  | .divu => divU a b
  | .rem => remS a b
  | .remu => remU a b
  | .slli => a <<< n
  | .srli => a >>> n
  | .srai => a.sshiftRight n
  | .min => if a.toInt < b.toInt then a else b
  | .max => if a.toInt < b.toInt then b else a
  | .clz => BitVec.ofNat 32 (clz a)

/-- The result of the immediate group (R51); the other instructions of format I have none. -/
def immVal (f : ImmOp) (a : Word) (v : BitVec 16) : Option Word :=
  match f with
  | .addi => some (a + v.signExtend 32)
  | .andi => some (a &&& v.zeroExtend 32)
  | .ori => some (a ||| v.zeroExtend 32)
  | .xori => some (a ^^^ v.zeroExtend 32)
  | .lui => some (v.zeroExtend 32 <<< 16)
  | .slti => some (if a.toInt < (v.signExtend 32).toInt then 1 else 0)
  | .sltiu => some (if a.toNat < (v.signExtend 32).toNat then 1 else 0)
  | _ => none

/-- The condition of a branch on gd and ga (R54); none for what is no branch. -/
def branchTaken (f : ImmOp) (d a : Word) : Option Bool :=
  match f with
  | .beq => some (d == a)
  | .bne => some (d != a)
  | .blt => some (decide (d.toInt < a.toInt))
  | .bge => some (decide (a.toInt ≤ d.toInt))
  | .bltu => some (decide (d.toNat < a.toNat))
  | .bgeu => some (decide (a.toNat ≤ d.toNat))
  | _ => none

/-- Width of a load in bytes and whether it extends by sign (R52). -/
def loadForm : ImmOp → Option (Nat × Bool)
  | .lw => some (4, false)
  | .lh => some (2, true)
  | .lhu => some (2, false)
  | .lb => some (1, true)
  | .lbu => some (1, false)
  | _ => none

/-- Width of a store in bytes (R52). -/
def storeForm : ImmOp → Option Nat
  | .sw => some 4
  | .sh => some 2
  | .sb => some 1
  | _ => none

/-- The word that an ATOM writes, from the old word, gb and gd (R53); none where CAS finds a difference. -/
def atomVal (f : Atom) (old b d : Word) : Option Word :=
  match f with
  | .swap => some b
  | .aadd => some (old + b)
  | .cas => if old = d then some b else none

/-- A general register as a word. -/
def CoreSt.g32 (k : CoreSt) (r : BitVec 5) : Word := BitVec.ofNat 32 (k.reg r.toNat)

namespace StringSt

/-- Core `i` completes an instruction that goes to `t` (R54). -/
def jumpTo (c : StringSt) (i t : Nat) : StringSt :=
  (c.countInsn i).updCore i fun k => { k with pc := BitVec.ofNat 32 t, run := .running, wait := .idle }

end StringSt

/-- An instruction as it runs: its string, core, the core's state before it, and CAUSE.INFO of a fault at it. -/
structure Run where
  x : Str
  i : Nat
  k : CoreSt
  info : Nat
  deriving DecidableEq, Repr

namespace State

/-- A fault at the instruction that runs (R70). -/
def raise (s : State) (r : Run) (code bad : Nat) : State := s.fault r.x r.i ⟨code, r.info, bad⟩

/-- The instruction completes with a value in gd. -/
def give (s : State) (r : Run) (gd : BitVec 5) (v : Nat) : State := s.updStr r.x fun c => c.finish r.i gd.toNat v

/-- A change of the string that also answers a status, which goes to gd. -/
def giveStatus (s : State) (r : Run) (gd : BitVec 5) (f : StringSt → Nat × StringSt) : State :=
  s.updStr r.x fun c => let p := f c; p.2.finish r.i gd.toNat p.1

/-- A trap from what an access meets. -/
def raiseMeets (s : State) (r : Run) (m : Meets) (a : Nat) (ok : State) : State :=
  match m with
  | .fine => ok
  | .buserr => s.raise r tBUSERR a
  | .priv => s.raise r tPRIV a

/-- A buffer of `n` bytes at `a` that a device operation reads, or writes (R55). -/
def checkBuf (s : State) (r : Run) (wr : Bool) (a n : Nat) : Meets := (s.str r.x).buffer r.k.pl r.k.sec wr a n

/-! ## Loads, stores and ATOMs (R52, R53) -/

/-- A load of `n` bytes. -/
def load (s : State) (r : Run) (e : Ecc) (n : Nat) (sign : Bool) (gd : BitVec 5) (a : Nat) : State :=
  if a % n ≠ 0 then s.raise r tALIGN a
  else s.raiseMeets r (s.meets r.x r.k r.i a n none) a <|
    let s := if a < 0x02000000 then s.updStr r.x fun c => c.eccMeets a e else s
    if a < 0x02000000 ∧ e = .double then s.raise r tECC a
    else
      let p := s.loadAt r.x r.i a n
      let v := if sign then wrap 32 (sx (8 * n) p.1) else p.1
      p.2.give r gd v

/-- A store of the low `n` bytes of a word. -/
def store (s : State) (r : Run) (n : Nat) (v : Word) (a : Nat) : State :=
  if a % n ≠ 0 then s.raise r tALIGN a
  else
    let v := v.toNat % 2 ^ (8 * n)
    s.raiseMeets r (s.meets r.x r.k r.i a n (some v)) a ((s.updStr r.x fun c => c.stepCore r.i).storeAt r.x r.i a n v)

/-- An ATOM on the word of SRAM at `a`. -/
def atomic (s : State) (r : Run) (e : Ecc) (f : Atom) (gd : BitVec 5) (b : Word) (a : Nat) : State :=
  if a % 4 ≠ 0 then s.raise r tALIGN a
  else
    let m : Meets := if a < 0x02000000 then s.checkBuf r true a 4
      else if 0x7F000000 ≤ a ∧ a < 0x7F020000 then .priv else .buserr
    s.raiseMeets r m a <|
      let s := s.updStr r.x fun c => c.eccMeets a e
      if e = .double then s.raise r tECC a
      else
        let old := BitVec.ofNat 32 ((s.str r.x).word a)
        let s := match atomVal f old b (r.k.g32 gd) with
          | some v => s.updStr r.x fun c => c.setWord a v.toNat
          | none => s
        s.give r gd old.toNat

/-! ## Channels and loops (R60, R61) -/

/-- The tile, and whether its part that holds a channel is powered (R36, R60). -/
def chanOn (s : State) (cls idx : Nat) : Nat × Bool :=
  let n := if cls = 0 then idx / 2048 else if cls = 1 then idx / 256 else idx / 8
  let d := s.tile n
  (n, d.domOn 0 && (if cls = 0 then d.domOn (1 + idx / 512 % 4) else if cls = 1 then d.domOn (5 + idx / 128 % 2) else true))

/-- A value that CHWR may give a selector (R147, R163, R184). -/
def chanRange (d : TileSt) (cls idx sel v : Nat) : Bool :=
  if cls = 0 then
    match sel with
    | 3 => decide (v < 1024)
    | 4 => decide (v < 65536)
    | 5 => decide (v < 4) && !d.vmode (idx % 2048)
    | 6 => decide (v < 2)
    | 7 => decide (v = 0 ∨ (66 ≤ v ∧ v ≤ 1310))
    | _ => false
  else if cls = 1 then
    match sel with
    | 1 => decide (v < 128)
    | 2 => decide (v < 3)
    | 3 => decide (v < 65536)
    | 4 => decide (v < 65536)
    | _ => false
  else decide (sel = 1 ∧ v < 2)

/-- The selectors of a class, for CHRD and for CHWR (R60). -/
def selDefined (cls sel : Nat) (wr : Bool) : Bool :=
  if cls = 0 then !wr || decide (3 ≤ sel) else if cls = 1 then decide (sel ≤ 4) && (!wr || decide (1 ≤ sel)) else decide (sel ≤ 1) && (!wr || decide (sel = 1))

/-- CHRD and CHWR (R60): `wr` CHWR. -/
def channel (s : State) (r : Run) (wr : Bool) (gd : BitVec 5) (w sel v : Nat) : State :=
  let cls := bits w 16 2
  let idx := bits w 0 14
  let count := if cls = 0 then 16384 else if cls = 1 then 2048 else 64
  if bits w 18 14 ≠ 0 ∨ bits w 14 2 ≠ 0 ∨ cls = 3 ∨ count ≤ idx then s.raise r tOPERAND 0
  else if !selDefined cls sel wr then s.raise r tOPERAND 0
  else
    let (n, on) := s.chanOn cls idx
    let d := s.tile n
    if !on then s.raise r tBUSERR 0
    else if wr then
      if r.k.pcx = false then s.raise r tORDER 0
      else if !chanRange d cls idx sel v then s.give r gd sBADVAL
      else s.updStr r.x fun c => (c.bindEff r.i (.chan cls idx sel v)).finish r.i gd.toNat sOK
    else if (s.str r.x).follows r.i then s.updStr r.x fun c => c.hold r.i (.outcome gd.toNat (.plain none))
    else
      let val := if cls = 0 then d.readAct (idx % 2048) sel else if cls = 1 then d.readMon (idx % 256) sel else d.readThm (idx % 8) sel
      s.updStr r.x fun c => c.finishOut r.i gd.toNat val

/-- LOOPSET of loop `n` from address `a` (R61). A lowered loop is lowered no longer (17_power_thermal_ageing.md R396). -/
def loopset (s : State) (r : Run) (gd : BitVec 5) (n a mode : Nat) : State :=
  if 16384 ≤ n ∨ mode = 3 then s.raise r tOPERAND 0
  else if a % 64 ≠ 0 then s.raise r tALIGN a
  else s.raiseMeets r (s.checkBuf r false a 64) a <|
    if r.k.pcx = false then s.raise r tORDER 0
    else
      let c := s.str r.x
      let w := fun j => c.word (a + 4 * j)
      if !c.loopImageOk n (w 0) (w 1) (w 2) (w 3) then s.give r gd sBADVAL
      else s.updStr r.x fun c =>
        ((c.setWord (planTab n) (putBit (c.word (planTab n)) 15 false)).bindEff r.i (.loop n mode (w 0) (w 1) (w 2) (w 3))).finish r.i gd.toNat sOK

/-- FRETSET (R61). -/
def fretset (s : State) (r : Run) (gd : BitVec 5) (n v : Nat) : State :=
  if 16384 ≤ n then s.raise r tOPERAND 0
  else if r.k.pcx = false then s.raise r tORDER 0
  else s.updStr r.x fun c => (c.bindEff r.i (.fret n (bits v 0 3) (bit v 3))).finish r.i gd.toNat sOK

/-! ## Plans (R62) -/

/-- What needs the phrase context (R57). -/
def inPhrase (s : State) (r : Run) (ok : State) : State := if r.k.pcx then ok else s.raise r tORDER 0

/-- PLADD of `n` entries from `a` to slot `k`. -/
def opPladd (s : State) (r : Run) (gd : BitVec 5) (k a n : Nat) : State :=
  if n = 0 ∨ 4096 < n then s.raise r tOPERAND 0
  else if a % 16 ≠ 0 then s.raise r tALIGN a
  else s.raiseMeets r (s.checkBuf r false a (16 * n)) a <| s.inPhrase r <| s.giveStatus r gd fun c => c.pladd k a n

/-- PLSEAL of slot `k` with the chain word `w`. -/
def opPlseal (s : State) (r : Run) (gd : BitVec 5) (k w : Nat) : State :=
  if w ≠ 0 ∧ (bit w 31 = false ∨ bits w 7 24 ≠ 0) then s.raise r tOPERAND 0
  else s.inPhrase r <| s.giveStatus r gd fun c => c.plseal k (if w = 0 then none else some (bits w 0 7))

/-- PLARM of slot `k` with the TS96 at `a`: on the standby the outcome of the active string is awaited (R58). -/
def opPlarm (s : State) (r : Run) (gd : BitVec 5) (k policy a : Nat) : State :=
  if a % 4 ≠ 0 then s.raise r tALIGN a
  else s.raiseMeets r (s.checkBuf r false a 12) a <| s.inPhrase r <|
    let c := s.str r.x
    let treq := ofTs96 (c.words a 3)
    if c.follows r.i then s.updStr r.x fun c => c.hold r.i (.outcome gd.toNat (.arm k policy treq))
    else s.plarm r.x r.i gd.toNat k policy treq

/-- PLCANCEL of slot `k`. -/
def opPlcancel (s : State) (r : Run) (gd : BitVec 5) (k : Nat) : State :=
  s.inPhrase r <|
    if (s.str r.x).follows r.i then s.updStr r.x fun c => c.hold r.i (.outcome gd.toNat (.cancel k))
    else s.plcancel r.x r.i gd.toNat k

/-- CALSET with the image at `a`. -/
def opCalset (s : State) (r : Run) (gd : BitVec 5) (act a : Nat) : State :=
  s.inPhrase r <|
    let c := s.str r.x
    let go := fun (s : State) (img : List Nat) =>
      if c.follows r.i then s.updStr r.x fun c => c.hold r.i (.outcome gd.toNat (.calset act img))
      else
        let p := s.calset r.x act img none
        p.2.2.updStr r.x fun c => (c.sendOutcome r.i ⟨p.1, p.2.1, 0, false⟩).finish r.i gd.toNat p.1
    if 2 ≤ act then go s []
    else if a % 4 ≠ 0 then s.raise r tALIGN a
    else s.raiseMeets r (s.checkBuf r false a 4) a <|
      -- 32 + 8 x NCENT bytes (10_plans_strokes.md R253)
      let n := bits (c.word a) 0 9
      s.raiseMeets r (s.checkBuf r false a (32 + 8 * n)) a <| go s (c.words a (8 + 2 * n))

/-! ## Events and mailboxes (R63, R64) -/

/-- EVFIRE of channel `ch`; a phrase has channels 56 to 63 only (R59). -/
def opEvfire (s : State) (r : Run) (gd : BitVec 5) (ch : Nat) : State :=
  if r.k.pl = 2 ∧ ch < 56 then s.raise r tPRIV 0
  else s.giveStatus r gd fun c => let p := c.softFire ch; (if p.2 then sOK else sGATED, p.1)

/-- EVWAIT for channel `ch` with a timeout of `ns`. -/
def opEvwait (s : State) (r : Run) (gd : BitVec 5) (ch : Nat) (clear : Bool) (ns : Nat) : State :=
  if r.k.pl = 2 ∧ ch < 56 then s.raise r tPRIV 0
  else s.updStr r.x fun c =>
    if c.follows r.i then c.hold r.i (.outcome gd.toNat (.event ch clear))
    else if c.flag (Reg.EVF_CH ch) F.EVF_CH.SEEN then
      (if clear then c.setFld (Reg.EVF_CH ch) F.EVF_CH.SEEN 0 else c).finishOut r.i gd.toNat sOK
    else if ns = 0 then c.finishOut r.i gd.toNat sTIMEOUT
    else c.hold r.i (.event gd.toNat ch clear (if ns = 0xFFFFFFFF then none else some (c.time + ns * nsT)))

/-- An operation with effects of its own in each string ends with status `st`: on the standby with the active string's (R58). -/
def endOwn (c : StringSt) (i gd st : Nat) : StringSt :=
  if c.follows i then c.hold i (.outcome gd (.plain (some st))) else c.finishOut i gd st

/-- What a mailbox operation checks first. -/
def mbxChecks (s : State) (r : Run) (k a : Nat) (ok : State) : State :=
  if k ≤ 3 ∧ r.k.sec = false then s.raise r tPRIV 0
  else if (s.str r.x).domOn ((s.str r.x).mbxDom k) = false then s.raise r tBUSERR 0
  else if a % 4 ≠ 0 then s.raise r tALIGN a
  else ok

/-- MBPOST of the message at `a` to mailbox `k`. -/
def opMbpost (s : State) (r : Run) (gd : BitVec 5) (k a : Nat) : State :=
  s.mbxChecks r k a <| s.raiseMeets r (s.checkBuf r false a 4) a <|
    let c := s.str r.x
    let h := c.word a
    let len := bits h 0 5
    if 15 < len then s.raise r tOPERAND 0
    else s.raiseMeets r (s.checkBuf r false a (4 + 4 * len)) a <| s.updStr r.x fun c =>
      if c.mbxFull k then endOwn c r.i gd.toNat sFULL
      else endOwn (c.mbxPost k r.i h (c.words (a + 4) len)) r.i gd.toNat sOK

/-- MBTAKE of mailbox `k` into the buffer at `a`. -/
def opMbtake (s : State) (r : Run) (gd : BitVec 5) (k a : Nat) : State :=
  s.mbxChecks r k a <| s.raiseMeets r (s.checkBuf r true a 64) a <| s.updStr r.x fun c =>
    if c.mbxFull k then
      let st := if c.mbxOrphan k then sORPHAN else sOK
      endOwn ((c.setWords a (c.mbxWords k)).mbxTake k) r.i gd.toNat st
    else endOwn c r.i gd.toNat sEMPTY

/-! ## Pegs and time (R65, R66) -/

/-- What a peg operation checks first. -/
def pegChecks (s : State) (r : Run) (a : Nat) (ok : State) : State :=
  if a < 0x70000000 ∨ 0x7007FFFC < a then s.raise r tBUSERR a
  else if a % 4 ≠ 0 then s.raise r tALIGN a
  else if a < 0x70010000 ∧ r.k.sec = false then s.raise r tPRIV a
  else if (s.str r.x).domOn 62 = false then s.raise r tBUSERR a
  else ok

/-- PEGWR of `v` to the peg at `a`. -/
def opPegwr (s : State) (r : Run) (gd : BitVec 5) (a v : Nat) : State :=
  s.pegChecks r a <| s.updStr r.x fun c => let p := c.pegWrite a v; endOwn p.2 r.i gd.toNat p.1

/-- PEGRD of the peg at `a`. -/
def opPegrd (s : State) (r : Run) (gd : BitVec 5) (a : Nat) : State := s.pegChecks r a <| s.give r gd ((s.str r.x).peg a)

/-- TSREAD of a source: 0 the time, 1 and 2 the captures; `a` the address of the TS96 where one is written. -/
def opTsread (s : State) (r : Run) (gd : BitVec 5) (src : Nat) (a : Option Nat) : State :=
  if (s.str r.x).domOn 60 = false then s.raise r tBUSERR 0
  else
    let go := s.updStr r.x fun c =>
      let t := if src = 0 then c.time else (c.tcap (src - 1)).at_
      -- a capture is read, and latched for its registers (R338)
      let c := if src = 0 then c else (c.readTcap (src - 1)).2
      if c.follows r.i then c.hold r.i (.outcome gd.toNat (.time a))
      else
        let c := match a with | some a => c.setWords a (ts96 t) | none => c
        (c.sendOutcome r.i ⟨nsOf t, t, 0, false⟩).finish r.i gd.toNat (nsOf t)
    match a with
    | none => go
    | some a => if a % 4 ≠ 0 then s.raise r tALIGN a else s.raiseMeets r (s.checkBuf r true a 12) a go

/-! ## Control (R67, R68, R452) -/

/-- FENCE: the M kind is always reached, since every instruction completes before the next; the I kind makes the core's fetch see every
earlier store (R76); the F kind waits (R67). -/
def opFence (s : State) (r : Run) (kinds : Nat) : State :=
  s.updStr r.x fun c =>
    let c := if bit kinds 1 then c.refetch r.i else c
    if bit kinds 2 && !framesDone c r.i then c.hold r.i .frames else c.stepCore r.i

/-- YIELD. -/
def opYield (s : State) (r : Run) : State :=
  if r.k.pl = 2 then s.call r.x r.i ⟨tYIELD, 0, 0⟩ else s.updStr r.x fun c => c.stepCore r.i

/-- DONE with a code and a result word; firmware retires the phrase (R88). -/
def opDone (s : State) (r : Run) (result code : Nat) : State :=
  if r.k.pl ≠ 2 then s.raise r tILLEGAL 0
  else
    let fpc := match (s.str r.x).flight r.k.ring with | some f => StringSt.phraseOff r.k.ring f.slot r.k.pc.toNat | none => 0
    (s.call r.x r.i ⟨tDONE, code, result⟩).updStr r.x fun c => c.retire r.i recDONE code result fpc 0

/-- The numbers of the firmware services (R452). -/
def services : List Nat :=
  [0x040, 0x041, 0x042, 0x043, 0x050, 0x060, 0x061, 0x062, 0x070, 0x071, 0x080, 0x090, 0x091, 0x0A0, 0x0B0, 0x0B1, 0x0B2, 0x0B3,
    0x0B4, 0x0B5, 0x0C0]

/-- Firmware resumes the phrase of core `i` at the instruction after the TRAP with a status in g2 (R452). -/
def resumePhrase (s : State) (x : Str) (i st : Nat) : State :=
  s.updStr x fun c => c.updCore i fun k => match (k.setReg 2 st).eret with | .ok k => k | .error _ => k.setReg 2 st

/-- TRAP: a software trap to firmware, which answers an unknown service of a phrase with BADVAL at once; or a monitor call. -/
def opTrap (s : State) (r : Run) (imm : Nat) : State :=
  if bit imm 9 then
    if r.k.pl = 0 then s.raise r tILLEGAL 0
    else if r.k.pl = 2 ∧ r.k.sec = false then s.raise r tPRIV 0
    else s.call r.x r.i ⟨tMCALL, imm, 0⟩
  else
    let s := s.call r.x r.i ⟨tSWTRAP, imm, 0⟩
    if r.k.pl = 2 ∧ imm ∉ services then s.resumePhrase r.x r.i sBADVAL else s

/-- HALT. -/
def opHalt (s : State) (r : Run) : State :=
  if r.k.pl = 2 then s.raise r tPRIV 0
  else s.updStr r.x fun c => (c.stepCore r.i).updCore r.i fun k => { k with run := .halted }

/-! ## Special registers (R69) -/

/-- The levels that may read a special register: all (2), SM and FW (1), SM (0); none for a number that does not exist. -/
def mfsLevel (n : Nat) : Option Nat :=
  if n ≤ 4 then some 2
  else if 8 ≤ n ∧ n ≤ 14 then some 1
  else if 16 ≤ n ∧ n ≤ 20 then some 0
  else none

/-- The levels that may write a special register. -/
def mtsLevel (n : Nat) : Option Nat :=
  if n = 0 ∨ n = 8 ∨ n = 11 ∨ n = 12 ∨ n = 14 then some 1
  else if n = 16 ∨ n = 19 ∨ n = 20 then some 0
  else none

/-- The value of special register `n` of core `i` of string `x`. -/
def mfsVal (s : State) (x : Str) (i n : Nat) : Nat :=
  let k := (s.str x).core i
  match n with
  | 0 => k.statusWord
  | 1 => i + 4 * x.idx
  | 2 => k.phrase.toNat
  | 3 => k.phseqL.toNat
  | 4 => k.phseqH.toNat
  | 8 => k.epcFw.toNat
  | 9 => k.causeFw.toNat
  | 10 => k.badFw.toNat
  | 11 => k.tvecFw.toNat
  | 12 => k.scrFw.toNat
  | 13 => s.ipend x i
  | 14 => k.imask.toNat
  | 16 => k.epcSm.toNat
  | 17 => k.causeSm.toNat
  | 18 => k.badSm.toNat
  | 19 => k.tvecSm.toNat
  | 20 => k.scrSm.toNat
  | _ => 0

/-- MFS of special register `n`. -/
def opMfs (s : State) (r : Run) (gd : BitVec 5) (n : Nat) : State :=
  match mfsLevel n with
  | none => s.raise r tILLEGAL 0
  | some l => if l < r.k.pl then s.raise r tPRIV 0 else s.give r gd (s.mfsVal r.x r.i n)

end State

/-- STATUS after an MTS of `v`: IE, PPL_FW and, at monitor level, PPL_SM (R69). -/
def CoreSt.mtsStatus (k : CoreSt) (v : Nat) : Nat :=
  let w := putBits (putBit k.status.toNat 3 (bit v 3)) 6 2 (bits v 6 2)
  if k.pl = 0 then putBits w 8 2 (bits v 8 2) else w

/-- The core after an MTS of `v` to special register `n` (R69). -/
def CoreSt.mts (k : CoreSt) (n : Nat) (v : Word) : CoreSt :=
  let al := v &&& 0xFFFFFFFC
  match n with
  | 0 => { k with status := BitVec.ofNat 32 (k.mtsStatus v.toNat) }
  | 8 => { k with epcFw := al }
  | 11 => { k with tvecFw := al }
  | 12 => { k with scrFw := v }
  | 14 => { k with imask := v }
  | 16 => { k with epcSm := al }
  | 19 => { k with tvecSm := al }
  | 20 => { k with scrSm := v }
  | _ => k

namespace State

/-- MTS of `v` to special register `n`. -/
def opMts (s : State) (r : Run) (n : Nat) (v : Word) : State :=
  match mtsLevel n with
  | none => s.raise r tILLEGAL 0
  | some l =>
    if l < r.k.pl then s.raise r tPRIV 0
    else s.updStr r.x fun c => (c.updCore r.i fun k => k.mts n v).stepCore r.i

/-- ERET (R71). A core that goes to a phrase whose claim is not committed waits there for the commit (R86). -/
def opEret (s : State) (r : Run) : State :=
  match r.k.eret with
  | .error (code, bad) => s.raise r code bad
  | .ok k => s.updStr r.x fun c =>
    let open_ : Bool := match c.flight k.ring with | some f => f.gseq == k.gseq && !f.committed | none => false
    let k := if k.pl = 2 ∧ open_ = true then { k with run := .waiting, wait := .commit } else k
    (c.countInsn r.i).setCore r.i k

/-! ## Every instruction -/

/-- What a device operation does, its fields being legal. -/
def runDev (s : State) (r : Run) (f : Dev) (gd ga : BitVec 5) (v : BitVec 10) : State :=
  let d := r.k.g32 gd
  let a := r.k.g32 ga
  let n := v.toNat
  match f with
  | .chrd => s.channel r false gd a.toNat n d.toNat
  | .chwr => s.channel r true gd a.toNat n d.toNat
  | .loopset => s.loopset r gd d.toNat a.toNat n
  | .fretset => s.fretset r gd d.toNat n
  | .plbeg => s.inPhrase r <| s.giveStatus r gd fun c => c.plbeg n
  | .pladd => s.opPladd r gd n a.toNat d.toNat
  | .plseal => s.opPlseal r gd n a.toNat
  | .plarm => s.opPlarm r gd (bits n 0 7) (bits n 7 1) a.toNat
  | .plcancel => s.opPlcancel r gd n
  | .calset => s.opCalset r gd n a.toNat
  | .evfire => s.opEvfire r gd n
  | .evwait => s.opEvwait r gd (bits n 0 6) (bit n 6) a.toNat
  | .mbpost => s.opMbpost r gd n a.toNat
  | .mbtake => s.opMbtake r gd n a.toNat
  | .pegwr => s.opPegwr r gd a.toNat d.toNat
  | .pegrd => s.opPegrd r gd a.toNat
  | .tsread => s.opTsread r gd n (if ga = 0 then none else some a.toNat)
  | .fence => s.opFence r n
  | .yield => s.opYield r
  | .done => s.opDone r a.toNat n
  | .trap => s.opTrap r n
  | .halt => s.opHalt r
  | .mfs => s.opMfs r gd n
  | .mts => s.opMts r n a
  | .eret => s.opEret r

/-- What an instruction of format I does. -/
def runImm (s : State) (r : Run) (de : Ecc) (f : ImmOp) (gd ga : BitVec 5) (v : BitVec 16) : State :=
  let d := r.k.g32 gd
  let a := r.k.g32 ga
  let t := a + v.signExtend 32
  match immVal f a v with
  | some w => s.give r gd w.toNat
  | none =>
    match branchTaken f d a with
    | some true => s.updStr r.x fun c => c.jumpTo r.i (r.k.pc + 4 + v.signExtend 32 * 4).toNat
    | some false => s.updStr r.x fun c => c.stepCore r.i
    | none =>
      match loadForm f with
      | some (n, sign) => s.load r de n sign gd t.toNat
      | none =>
        match storeForm f with
        | some n => s.store r n d t.toNat
        | none =>
          -- JALR: the target is computed before gd is written (R54)
          if t.toNat % 4 ≠ 0 then s.raise r tALIGN t.toNat
          else s.updStr r.x fun c => (c.jumpTo r.i t.toNat).updCore r.i fun k => k.setReg gd.toNat (r.k.pc + 4).toNat

/-- What an instruction does, its fields being legal; `de`: what the ECC of the word that it loads meets. -/
def runOp (s : State) (r : Run) (de : Ecc) (n : Insn) : State :=
  match n with
  | .alu f gd ga gb => s.give r gd (aluVal f (r.k.g32 ga) (r.k.g32 gb) gb.toNat).toNat
  | .imm f gd ga v => s.runImm r de f gd ga v
  | .jump link v => s.updStr r.x fun c =>
    let c := c.jumpTo r.i (r.k.pc + 4 + v.signExtend 32 * 4).toNat
    if link then c.updCore r.i fun k => k.setReg 31 (r.k.pc + 4).toNat else c
  | .atom f gd ga gb => s.atomic r de f gd (r.k.g32 gb) (r.k.g32 ga).toNat
  | .dev f gd ga v => s.runDev r f gd ga v

/-- The address `a` of a word is one that the address space holds, in a domain that is on (R34, R35, R37). -/
def assigned (s : State) (x : Str) (a : Nat) : Bool :=
  if a < 0x02000000 then (s.str x).ramOk a 4
  else if 0x40000000 ≤ a ∧ a < 0x40040000 then (regAt (a - 0x40000000)).isSome && s.regOn x (a - 0x40000000)
  else if 0x70000000 ≤ a ∧ a < 0x70080000 then (s.str x).domOn 62
  else decide (0x7F000000 ≤ a ∧ a < 0x7F020000)

/-- The fetch of a word at the PC of a core that may run (R34, R45, R70): `ok` gives what follows it. -/
def fetch (s : State) (x : Str) (i : Nat) (fe : Ecc) (ok : State → State) : State :=
  let c := s.str x
  let k := c.core i
  let a := k.pc.toNat
  if !s.assigned x a then s.fault x i ⟨tBUSERR, 0, a⟩
  else if !c.fetchPerm k a then s.fault x i ⟨tFETCH, 0, a⟩
  else if a < 0x02000000 then
    let s := s.updStr x fun c => c.eccMeets a fe
    if fe = .double then s.fault x i ⟨tECC, 0, a⟩ else ok s
  else ok s

/-- Core `i` of string `x` fetches an instruction and executes it (R45 to R72); `fe`, `de`: what the ECC of its word, and of the word
that it loads, meets. A core that does not run, or has used its budget, does nothing. -/
def runInsn (s : State) (x : Str) (i : Nat) (step : Bool) (fe de : Ecc) (n : Insn) : State :=
  if (s.str x).mayRun i step then
    s.fetch x i fe fun s =>
      let r : Run := ⟨x, i, (s.str x).core i, n.op.toNat⟩
      if n.legal then s.runOp r de n else s.raise r tILLEGAL 0
  else s

/-- A wait of core `i` in EVWAIT has passed its timeout (R63). -/
def evTimeout (s : State) (x : Str) (i : Nat) : State :=
  s.updStr x fun c =>
    match (c.core i).wait with
    | .event gd _ _ (some e) => if e ≤ c.time then c.finishOut i gd sTIMEOUT else c
    | _ => c

end State
end Sys2Proof.Machine
end

