-- ==== Sys2Proof/Machine/Cores.lean ====
section
/-! DEFINITION. The commands of the Quinli cores: core `i` of string `x` runs one instruction, which the command names with its fields;
`fe` and `de` are what the ECC of the instruction word, and of the word that a load or an ATOM reads, meets (02_quinli_isa.md R45 to
R73; log entry 25). EVWAIT_TIMEOUT, INT, and DBG_CTL_STEP (20_register_map.md R449). -/

namespace Sys2Proof.Machine

/-- ADD (R49). -/
def execAdd (x : Str) (i : Fin 4) (gd ga gb : BitVec 5) (fe : Ecc) (s : State) : Out :=
  .next (s.runInsn x i.val false fe .clean (.alu .add gd ga gb))

/-- SUB (R49). -/
def execSub (x : Str) (i : Fin 4) (gd ga gb : BitVec 5) (fe : Ecc) (s : State) : Out :=
  .next (s.runInsn x i.val false fe .clean (.alu .sub gd ga gb))

/-- AND (R49). -/
def execAnd (x : Str) (i : Fin 4) (gd ga gb : BitVec 5) (fe : Ecc) (s : State) : Out :=
  .next (s.runInsn x i.val false fe .clean (.alu .and gd ga gb))

/-- OR (R49). -/
def execOr (x : Str) (i : Fin 4) (gd ga gb : BitVec 5) (fe : Ecc) (s : State) : Out :=
  .next (s.runInsn x i.val false fe .clean (.alu .or gd ga gb))

/-- XOR (R49). -/
def execXor (x : Str) (i : Fin 4) (gd ga gb : BitVec 5) (fe : Ecc) (s : State) : Out :=
  .next (s.runInsn x i.val false fe .clean (.alu .xor gd ga gb))

/-- SLL (R49). -/
def execSll (x : Str) (i : Fin 4) (gd ga gb : BitVec 5) (fe : Ecc) (s : State) : Out :=
  .next (s.runInsn x i.val false fe .clean (.alu .sll gd ga gb))

/-- SRL (R49). -/
def execSrl (x : Str) (i : Fin 4) (gd ga gb : BitVec 5) (fe : Ecc) (s : State) : Out :=
  .next (s.runInsn x i.val false fe .clean (.alu .srl gd ga gb))

/-- SRA (R49). -/
def execSra (x : Str) (i : Fin 4) (gd ga gb : BitVec 5) (fe : Ecc) (s : State) : Out :=
  .next (s.runInsn x i.val false fe .clean (.alu .sra gd ga gb))

/-- SLT (R49). -/
def execSlt (x : Str) (i : Fin 4) (gd ga gb : BitVec 5) (fe : Ecc) (s : State) : Out :=
  .next (s.runInsn x i.val false fe .clean (.alu .slt gd ga gb))

/-- SLTU (R49). -/
def execSltu (x : Str) (i : Fin 4) (gd ga gb : BitVec 5) (fe : Ecc) (s : State) : Out :=
  .next (s.runInsn x i.val false fe .clean (.alu .sltu gd ga gb))

/-- MUL (R49). -/
def execMul (x : Str) (i : Fin 4) (gd ga gb : BitVec 5) (fe : Ecc) (s : State) : Out :=
  .next (s.runInsn x i.val false fe .clean (.alu .mul gd ga gb))

/-- MULH (R49). -/
def execMulh (x : Str) (i : Fin 4) (gd ga gb : BitVec 5) (fe : Ecc) (s : State) : Out :=
  .next (s.runInsn x i.val false fe .clean (.alu .mulh gd ga gb))

/-- MULHU (R49). -/
def execMulhu (x : Str) (i : Fin 4) (gd ga gb : BitVec 5) (fe : Ecc) (s : State) : Out :=
  .next (s.runInsn x i.val false fe .clean (.alu .mulhu gd ga gb))

/-- DIV (R50). -/
def execDiv (x : Str) (i : Fin 4) (gd ga gb : BitVec 5) (fe : Ecc) (s : State) : Out :=
  .next (s.runInsn x i.val false fe .clean (.alu .div gd ga gb))

/-- DIVU (R50). -/
def execDivu (x : Str) (i : Fin 4) (gd ga gb : BitVec 5) (fe : Ecc) (s : State) : Out :=
  .next (s.runInsn x i.val false fe .clean (.alu .divu gd ga gb))

/-- REM (R50). -/
def execRem (x : Str) (i : Fin 4) (gd ga gb : BitVec 5) (fe : Ecc) (s : State) : Out :=
  .next (s.runInsn x i.val false fe .clean (.alu .rem gd ga gb))

/-- REMU (R50). -/
def execRemu (x : Str) (i : Fin 4) (gd ga gb : BitVec 5) (fe : Ecc) (s : State) : Out :=
  .next (s.runInsn x i.val false fe .clean (.alu .remu gd ga gb))

/-- SLLI (R49). -/
def execSlli (x : Str) (i : Fin 4) (gd ga gb : BitVec 5) (fe : Ecc) (s : State) : Out :=
  .next (s.runInsn x i.val false fe .clean (.alu .slli gd ga gb))

/-- SRLI (R49). -/
def execSrli (x : Str) (i : Fin 4) (gd ga gb : BitVec 5) (fe : Ecc) (s : State) : Out :=
  .next (s.runInsn x i.val false fe .clean (.alu .srli gd ga gb))

/-- SRAI (R49). -/
def execSrai (x : Str) (i : Fin 4) (gd ga gb : BitVec 5) (fe : Ecc) (s : State) : Out :=
  .next (s.runInsn x i.val false fe .clean (.alu .srai gd ga gb))

/-- MIN (R49). -/
def execMin (x : Str) (i : Fin 4) (gd ga gb : BitVec 5) (fe : Ecc) (s : State) : Out :=
  .next (s.runInsn x i.val false fe .clean (.alu .min gd ga gb))

/-- MAX (R49). -/
def execMax (x : Str) (i : Fin 4) (gd ga gb : BitVec 5) (fe : Ecc) (s : State) : Out :=
  .next (s.runInsn x i.val false fe .clean (.alu .max gd ga gb))

/-- CLZ (R49). -/
def execClz (x : Str) (i : Fin 4) (gd ga gb : BitVec 5) (fe : Ecc) (s : State) : Out :=
  .next (s.runInsn x i.val false fe .clean (.alu .clz gd ga gb))

/-- ADDI (R51). -/
def execAddi (x : Str) (i : Fin 4) (gd ga : BitVec 5) (imm : BitVec 16) (fe : Ecc) (s : State) : Out :=
  .next (s.runInsn x i.val false fe .clean (.imm .addi gd ga imm))

/-- ANDI (R51). -/
def execAndi (x : Str) (i : Fin 4) (gd ga : BitVec 5) (imm : BitVec 16) (fe : Ecc) (s : State) : Out :=
  .next (s.runInsn x i.val false fe .clean (.imm .andi gd ga imm))

/-- ORI (R51). -/
def execOri (x : Str) (i : Fin 4) (gd ga : BitVec 5) (imm : BitVec 16) (fe : Ecc) (s : State) : Out :=
  .next (s.runInsn x i.val false fe .clean (.imm .ori gd ga imm))

/-- XORI (R51). -/
def execXori (x : Str) (i : Fin 4) (gd ga : BitVec 5) (imm : BitVec 16) (fe : Ecc) (s : State) : Out :=
  .next (s.runInsn x i.val false fe .clean (.imm .xori gd ga imm))

/-- LUI (R51). -/
def execLui (x : Str) (i : Fin 4) (gd ga : BitVec 5) (imm : BitVec 16) (fe : Ecc) (s : State) : Out :=
  .next (s.runInsn x i.val false fe .clean (.imm .lui gd ga imm))

/-- SLTI (R51). -/
def execSlti (x : Str) (i : Fin 4) (gd ga : BitVec 5) (imm : BitVec 16) (fe : Ecc) (s : State) : Out :=
  .next (s.runInsn x i.val false fe .clean (.imm .slti gd ga imm))

/-- SLTIU (R51). -/
def execSltiu (x : Str) (i : Fin 4) (gd ga : BitVec 5) (imm : BitVec 16) (fe : Ecc) (s : State) : Out :=
  .next (s.runInsn x i.val false fe .clean (.imm .sltiu gd ga imm))

/-- LW (R52). -/
def execLw (x : Str) (i : Fin 4) (gd ga : BitVec 5) (imm : BitVec 16) (fe de : Ecc) (s : State) : Out :=
  .next (s.runInsn x i.val false fe de (.imm .lw gd ga imm))

/-- LH (R52). -/
def execLh (x : Str) (i : Fin 4) (gd ga : BitVec 5) (imm : BitVec 16) (fe de : Ecc) (s : State) : Out :=
  .next (s.runInsn x i.val false fe de (.imm .lh gd ga imm))

/-- LHU (R52). -/
def execLhu (x : Str) (i : Fin 4) (gd ga : BitVec 5) (imm : BitVec 16) (fe de : Ecc) (s : State) : Out :=
  .next (s.runInsn x i.val false fe de (.imm .lhu gd ga imm))

/-- LB (R52). -/
def execLb (x : Str) (i : Fin 4) (gd ga : BitVec 5) (imm : BitVec 16) (fe de : Ecc) (s : State) : Out :=
  .next (s.runInsn x i.val false fe de (.imm .lb gd ga imm))

/-- LBU (R52). -/
def execLbu (x : Str) (i : Fin 4) (gd ga : BitVec 5) (imm : BitVec 16) (fe de : Ecc) (s : State) : Out :=
  .next (s.runInsn x i.val false fe de (.imm .lbu gd ga imm))

/-- SW (R52). -/
def execSw (x : Str) (i : Fin 4) (gd ga : BitVec 5) (imm : BitVec 16) (fe : Ecc) (s : State) : Out :=
  .next (s.runInsn x i.val false fe .clean (.imm .sw gd ga imm))

/-- SH (R52). -/
def execSh (x : Str) (i : Fin 4) (gd ga : BitVec 5) (imm : BitVec 16) (fe : Ecc) (s : State) : Out :=
  .next (s.runInsn x i.val false fe .clean (.imm .sh gd ga imm))

/-- SB (R52). -/
def execSb (x : Str) (i : Fin 4) (gd ga : BitVec 5) (imm : BitVec 16) (fe : Ecc) (s : State) : Out :=
  .next (s.runInsn x i.val false fe .clean (.imm .sb gd ga imm))

/-- SWAP (R53). -/
def execSwap (x : Str) (i : Fin 4) (gd ga gb : BitVec 5) (fe de : Ecc) (s : State) : Out :=
  .next (s.runInsn x i.val false fe de (.atom .swap gd ga gb))

/-- AADD (R53). -/
def execAadd (x : Str) (i : Fin 4) (gd ga gb : BitVec 5) (fe de : Ecc) (s : State) : Out :=
  .next (s.runInsn x i.val false fe de (.atom .aadd gd ga gb))

/-- CAS (R53). -/
def execCas (x : Str) (i : Fin 4) (gd ga gb : BitVec 5) (fe de : Ecc) (s : State) : Out :=
  .next (s.runInsn x i.val false fe de (.atom .cas gd ga gb))

/-- BEQ (R54). -/
def execBeq (x : Str) (i : Fin 4) (gd ga : BitVec 5) (imm : BitVec 16) (fe : Ecc) (s : State) : Out :=
  .next (s.runInsn x i.val false fe .clean (.imm .beq gd ga imm))

/-- BNE (R54). -/
def execBne (x : Str) (i : Fin 4) (gd ga : BitVec 5) (imm : BitVec 16) (fe : Ecc) (s : State) : Out :=
  .next (s.runInsn x i.val false fe .clean (.imm .bne gd ga imm))

/-- BLT (R54). -/
def execBlt (x : Str) (i : Fin 4) (gd ga : BitVec 5) (imm : BitVec 16) (fe : Ecc) (s : State) : Out :=
  .next (s.runInsn x i.val false fe .clean (.imm .blt gd ga imm))

/-- BGE (R54). -/
def execBge (x : Str) (i : Fin 4) (gd ga : BitVec 5) (imm : BitVec 16) (fe : Ecc) (s : State) : Out :=
  .next (s.runInsn x i.val false fe .clean (.imm .bge gd ga imm))

/-- BLTU (R54). -/
def execBltu (x : Str) (i : Fin 4) (gd ga : BitVec 5) (imm : BitVec 16) (fe : Ecc) (s : State) : Out :=
  .next (s.runInsn x i.val false fe .clean (.imm .bltu gd ga imm))

/-- BGEU (R54). -/
def execBgeu (x : Str) (i : Fin 4) (gd ga : BitVec 5) (imm : BitVec 16) (fe : Ecc) (s : State) : Out :=
  .next (s.runInsn x i.val false fe .clean (.imm .bgeu gd ga imm))

/-- J (R54). -/
def execJ (x : Str) (i : Fin 4) (imm : BitVec 26) (fe : Ecc) (s : State) : Out :=
  .next (s.runInsn x i.val false fe .clean (.jump false imm))

/-- JAL (R54). -/
def execJal (x : Str) (i : Fin 4) (imm : BitVec 26) (fe : Ecc) (s : State) : Out :=
  .next (s.runInsn x i.val false fe .clean (.jump true imm))

/-- JALR (R54). -/
def execJalr (x : Str) (i : Fin 4) (gd ga : BitVec 5) (imm : BitVec 16) (fe : Ecc) (s : State) : Out :=
  .next (s.runInsn x i.val false fe .clean (.imm .jalr gd ga imm))

/-- CHRD (R60). -/
def execChrd (x : Str) (i : Fin 4) (gd ga : BitVec 5) (imm : BitVec 10) (fe : Ecc) (s : State) : Out :=
  .next (s.runInsn x i.val false fe .clean (.dev .chrd gd ga imm))

/-- CHWR (R60). -/
def execChwr (x : Str) (i : Fin 4) (gd ga : BitVec 5) (imm : BitVec 10) (fe : Ecc) (s : State) : Out :=
  .next (s.runInsn x i.val false fe .clean (.dev .chwr gd ga imm))

/-- LOOPSET (R61). -/
def execLoopset (x : Str) (i : Fin 4) (gd ga : BitVec 5) (imm : BitVec 10) (fe : Ecc) (s : State) : Out :=
  .next (s.runInsn x i.val false fe .clean (.dev .loopset gd ga imm))

/-- FRETSET (R61). -/
def execFretset (x : Str) (i : Fin 4) (gd ga : BitVec 5) (imm : BitVec 10) (fe : Ecc) (s : State) : Out :=
  .next (s.runInsn x i.val false fe .clean (.dev .fretset gd ga imm))

/-- PLBEG (R62). -/
def execPlbeg (x : Str) (i : Fin 4) (gd ga : BitVec 5) (imm : BitVec 10) (fe : Ecc) (s : State) : Out :=
  .next (s.runInsn x i.val false fe .clean (.dev .plbeg gd ga imm))

/-- PLADD (R62). -/
def execPladd (x : Str) (i : Fin 4) (gd ga : BitVec 5) (imm : BitVec 10) (fe : Ecc) (s : State) : Out :=
  .next (s.runInsn x i.val false fe .clean (.dev .pladd gd ga imm))

/-- PLSEAL (R62). -/
def execPlseal (x : Str) (i : Fin 4) (gd ga : BitVec 5) (imm : BitVec 10) (fe : Ecc) (s : State) : Out :=
  .next (s.runInsn x i.val false fe .clean (.dev .plseal gd ga imm))

/-- PLARM (R62). -/
def execPlarm (x : Str) (i : Fin 4) (gd ga : BitVec 5) (imm : BitVec 10) (fe : Ecc) (s : State) : Out :=
  .next (s.runInsn x i.val false fe .clean (.dev .plarm gd ga imm))

/-- PLCANCEL (R252). -/
def execPlcancel (x : Str) (i : Fin 4) (gd ga : BitVec 5) (imm : BitVec 10) (fe : Ecc) (s : State) : Out :=
  .next (s.runInsn x i.val false fe .clean (.dev .plcancel gd ga imm))

/-- CALSET (R255). -/
def execCalset (x : Str) (i : Fin 4) (gd ga : BitVec 5) (imm : BitVec 10) (fe : Ecc) (s : State) : Out :=
  .next (s.runInsn x i.val false fe .clean (.dev .calset gd ga imm))

/-- EVFIRE (R63). -/
def execEvfire (x : Str) (i : Fin 4) (gd ga : BitVec 5) (imm : BitVec 10) (fe : Ecc) (s : State) : Out :=
  .next (s.runInsn x i.val false fe .clean (.dev .evfire gd ga imm))

/-- EVWAIT (R63). -/
def execEvwait (x : Str) (i : Fin 4) (gd ga : BitVec 5) (imm : BitVec 10) (fe : Ecc) (s : State) : Out :=
  .next (s.runInsn x i.val false fe .clean (.dev .evwait gd ga imm))

/-- EVWAIT_TIMEOUT (R63). -/
def execEvwaitTimeout (x : Str) (i : Fin 4) (t : Nat) (s : State) : Out := .next ((s.advance t).evTimeout x i.val)

/-- MBPOST (R64). -/
def execMbpost (x : Str) (i : Fin 4) (gd ga : BitVec 5) (imm : BitVec 10) (fe : Ecc) (s : State) : Out :=
  .next (s.runInsn x i.val false fe .clean (.dev .mbpost gd ga imm))

/-- MBTAKE (R64). -/
def execMbtake (x : Str) (i : Fin 4) (gd ga : BitVec 5) (imm : BitVec 10) (fe : Ecc) (s : State) : Out :=
  .next (s.runInsn x i.val false fe .clean (.dev .mbtake gd ga imm))

/-- PEGWR (R65). -/
def execPegwr (x : Str) (i : Fin 4) (gd ga : BitVec 5) (imm : BitVec 10) (fe : Ecc) (s : State) : Out :=
  .next (s.runInsn x i.val false fe .clean (.dev .pegwr gd ga imm))

/-- PEGRD (R65). -/
def execPegrd (x : Str) (i : Fin 4) (gd ga : BitVec 5) (imm : BitVec 10) (fe : Ecc) (s : State) : Out :=
  .next (s.runInsn x i.val false fe .clean (.dev .pegrd gd ga imm))

/-- TSREAD (R66). -/
def execTsread (x : Str) (i : Fin 4) (gd ga : BitVec 5) (imm : BitVec 10) (fe : Ecc) (s : State) : Out :=
  .next (s.runInsn x i.val false fe .clean (.dev .tsread gd ga imm))

/-- FENCE (R67). -/
def execFence (x : Str) (i : Fin 4) (gd ga : BitVec 5) (imm : BitVec 10) (fe : Ecc) (s : State) : Out :=
  .next (s.runInsn x i.val false fe .clean (.dev .fence gd ga imm))

/-- YIELD (R68). -/
def execYield (x : Str) (i : Fin 4) (gd ga : BitVec 5) (imm : BitVec 10) (fe : Ecc) (s : State) : Out :=
  .next (s.runInsn x i.val false fe .clean (.dev .yield gd ga imm))

/-- DONE (R68). -/
def execDone (x : Str) (i : Fin 4) (gd ga : BitVec 5) (imm : BitVec 10) (fe : Ecc) (s : State) : Out :=
  .next (s.runInsn x i.val false fe .clean (.dev .done gd ga imm))

/-- TRAP (R68): TRAP with imm10[9] = 0; `imm` its bits [8:0]. -/
def execTrap (x : Str) (i : Fin 4) (gd ga : BitVec 5) (imm : BitVec 9) (fe : Ecc) (s : State) : Out :=
  .next (s.runInsn x i.val false fe .clean (.dev .trap gd ga ((0 : BitVec 1) ++ imm)))

/-- MCALL (R68): TRAP with imm10[9] = 1; `imm` its bits [8:0]. -/
def execMcall (x : Str) (i : Fin 4) (gd ga : BitVec 5) (imm : BitVec 9) (fe : Ecc) (s : State) : Out :=
  .next (s.runInsn x i.val false fe .clean (.dev .trap gd ga ((1 : BitVec 1) ++ imm)))

/-- HALT (R68). -/
def execHalt (x : Str) (i : Fin 4) (gd ga : BitVec 5) (imm : BitVec 10) (fe : Ecc) (s : State) : Out :=
  .next (s.runInsn x i.val false fe .clean (.dev .halt gd ga imm))

/-- MFS (R69). -/
def execMfs (x : Str) (i : Fin 4) (gd ga : BitVec 5) (imm : BitVec 10) (fe : Ecc) (s : State) : Out :=
  .next (s.runInsn x i.val false fe .clean (.dev .mfs gd ga imm))

/-- MTS (R69). -/
def execMts (x : Str) (i : Fin 4) (gd ga : BitVec 5) (imm : BitVec 10) (fe : Ecc) (s : State) : Out :=
  .next (s.runInsn x i.val false fe .clean (.dev .mts gd ga imm))

/-- ERET (R71). -/
def execEret (x : Str) (i : Fin 4) (gd ga : BitVec 5) (imm : BitVec 10) (fe : Ecc) (s : State) : Out :=
  .next (s.runInsn x i.val false fe .clean (.dev .eret gd ga imm))

/-- INT (R73). -/
def execInt (x : Str) (i : Fin 4) (s : State) : Out := .next (s.interrupt x i.val)

/-- The word at a core's PC, where it can be fetched (R76). -/
def fetchWord (c : StringSt) (i : Nat) : Word :=
  let a := (c.core i).pc.toNat
  BitVec.ofNat 32 (if a < 0x02000000 then (c.core i).text.word a else romWord a)

namespace State

/-- A core that is halted for debug runs the instruction at its PC (R449); a word that spells none is an unassigned encoding. -/
def stepHalted (s : State) (x : Str) (i : Nat) : State :=
  let w := fetchWord (s.str x) i
  match decodeInsn w with
  | some n => s.runInsn x i true .clean .clean n
  | none =>
    if (s.str x).mayRun i true then s.fetch x i .clean fun s => s.fault x i ⟨tILLEGAL, bits w.toNat 26 6, 0⟩ else s

end State

/-- DBG_CTL_STEP (R449): a host write of a STEP bit while debug is unlocked, or the step that a core's own store has asked for. -/
def execDbgCtlStep (x : Str) (i : Fin 4) (host : Bool) (s : State) : Out :=
  let c := s.str x
  let ask := if host then c.flag Reg.SEC_BOOT F.SEC_BOOT.DBGUNL && c.domOn 1 && c.domOn 59 else bit c.dbgReq i.val
  .next (if ask && (c.core i.val).dbgHalt then
      ((if host then s else s.updStr x fun c => { c with dbgReq := putBit c.dbgReq i.val false }).stepHalted x i.val)
    else s)

end Sys2Proof.Machine
end

