-- ==== Sys2Proof/Machine/Services.lean ====
section
/-! DEFINITION. The firmware services (02_quinli_isa.md R452): firmware runs the service that a phrase has called with TRAP, and resumes
the phrase at the instruction after the TRAP with a status in g2. -/

namespace Sys2Proof.Machine
namespace StringSt

/-- Core `i` is in the firmware handler of the TRAP of a phrase that calls service `n` (R68, R71, R452). -/
def serving (c : StringSt) (i n : Nat) : Bool :=
  let k := c.core i
  let w := k.causeFw.toNat
  decide (k.pl = 1) && k.tf && k.busy && decide (k.run = .running) && !k.dbgHalt && decide (bits w 0 8 = tSWTRAP) &&
    decide (bits w 8 2 = 2) && decide (bits w 12 10 = n)

/-- The header of the phrase that core `i` runs carries BARRIER (03_rings_ordering.md R79). -/
def hasBarrier (c : StringSt) (i : Nat) : Bool := match c.flight (c.core i).ring with | some f => f.barrier | none => false

/-- On the standby, the service of core `i` has its own effects and waits for the active string's status (R58): the core stands at the TRAP,
whose completion counts once. -/
def awaitStatus (c : StringSt) (i st : Nat) : StringSt :=
  let c := c.updCore i fun k => { k with pc := k.pc - 4 }
  (c.updFlight (c.core i).ring fun f => { f with count := f.count - 1 }).hold i (.outcome 2 (.plain (some st)))

/-- FLTINJ (16_faults.md R370): source, g4, string mask. -/
def fltinj (c : StringSt) (g3 g4 g5 : Nat) : Nat × StringSt :=
  if !c.selected g5 then (sOK, c)
  else if (severity g3).isNone then (sBADVAL, c)
  else if !c.flag Reg.ALV_CFG F.ALV_CFG.INJEN then (sBUSY, c)
  else (sOK, if bit g4 0 then c.force g3 else c.setFld (Reg.ALV_SRC g3) F.ALV_SRC.FORCE 0)

/-- FLTCLR (16_faults.md R370). -/
def fltclr (c : StringSt) (g3 g4 g5 : Nat) : Nat × StringSt :=
  if !c.selected g5 then (sOK, c)
  else if 160 ≤ g3 ∧ g3 ≠ 0xFFFF then (sBADVAL, c)
  else
    let c := if g3 = 0xFFFF then (List.range 160).foldl clearSource c else c.clearSource g3
    (sOK, if bit g4 0 then c.clearFirst else c)

/-- EVGRP (15_events_mailboxes.md R348): groups to enable, groups to disable, string mask. -/
def evgrp (c : StringSt) (g3 g4 g5 : Nat) : Nat × StringSt :=
  if !c.selected g5 then (sOK, c)
  else if 256 ≤ g3 ∨ 256 ≤ g4 ∨ (List.range 8).any (fun n => bit g3 n && bit g4 n) then (sBADVAL, c)
  else
    let v := (List.range 8).foldl (fun v n => if bit g3 n then putBit v n true else if bit g4 n then putBit v n false else v)
      (c.rd Reg.EVF_GRP)
    (sOK, c.wr Reg.EVF_GRP v)

end StringSt

namespace State

/-- Service `n` of core `i` of string `x`, where the core is in its handler: the service `f`, on the core and the state, answers its status;
`out`: the status that the phrase goes on with is the active string's (R58). -/
def service (s : State) (x : Str) (i n : Nat) (out : Bool) (f : CoreSt → State → Nat × State) : State :=
  if (s.str x).serving i n then
    let r := f ((s.str x).core i) s
    let t := r.2.resumePhrase x i r.1
    if out then t.updStr x fun c => if c.follows i then c.awaitStatus i r.1 else c.sendOutcome i ⟨r.1, 0, 0, false⟩ else t
  else s

/-- A service that changes its string only. -/
def onString (x : Str) (f : StringSt → Nat × StringSt) (s : State) : Nat × State :=
  let r := f (s.str x)
  (r.1, s.setStr x r.2)


end State

/-! ## Commands -/

/-- DLBEGIN (R120). -/
def execDlbegin (x : Str) (i : Fin 4) (s : State) : Out :=
  .next (s.service x i.val 0x040 true fun k => State.onString x fun c => c.dlbegin k.ring (c.hasBarrier i.val) (k.reg 3))

/-- DLDATA (R121). -/
def execDldata (x : Str) (i : Fin 4) (s : State) : Out :=
  .next (s.service x i.val 0x041 true fun k =>
    State.onString x fun c => c.dldata (decide (k.ring ≤ 3)) k.ring (k.reg 3) (k.reg 4) (k.reg 5))

/-- DLEND (R121). -/
def execDlend (x : Str) (i : Fin 4) (s : State) : Out := .next (s.service x i.val 0x042 true fun k s => s.dlend x k.ring)

/-- DLABORT (R121). -/
def execDlabort (x : Str) (i : Fin 4) (s : State) : Out :=
  .next (s.service x i.val 0x043 true fun k => State.onString x fun c => c.dlabort k.ring)

/-- CSETLOAD (R191). -/
def execCsetload (x : Str) (i : Fin 4) (s : State) : Out :=
  .next (s.service x i.val 0x050 false fun k => State.onString x fun c => c.csetLoad (decide (k.ring ≤ 3)) (k.reg 3) (k.reg 4))

/-- RTSOLVE (R220): `us` its duration in microseconds, which no rule gives (RTE_TSOLVE). -/
def execRtsolve (x : Str) (i : Fin 4) (us : Nat) (s : State) : Out :=
  .next (s.service x i.val 0x060 false fun k =>
    State.onString x fun c => c.rtsolve (decide (k.ring ≤ 3)) k.ring (c.hasBarrier i.val) k.reg us)

/-- RTBIND (R216). -/
def execRtbind (x : Str) (i : Fin 4) (s : State) : Out :=
  .next (s.service x i.val 0x061 false fun k => State.onString x fun c => c.rtbind k.ring (c.hasBarrier i.val) (k.reg 3))

/-- RTSET (R216). -/
def execRtset (x : Str) (i : Fin 4) (s : State) : Out :=
  .next (s.service x i.val 0x062 false fun k =>
    State.onString x fun c => c.rtset (decide (k.ring ≤ 3)) (c.hasBarrier i.val) (k.reg 3))

/-- XTLOAD (R228). -/
def execXtload (x : Str) (i : Fin 4) (s : State) : Out :=
  .next (s.service x i.val 0x070 false fun k => State.onString x fun c => c.xtload (decide (k.ring ≤ 3)) i.val k.reg)

/-- XTPROP (R234). -/
def execXtprop (x : Str) (i : Fin 4) (s : State) : Out :=
  .next (s.service x i.val 0x071 false fun k => State.onString x fun c => c.xtprop (decide (k.ring ≤ 3)) k.reg)

/-- CALLOAD (R279). -/
def execCalload (x : Str) (i : Fin 4) (s : State) : Out :=
  .next (s.service x i.val 0x080 false fun k =>
    State.onString x fun c => c.calload (decide (k.ring ≤ 3)) i.val (k.reg 3) (k.reg 4))

/-- FLTINJ (R370). -/
def execFltinj (x : Str) (i : Fin 4) (s : State) : Out :=
  .next (s.service x i.val 0x090 true fun k => State.onString x fun c => c.fltinj (k.reg 3) (k.reg 4) (k.reg 5)).capoSettle

/-- FLTCLR (R370). -/
def execFltclr (x : Str) (i : Fin 4) (s : State) : Out :=
  .next (s.service x i.val 0x091 true fun k => State.onString x fun c => c.fltclr (k.reg 3) (k.reg 4) (k.reg 5))

/-- AGEPRIO (R397). -/
def execAgeprio (x : Str) (i : Fin 4) (s : State) : Out :=
  .next (s.service x i.val 0x0A0 false fun k => State.onString x fun c => State.ageprio c k.reg)

/-- FLPROG (R416). -/
def execFlprog (x : Str) (i : Fin 4) (s : State) : Out :=
  .next (s.service x i.val 0x0B0 true fun k =>
    State.onString x fun c => c.flprog (decide (k.ring ≤ 3)) (k.reg 3) (k.reg 4) (k.reg 5) (k.reg 6))

/-- FWTRY (R416). -/
def execFwtry (x : Str) (i : Fin 4) (s : State) : Out :=
  .next (s.service x i.val 0x0B1 true fun k => State.onString x fun c => c.fwtry (k.reg 3) (k.reg 5))

/-- SVNCOMMIT (R416). -/
def execSvncommit (x : Str) (i : Fin 4) (s : State) : Out :=
  .next (s.service x i.val 0x0B2 true fun k => State.onString x fun c => c.svncommit (k.reg 3))

/-- KEYLOAD (R419). -/
def execKeyload (x : Str) (i : Fin 4) (s : State) : Out :=
  .next (s.service x i.val 0x0B3 true fun k => State.onString x fun c => c.keyload (decide (k.ring ≤ 3)) (k.reg 3) (k.reg 4))

/-- DBGUNLOCK (R420). -/
def execDbgunlock (x : Str) (i : Fin 4) (s : State) : Out :=
  .next (s.service x i.val 0x0B4 true fun k => State.onString x fun c => c.dbgunlock (decide (k.ring ≤ 3)) (k.reg 3) (k.reg 5))

/-- ATTEST (R421). -/
def execAttest (x : Str) (i : Fin 4) (s : State) : Out :=
  .next (s.service x i.val 0x0B5 true fun k => State.onString x fun c => c.attest (decide (k.ring ≤ 3)) (k.reg 3) (k.reg 4))

/-- EVGRP (R348). -/
def execEvgrp (x : Str) (i : Fin 4) (s : State) : Out :=
  .next (s.service x i.val 0x0C0 true fun k => State.onString x fun c => c.evgrp (k.reg 3) (k.reg 4) (k.reg 5))

end Sys2Proof.Machine
end

