-- ==== Sys2Proof/Machine/Dispatch.lean ====
section
/-! DEFINITION. One arm for each command: a direct call of its meaning. -/

namespace Sys2Proof.Machine

def exec (i : Instr) (s : State) : Host.Outcome State Fault Refusal :=
  match i with
  -- Quinli instructions
  | .add x core gd ga gb fe => Sys2Proof.Machine.execAdd x core gd ga gb fe s
  | .sub x core gd ga gb fe => Sys2Proof.Machine.execSub x core gd ga gb fe s
  | .and x core gd ga gb fe => Sys2Proof.Machine.execAnd x core gd ga gb fe s
  | .or x core gd ga gb fe => Sys2Proof.Machine.execOr x core gd ga gb fe s
  | .xor x core gd ga gb fe => Sys2Proof.Machine.execXor x core gd ga gb fe s
  | .sll x core gd ga gb fe => Sys2Proof.Machine.execSll x core gd ga gb fe s
  | .srl x core gd ga gb fe => Sys2Proof.Machine.execSrl x core gd ga gb fe s
  | .sra x core gd ga gb fe => Sys2Proof.Machine.execSra x core gd ga gb fe s
  | .slt x core gd ga gb fe => Sys2Proof.Machine.execSlt x core gd ga gb fe s
  | .sltu x core gd ga gb fe => Sys2Proof.Machine.execSltu x core gd ga gb fe s
  | .mul x core gd ga gb fe => Sys2Proof.Machine.execMul x core gd ga gb fe s
  | .mulh x core gd ga gb fe => Sys2Proof.Machine.execMulh x core gd ga gb fe s
  | .mulhu x core gd ga gb fe => Sys2Proof.Machine.execMulhu x core gd ga gb fe s
  | .div x core gd ga gb fe => Sys2Proof.Machine.execDiv x core gd ga gb fe s
  | .divu x core gd ga gb fe => Sys2Proof.Machine.execDivu x core gd ga gb fe s
  | .rem x core gd ga gb fe => Sys2Proof.Machine.execRem x core gd ga gb fe s
  | .remu x core gd ga gb fe => Sys2Proof.Machine.execRemu x core gd ga gb fe s
  | .slli x core gd ga gb fe => Sys2Proof.Machine.execSlli x core gd ga gb fe s
  | .srli x core gd ga gb fe => Sys2Proof.Machine.execSrli x core gd ga gb fe s
  | .srai x core gd ga gb fe => Sys2Proof.Machine.execSrai x core gd ga gb fe s
  | .min x core gd ga gb fe => Sys2Proof.Machine.execMin x core gd ga gb fe s
  | .max x core gd ga gb fe => Sys2Proof.Machine.execMax x core gd ga gb fe s
  | .clz x core gd ga gb fe => Sys2Proof.Machine.execClz x core gd ga gb fe s
  | .addi x core gd ga imm fe => Sys2Proof.Machine.execAddi x core gd ga imm fe s
  | .andi x core gd ga imm fe => Sys2Proof.Machine.execAndi x core gd ga imm fe s
  | .ori x core gd ga imm fe => Sys2Proof.Machine.execOri x core gd ga imm fe s
  | .xori x core gd ga imm fe => Sys2Proof.Machine.execXori x core gd ga imm fe s
  | .lui x core gd ga imm fe => Sys2Proof.Machine.execLui x core gd ga imm fe s
  | .slti x core gd ga imm fe => Sys2Proof.Machine.execSlti x core gd ga imm fe s
  | .sltiu x core gd ga imm fe => Sys2Proof.Machine.execSltiu x core gd ga imm fe s
  | .lw x core gd ga imm fe de => Sys2Proof.Machine.execLw x core gd ga imm fe de s
  | .lh x core gd ga imm fe de => Sys2Proof.Machine.execLh x core gd ga imm fe de s
  | .lhu x core gd ga imm fe de => Sys2Proof.Machine.execLhu x core gd ga imm fe de s
  | .lb x core gd ga imm fe de => Sys2Proof.Machine.execLb x core gd ga imm fe de s
  | .lbu x core gd ga imm fe de => Sys2Proof.Machine.execLbu x core gd ga imm fe de s
  | .sw x core gd ga imm fe => Sys2Proof.Machine.execSw x core gd ga imm fe s
  | .sh x core gd ga imm fe => Sys2Proof.Machine.execSh x core gd ga imm fe s
  | .sb x core gd ga imm fe => Sys2Proof.Machine.execSb x core gd ga imm fe s
  | .swap x core gd ga gb fe de => Sys2Proof.Machine.execSwap x core gd ga gb fe de s
  | .aadd x core gd ga gb fe de => Sys2Proof.Machine.execAadd x core gd ga gb fe de s
  | .cas x core gd ga gb fe de => Sys2Proof.Machine.execCas x core gd ga gb fe de s
  | .beq x core gd ga imm fe => Sys2Proof.Machine.execBeq x core gd ga imm fe s
  | .bne x core gd ga imm fe => Sys2Proof.Machine.execBne x core gd ga imm fe s
  | .blt x core gd ga imm fe => Sys2Proof.Machine.execBlt x core gd ga imm fe s
  | .bge x core gd ga imm fe => Sys2Proof.Machine.execBge x core gd ga imm fe s
  | .bltu x core gd ga imm fe => Sys2Proof.Machine.execBltu x core gd ga imm fe s
  | .bgeu x core gd ga imm fe => Sys2Proof.Machine.execBgeu x core gd ga imm fe s
  | .j x core imm fe => Sys2Proof.Machine.execJ x core imm fe s
  | .jal x core imm fe => Sys2Proof.Machine.execJal x core imm fe s
  | .jalr x core gd ga imm fe => Sys2Proof.Machine.execJalr x core gd ga imm fe s
  | .chrd x core gd ga imm fe => Sys2Proof.Machine.execChrd x core gd ga imm fe s
  | .chwr x core gd ga imm fe => Sys2Proof.Machine.execChwr x core gd ga imm fe s
  | .loopset x core gd ga imm fe => Sys2Proof.Machine.execLoopset x core gd ga imm fe s
  | .fretset x core gd ga imm fe => Sys2Proof.Machine.execFretset x core gd ga imm fe s
  | .plbeg x core gd ga imm fe => Sys2Proof.Machine.execPlbeg x core gd ga imm fe s
  | .pladd x core gd ga imm fe => Sys2Proof.Machine.execPladd x core gd ga imm fe s
  | .plseal x core gd ga imm fe => Sys2Proof.Machine.execPlseal x core gd ga imm fe s
  | .plarm x core gd ga imm fe => Sys2Proof.Machine.execPlarm x core gd ga imm fe s
  | .plcancel x core gd ga imm fe => Sys2Proof.Machine.execPlcancel x core gd ga imm fe s
  | .calset x core gd ga imm fe => Sys2Proof.Machine.execCalset x core gd ga imm fe s
  | .evfire x core gd ga imm fe => Sys2Proof.Machine.execEvfire x core gd ga imm fe s
  | .evwait x core gd ga imm fe => Sys2Proof.Machine.execEvwait x core gd ga imm fe s
  | .evwaitTimeout x core t => Sys2Proof.Machine.execEvwaitTimeout x core t s
  | .mbpost x core gd ga imm fe => Sys2Proof.Machine.execMbpost x core gd ga imm fe s
  | .mbtake x core gd ga imm fe => Sys2Proof.Machine.execMbtake x core gd ga imm fe s
  | .pegwr x core gd ga imm fe => Sys2Proof.Machine.execPegwr x core gd ga imm fe s
  | .pegrd x core gd ga imm fe => Sys2Proof.Machine.execPegrd x core gd ga imm fe s
  | .tsread x core gd ga imm fe => Sys2Proof.Machine.execTsread x core gd ga imm fe s
  | .fence x core gd ga imm fe => Sys2Proof.Machine.execFence x core gd ga imm fe s
  | .yield x core gd ga imm fe => Sys2Proof.Machine.execYield x core gd ga imm fe s
  | .done x core gd ga imm fe => Sys2Proof.Machine.execDone x core gd ga imm fe s
  | .trap x core gd ga imm fe => Sys2Proof.Machine.execTrap x core gd ga imm fe s
  | .mcall x core gd ga imm fe => Sys2Proof.Machine.execMcall x core gd ga imm fe s
  | .halt x core gd ga imm fe => Sys2Proof.Machine.execHalt x core gd ga imm fe s
  | .mfs x core gd ga imm fe => Sys2Proof.Machine.execMfs x core gd ga imm fe s
  | .mts x core gd ga imm fe => Sys2Proof.Machine.execMts x core gd ga imm fe s
  | .eret x core gd ga imm fe => Sys2Proof.Machine.execEret x core gd ga imm fe s
  | .int x core => Sys2Proof.Machine.execInt x core s
  -- firmware services
  | .dlbegin x core => Sys2Proof.Machine.execDlbegin x core s
  | .dldata x core => Sys2Proof.Machine.execDldata x core s
  | .dlend x core => Sys2Proof.Machine.execDlend x core s
  | .dlabort x core => Sys2Proof.Machine.execDlabort x core s
  | .csetload x core => Sys2Proof.Machine.execCsetload x core s
  | .rtsolve x core us => Sys2Proof.Machine.execRtsolve x core us s
  | .rtbind x core => Sys2Proof.Machine.execRtbind x core s
  | .rtset x core => Sys2Proof.Machine.execRtset x core s
  | .xtload x core => Sys2Proof.Machine.execXtload x core s
  | .xtprop x core => Sys2Proof.Machine.execXtprop x core s
  | .calload x core => Sys2Proof.Machine.execCalload x core s
  | .fltinj x core => Sys2Proof.Machine.execFltinj x core s
  | .fltclr x core => Sys2Proof.Machine.execFltclr x core s
  | .ageprio x core => Sys2Proof.Machine.execAgeprio x core s
  | .flprog x core => Sys2Proof.Machine.execFlprog x core s
  | .fwtry x core => Sys2Proof.Machine.execFwtry x core s
  | .svncommit x core => Sys2Proof.Machine.execSvncommit x core s
  | .keyload x core => Sys2Proof.Machine.execKeyload x core s
  | .dbgunlock x core => Sys2Proof.Machine.execDbgunlock x core s
  | .attest x core => Sys2Proof.Machine.execAttest x core s
  | .evgrp x core => Sys2Proof.Machine.execEvgrp x core s
  -- rings, phrases and registers
  | .ringDbPublish x n prod host => Sys2Proof.Machine.execRingDbPublish x n prod host s
  | .ringDbContinue x n prod host => Sys2Proof.Machine.execRingDbContinue x n prod host s
  | .ringDbFlush x n prod host => Sys2Proof.Machine.execRingDbFlush x n prod host s
  | .ringDbRefused x n prod host => Sys2Proof.Machine.execRingDbRefused x n prod host s
  | .doorbellMirror x => Sys2Proof.Machine.execDoorbellMirror x s
  | .phraseClaim x core t => Sys2Proof.Machine.execPhraseClaim x core t s
  | .claimEntry x core => Sys2Proof.Machine.execClaimEntry x core s
  | .retireEntry x => Sys2Proof.Machine.execRetireEntry x s
  | .phraseKilled x core t => Sys2Proof.Machine.execPhraseKilled x core t s
  | .effectFrameApply t => Sys2Proof.Machine.execEffectFrameApply t s
  | .completionPost x n err => Sys2Proof.Machine.execCompletionPost x n err s
  | .ringCqcfgEnable x n => Sys2Proof.Machine.execRingCqcfgEnable x n s
  | .seqStartGo x v => Sys2Proof.Machine.execSeqStartGo x v s
  | .registerWrite x o v w => Sys2Proof.Machine.execRegisterWrite x o v w s
  | .rcRead x o dbg => Sys2Proof.Machine.execRcRead x o dbg s
  -- loops and tiles
  | .errorRecordSend n t => Sys2Proof.Machine.execErrorRecordSend n t s
  | .errorRecordReceive x n hdr check => Sys2Proof.Machine.execErrorRecordReceive x n hdr check s
  | .recordFetch x n f t => Sys2Proof.Machine.execRecordFetch x n f t s
  | .engineJob x j f t0 ts te bad store => Sys2Proof.Machine.execEngineJob x j f t0 ts te bad store s
  | .codeRecord n x f t => Sys2Proof.Machine.execCodeRecord n x f t s
  | .capoSample n t => Sys2Proof.Machine.execCapoSample n t s
  | .missedCodesHold n t => Sys2Proof.Machine.execMissedCodesHold n t s
  | .codeDeadline n t => Sys2Proof.Machine.execCodeDeadline n t s
  | .frameCodeLoad n t => Sys2Proof.Machine.execFrameCodeLoad n t s
  | .shareStage n x t => Sys2Proof.Machine.execShareStage n x t s
  | .shareAck x n => Sys2Proof.Machine.execShareAck x n s
  | .shareDigest n x => Sys2Proof.Machine.execShareDigest n x s
  | .withdrawRequest n x t => Sys2Proof.Machine.execWithdrawRequest n x t s
  | .withdrawCommit n x => Sys2Proof.Machine.execWithdrawCommit n x s
  | .withdrawRestore n x => Sys2Proof.Machine.execWithdrawRestore n x s
  | .strokeStart n t => Sys2Proof.Machine.execStrokeStart n t s
  | .bowStep n t => Sys2Proof.Machine.execBowStep n t s
  | .settleHoldEnd n t => Sys2Proof.Machine.execSettleHoldEnd n t s
  | .strokeReport x n => Sys2Proof.Machine.execStrokeReport x n s
  | .missedReport x n => Sys2Proof.Machine.execMissedReport x n s
  | .calendarOccurrenceStage x t => Sys2Proof.Machine.execCalendarOccurrenceStage x t s
  | .calendarCycleBoundary x t => Sys2Proof.Machine.execCalendarCycleBoundary x t s
  | .xtSnapshot x t => Sys2Proof.Machine.execXtSnapshot x t s
  | .ffFrame x t => Sys2Proof.Machine.execFfFrame x t s
  | .xtAccumulate x t => Sys2Proof.Machine.execXtAccumulate x t s
  | .xtMselWrite x v => Sys2Proof.Machine.execXtMselWrite x v s
  | .resSenseVisit n bank r t => Sys2Proof.Machine.execResSenseVisit n bank r t s
  | .statusSweepReport n t => Sys2Proof.Machine.execStatusSweepReport n t s
  | .loadFaultDetect n f on t => Sys2Proof.Machine.execLoadFaultDetect n f on t s
  | .tileModeWrite x n v => Sys2Proof.Machine.execTileModeWrite x n v s
  | .tilePbiasWrite x n b v t => Sys2Proof.Machine.execTilePbiasWrite x n b v t s
  | .biasSettleEnd n b t => Sys2Proof.Machine.execBiasSettleEnd n b t s
  | .sampleTrigger n b t => Sys2Proof.Machine.execSampleTrigger n b t s
  | .loadTrigger n g t => Sys2Proof.Machine.execLoadTrigger n g t s
  | .conversionDone n vs t => Sys2Proof.Machine.execConversionDone n vs t s
  | .pickupOpenTest n b capq t => Sys2Proof.Machine.execPickupOpenTest n b capq t s
  | .cathodeLimitTrip n m => Sys2Proof.Machine.execCathodeLimitTrip n m s
  | .thmConversion n r t => Sys2Proof.Machine.execThmConversion n r t s
  | .ditherStep n t => Sys2Proof.Machine.execDitherStep n t s
  | .nullSlotStart n t => Sys2Proof.Machine.execNullSlotStart n t s
  | .nullSlotEnd n t => Sys2Proof.Machine.execNullSlotEnd n t s
  | .hkaScan x sums refBad t => Sys2Proof.Machine.execHkaScan x sums refBad t s
  | .hkaSettled x => Sys2Proof.Machine.execHkaSettled x s
  | .engmapWrite x j v t => Sys2Proof.Machine.execEngmapWrite x j v t s
  | .blockMoveRelease x j => Sys2Proof.Machine.execBlockMoveRelease x j s
  | .engineJobTimeout x e job => Sys2Proof.Machine.execEngineJobTimeout x e job s
  | .katJob x e mac run => Sys2Proof.Machine.execKatJob x e mac run s
  | .engRoleWrite x e v => Sys2Proof.Machine.execEngRoleWrite x e v s
  -- calibration
  | .calCommitClose x t => Sys2Proof.Machine.execCalCommitClose x t s
  | .calCommitApply t => Sys2Proof.Machine.execCalCommitApply t s
  | .calStrokeSample x t => Sys2Proof.Machine.execCalStrokeSample x t s
  | .calTargetSample x t => Sys2Proof.Machine.execCalTargetSample x t s
  -- strings A and B
  | .capoTake x t => Sys2Proof.Machine.execCapoTake x t s
  | .capoSeize x t => Sys2Proof.Machine.execCapoSeize x t s
  | .transferRequest x t => Sys2Proof.Machine.execTransferRequest x t s
  | .transferAccept x => Sys2Proof.Machine.execTransferAccept x s
  | .transferDeassert x t => Sys2Proof.Machine.execTransferDeassert x t s
  | .transferAssert x t => Sys2Proof.Machine.execTransferAssert x t s
  | .transferReassertCheck x t => Sys2Proof.Machine.execTransferReassertCheck x t s
  | .transferComplete x t => Sys2Proof.Machine.execTransferComplete x t s
  | .capoForceFall t => Sys2Proof.Machine.execCapoForceFall t s
  | .capoForceRise => Sys2Proof.Machine.execCapoForceRise s
  | .redCtlReady x t => Sys2Proof.Machine.execRedCtlReady x t s
  | .redCtlJoin x => Sys2Proof.Machine.execRedCtlJoin x s
  | .redCtlTake x => Sys2Proof.Machine.execRedCtlTake x s
  | .redCtlSwap x t => Sys2Proof.Machine.execRedCtlSwap x t s
  | .redCtlDrop x => Sys2Proof.Machine.execRedCtlDrop x s
  | .joinreq x => Sys2Proof.Machine.execJoinreq x s
  | .joinClaimDrain x => Sys2Proof.Machine.execJoinClaimDrain x s
  | .joinBulkState x => Sys2Proof.Machine.execJoinBulkState x s
  | .joinLoopCut x j => Sys2Proof.Machine.execJoinLoopCut x j s
  | .joinBlockCurrent x t => Sys2Proof.Machine.execJoinBlockCurrent x t s
  | .mismatchReport n t => Sys2Proof.Machine.execMismatchReport n t s
  | .verdictTimeout x t => Sys2Proof.Machine.execVerdictTimeout x t s
  | .healthReport x t => Sys2Proof.Machine.execHealthReport x t s
  | .roleSwapDue x t => Sys2Proof.Machine.execRoleSwapDue x t s
  | .partnerResetRequest x t => Sys2Proof.Machine.execPartnerResetRequest x t s
  | .bridgeLinkDown t => Sys2Proof.Machine.execBridgeLinkDown t s
  | .bridgeLinkUp lanes => Sys2Proof.Machine.execBridgeLinkUp lanes s
  | .selfTest x k => Sys2Proof.Machine.execSelfTest x k s
  -- network
  | .telemetrySnapshot x core t => Sys2Proof.Machine.execTelemetrySnapshot x core t s
  | .telemetrySeqMirror x => Sys2Proof.Machine.execTelemetrySeqMirror x s
  | .telemetrySeqTimeout x core t => Sys2Proof.Machine.execTelemetrySeqTimeout x core t s
  | .ethFrameReceive x n frame t => Sys2Proof.Machine.execEthFrameReceive x n frame t s
  | .policerConfigWrite x n k sel v => Sys2Proof.Machine.execPolicerConfigWrite x n k sel v s
  | .arpRequest x => Sys2Proof.Machine.execArpRequest x s
  | .ndSolicitation x => Sys2Proof.Machine.execNdSolicitation x s
  | .echoRequest x => Sys2Proof.Machine.execEchoRequest x s
  | .phrase x t => Sys2Proof.Machine.execPhrase x t s
  | .fenceCmd x t => Sys2Proof.Machine.execFenceCmd x t s
  | .status x t => Sys2Proof.Machine.execStatus x t s
  | .resend x t => Sys2Proof.Machine.execResend x t s
  | .egressPick x n p => Sys2Proof.Machine.execEgressPick x n p s
  | .gclEnable x n nent t => Sys2Proof.Machine.execGclEnable x n nent t s
  | .gclDisable x n nent => Sys2Proof.Machine.execGclDisable x n nent s
  | .gclSwitch x n t => Sys2Proof.Machine.execGclSwitch x n t s
  | .queueSample x n t => Sys2Proof.Machine.execQueueSample x n t s
  | .ethLinkLoss x n t => Sys2Proof.Machine.execEthLinkLoss x n t s
  | .ethLinkUp x n t => Sys2Proof.Machine.execEthLinkUp x n t s
  -- time
  | .refclkLoss x t => Sys2Proof.Machine.execRefclkLoss x t s
  | .refclkReturn x t => Sys2Proof.Machine.execRefclkReturn x t s
  | .timeOffsWrite x v t => Sys2Proof.Machine.execTimeOffsWrite x v t s
  | .partnerTimeSample x t => Sys2Proof.Machine.execPartnerTimeSample x t s
  | .holdoverTimeout x t => Sys2Proof.Machine.execHoldoverTimeout x t s
  | .timeCtlMchg x t => Sys2Proof.Machine.execTimeCtlMchg x t s
  | .timeNsWrite x v t => Sys2Proof.Machine.execTimeNsWrite x v t s
  | .timeNsRead x t => Sys2Proof.Machine.execTimeNsRead x t s
  | .ptpTxTimestamp x port ident t => Sys2Proof.Machine.execPtpTxTimestamp x port ident t s
  | .timeTxidRead x port => Sys2Proof.Machine.execTimeTxidRead x port s
  | .tileTimeUpdate n t => Sys2Proof.Machine.execTileTimeUpdate n t s
  | .toutArm x core v t => Sys2Proof.Machine.execToutArm x core v t s
  | .toutPulse x core t => Sys2Proof.Machine.execToutPulse x core t s
  | .toutPulseEnd x core t => Sys2Proof.Machine.execToutPulseEnd x core t s
  | .tcapEdge x j e t => Sys2Proof.Machine.execTcapEdge x j e t s
  | .timeTcapnsRead x j => Sys2Proof.Machine.execTimeTcapnsRead x j s
  -- events, mailboxes and faults
  | .evtInEdge e => Sys2Proof.Machine.execEvtInEdge e s
  | .relayLatchEmpty x r => Sys2Proof.Machine.execRelayLatchEmpty x r s
  | .evtOutPulseEnd x t => Sys2Proof.Machine.execEvtOutPulseEnd x t s
  | .consumerDeferredAct x k => Sys2Proof.Machine.execConsumerDeferredAct x k s
  | .evfFireWrite x ch => Sys2Proof.Machine.execEvfFireWrite x ch s
  | .evfCstatClear x v => Sys2Proof.Machine.execEvfCstatClear x v s
  | .mbxHpost x k => Sys2Proof.Machine.execMbxHpost x k s
  | .mbxHtake x k => Sys2Proof.Machine.execMbxHtake x k s
  | .mbxK4HeaderRead x k e => Sys2Proof.Machine.execMbxK4HeaderRead x k e s
  | .mbxEprstWrite x v host => Sys2Proof.Machine.execMbxEprstWrite x v host s
  | .endpointReset x => Sys2Proof.Machine.execEndpointReset x s
  | .alvSrcForce x f => Sys2Proof.Machine.execAlvSrcForce x f s
  | .alvHbeat x v t => Sys2Proof.Machine.execAlvHbeat x v t s
  | .heartbeatMiss x t => Sys2Proof.Machine.execHeartbeatMiss x t s
  | .aliveToggle x => Sys2Proof.Machine.execAliveToggle x s
  -- power
  | .powerUp t => Sys2Proof.Machine.execPowerUp t s
  | .brownOut t => Sys2Proof.Machine.execBrownOut t s
  | .surgeShutdown t => Sys2Proof.Machine.execSurgeShutdown t s
  | .vinOutOfRange x t => Sys2Proof.Machine.execVinOutOfRange x t s
  | .railWindowFault x ch out => Sys2Proof.Machine.execRailWindowFault x ch out s
  | .powerStageFault r => Sys2Proof.Machine.execPowerStageFault r s
  | .avsTick t => Sys2Proof.Machine.execAvsTick t s
  | .sensorConversion x core v => Sys2Proof.Machine.execSensorConversion x core v s
  | .throttleTick x stg t => Sys2Proof.Machine.execThrottleTick x stg t s
  | .thermalTrip stg => Sys2Proof.Machine.execThermalTrip stg s
  | .pwrCtlRailon x => Sys2Proof.Machine.execPwrCtlRailon x s
  | .pwrReqWrite x core v => Sys2Proof.Machine.execPwrReqWrite x core v s
  -- resets, boot and debug
  | .wake t => Sys2Proof.Machine.execWake t s
  | .marginPlannerRun x t => Sys2Proof.Machine.execMarginPlannerRun x t s
  | .warmReset x flr t => Sys2Proof.Machine.execWarmReset x flr t s
  | .stringReset x t => Sys2Proof.Machine.execStringReset x t s
  | .watchdogReset x t => Sys2Proof.Machine.execWatchdogReset x t s
  | .partnerRequestedReset x t => Sys2Proof.Machine.execPartnerRequestedReset x t s
  | .tileReset x mask => Sys2Proof.Machine.execTileReset x mask s
  | .engineReset x e => Sys2Proof.Machine.execEngineReset x e s
  | .bootImageCheck x faults t => Sys2Proof.Machine.execBootImageCheck x faults t s
  | .hoursIncrement x => Sys2Proof.Machine.execHoursIncrement x s
  | .epochRetry x t => Sys2Proof.Machine.execEpochRetry x t s
  | .tileFailed x j => Sys2Proof.Machine.execTileFailed x j s
  | .dbgCtlHalt x core on => Sys2Proof.Machine.execDbgCtlHalt x core on s
  | .dbgCtlStep x core host => Sys2Proof.Machine.execDbgCtlStep x core host s
  | .dbgDataRead x => Sys2Proof.Machine.execDbgDataRead x s
  | .dbgDataWrite x v => Sys2Proof.Machine.execDbgDataWrite x v s
  | .bar2HostWrite x a v => Sys2Proof.Machine.execBar2HostWrite x a v s
  -- messages between strings and tiles
  | .withdrawReply x n => Sys2Proof.Machine.execWithdrawReply x n s
  | .withdrawAck x n => Sys2Proof.Machine.execWithdrawAck x n s
  | .joinReply x => Sys2Proof.Machine.execJoinReply x s
  | .joinRetry x t => Sys2Proof.Machine.execJoinRetry x t s
  | .tileConditionReport x ns => Sys2Proof.Machine.execTileConditionReport x ns s
  | .partnerRecordRequest x => Sys2Proof.Machine.execPartnerRecordRequest x s
  | .postedMark x => Sys2Proof.Machine.execPostedMark x s
  | .bridgeHeartbeat x h => Sys2Proof.Machine.execBridgeHeartbeat x h s
  | .engineDomainFault x e => Sys2Proof.Machine.execEngineDomainFault x e s
  | .operationOutcome x => Sys2Proof.Machine.execOperationOutcome x s

end Sys2Proof.Machine
end

