-- ==== Sys2Proof/Machine/Tick.lean ====
section
/-! DEFINITION. What the clock does when no command waits (log entry 26). -/

namespace Sys2Proof.Machine

/-- Time goes on to the next multiple of 80 us of true time. -/
def State.tick (s : State) : State := s.advance (ceilTo StringSt.slowT (s.now + 1))

end Sys2Proof.Machine
end

