-- ==== Sys2Proof/WellFormed.lean ====
section
/-! DEFINITION. Which commands are well formed: their operands are such as the spec lets come from outside. A command that is not faults as
malformed; whether a well-formed one finds what it needs in the state is its meaning's concern. -/

namespace Sys2Proof

/-- A command's operands lie in their ranges, where their types do not say so: one instant for each of the 32 loops of a block
(08_loops.md R203), a result for each of the twelve channels of the housekeeping ADC (06_pickups_adc.md R167), pickups, channels, return
groups, banks and cores that exist. -/
def Instr.wf : Instr → Bool
  | .engineJob _ _ _ _ ts _ _ _ => decide (ts.length = 32)
  | .hkaScan _ sums _ _ => decide (sums.length = 12)
  | .conversionDone _ vs _ => vs.all Conv.ok
  | .loadFaultDetect _ f _ _ => f.ok
  | .selfTest _ k => k.ok
  | _ => true

end Sys2Proof
end

