-- ==== Sys2Proof/Safety.lean ====
section
/-! DEFINITION. What counts as a safe run of the block, and the terms that statements use. -/

namespace Sys2Proof.Machine

/-- A memory is in its canonical form: addresses rise strictly, and no entry equals what an unlisted address reads as. -/
def Mem.wf (m : Mem) : Bool := Tab.wf zeroByte m

/-- The SRAM of both strings and the host memory are in canonical form. -/
def State.memWf (s : State) : Bool := Mem.wf s.a.sram && Mem.wf s.b.sram && Mem.wf s.hostMem

/-- The register tables of both strings, and the register and channel tables of every tile, are in canonical form: offsets and channels
rise strictly, and no entry equals what an unlisted one reads as. -/
def State.tabWf (s : State) : Bool :=
  Tab.wf (coldWord s.a.id) s.a.regs && Tab.wf (coldWord s.b.id) s.b.regs &&
    (List.range 8).all fun n => Tab.wf coldTile (s.tile n).regs && Tab.wf (fun _ => Chan.cold) (s.tile n).chans

/-- Every command that waits is well formed. -/
def State.queueWf (s : State) : Bool := s.pending.all Instr.wf

/-- A step is safe where it answers a next state. -/
def State.safeStep (s : State) : Prop := ∃ t, step s = .next t

/-! ## A core that runs an instruction -/

/-- Core `i` of string `x` runs and its fetch meets no fault: it may run (R81, R449), the address space holds its PC, in a domain that is on
(R34, R37), its level may fetch there (R45), and a word of SRAM meets no uncorrectable error (R70). -/
def State.ready (s : State) (x : Str) (i : Nat) (fe : Ecc) : Prop :=
  let c := s.str x
  let k := c.core i
  c.mayRun i false = true ∧ s.assigned x k.pc.toNat = true ∧ c.fetchPerm k k.pc.toNat = true ∧ (k.pc.toNat < 0x02000000 → fe ≠ .double)

/-- The state after the fetch: a corrected error of the word is counted and reported (R70, R300). -/
def State.fetched (s : State) (x : Str) (i : Nat) (fe : Ecc) : State :=
  let a := ((s.str x).core i).pc.toNat
  if a < 0x02000000 then s.updStr x fun c => c.eccMeets a fe else s

/-- Core `i` completes its instruction with `v` in gd (R39, R55). -/
def State.completes (s : State) (x : Str) (i : Nat) (gd : BitVec 5) (v : Word) : State :=
  s.updStr x fun c => c.finish i gd.toNat v.toNat

/-- Core `i` completes its instruction and goes to `a` (R54). -/
def State.goes (s : State) (x : Str) (i : Nat) (a : Word) : State := s.updStr x fun c => c.jumpTo i a.toNat

/-- What trap entry makes of the core `k`: `j` (R69, R71). A monitor call, and a trap at monitor level or at firmware level with TF
set, go to the secure monitor; every other one goes to firmware. -/
def CoreSt.entered (k j : CoreSt) (code info bad : Nat) (nf : Bool) (epc : Word) : Prop :=
  let cause := BitVec.ofNat 32 (code + 256 * k.pl + 1024 * b2n k.sec + 2048 * b2n nf + 4096 * (info % 1024))
  let mon := code = tMCALL ∨ k.pl = 0 ∨ (k.pl = 1 ∧ k.tf = true)
  j.run = .running ∧ j.wait = .idle ∧ j.ie = false ∧
    (mon → j.pc = k.tvecSm ∧ j.epcSm = epc ∧ j.causeSm = cause ∧ j.badSm = BitVec.ofNat 32 bad ∧ j.pl = 0 ∧ j.sec = true ∧
      j.ts = true ∧ j.ppl true = k.pl ∧ j.tf = k.tf ∧ j.ppl false = k.ppl false ∧
      { j with
        pc := k.pc
        status := k.status
        epcSm := k.epcSm
        causeSm := k.causeSm
        badSm := k.badSm
        run := k.run
        wait := k.wait } = k) ∧
    (¬mon → j.pc = k.tvecFw ∧ j.epcFw = epc ∧ j.causeFw = cause ∧ j.badFw = BitVec.ofNat 32 bad ∧ j.pl = 1 ∧ j.sec = false ∧
      j.tf = true ∧ j.ppl false = k.pl ∧ j.ts = k.ts ∧ j.ppl true = k.ppl true ∧
      { j with
        pc := k.pc
        status := k.status
        epcFw := k.epcFw
        causeFw := k.causeFw
        badFw := k.badFw
        run := k.run
        wait := k.wait } = k)

/-- The service of core `i` answers status `st` (R452): firmware resumes the phrase with it; where the status is the active string's
(`out`), the standby waits for it and the active string sends it (R58). -/
def State.answers (s : State) (x : Str) (i : Nat) (out : Bool) (st : Nat) : State :=
  let t := s.resumePhrase x i st
  if out then t.updStr x fun c => if c.follows i then c.awaitStatus i st else c.sendOutcome i ⟨st, 0, 0, false⟩ else t

/-! ## Messages, and what a command leaves as it was -/

/-- `m` is the oldest element of `l` that `p` accepts, and `rest` is the list without it. -/
def oldest {α : Type} (p : α → Prop) (l : List α) (m : α) (rest : List α) : Prop :=
  ∃ u v, l = u ++ m :: v ∧ rest = u ++ v ∧ p m ∧ ∀ q ∈ u, ¬p q

/-- The ring of a doorbell's copy (R84). -/
def BMsg.doorbellOf : BMsg → Option Nat
  | .doorbell n .. => some n
  | _ => none

/-- A retire entry (R87). -/
def BMsg.isRetire : BMsg → Bool
  | .retire .. => true
  | _ => false

/-- `d` is `c` but for the registers at the offsets `l`. -/
def StringSt.regsBut (c d : StringSt) (l : List Nat) : Prop := { d with regs := c.regs } = c ∧ ∀ o, o ∉ l → d.rd o = c.rd o

/-- `d` is `c` with the counter `f` of the register at `o` raised by `k` up to its top, and its other fields as they were. -/
def StringSt.counts (c d : StringSt) (o : Nat) (f : Fld) (k : Nat) : Prop :=
  c.regsBut d [o] ∧ d.rd o = putBits (c.rd o) f.lo f.w (min (2 ^ f.w - 1) (c.fld o f + k))

/-- The same of a register of a tile. -/
def TileSt.regsBut (c d : TileSt) (l : List Nat) : Prop := { d with regs := c.regs } = c ∧ ∀ o, o ∉ l → d.rd o = c.rd o

/-- The partner of `x` has sent `m`, the oldest message of those that `p` accepts, and `rest` is what then waits on the link. -/
def State.incoming (s : State) (x : Str) (p : BMsg → Prop) (m : BMsg) (rest : List BMsg) : Prop := oldest p (s.str x.other).outbox m rest

end Sys2Proof.Machine
end

