-- ==== Sys2Proof/Certificates/Slice0/Obligations.lean ====
section
/-! DEFINITION. The statements: each says of some commands, or of the machine, what the rules of the spec say of them. -/

open Sys2Proof Sys2Proof.Machine

/-- For every state whose queue is not empty, step is exec of the command at the front of the queue on the state with the
queue's rest. -/
def Obligations.StepRunsFrontCommand : Prop :=
  ∀ (s : State) (c : Instr) (q : List Instr), s.pending = c :: q → step s = exec c { s with pending := q }

/-- Where no command waits, step answers the state advanced to the next multiple of 80 us of true time, and nothing else
happens. This is the model's own choice (log entry 26), no rule of the spec. -/
def Obligations.IdleStepAdvancesTime : Prop :=
  ∀ s : State, s.pending = [] → step s = .next (s.advance ((s.now / 5242880000 + 1) * 5242880000))

/-- For every command and every state: exec answers a next state if the command is well formed, and the fault malformed if it
is not. No command is refused. (The form of the operands is the model's, log entry 31.) -/
def Obligations.WellFormedCommandsNeverStop : Prop :=
  ∀ (c : Instr) (s : State), (c.wf = true → ∃ t, exec c s = .next t) ∧ (c.wf = false → exec c s = .fault .malformed)

/-- For every command and state, if exec answers a next state then the queue of commands that wait is what it was. -/
def Obligations.CommandsKeepQueue : Prop :=
  ∀ (c : Instr) (s t : State), exec c s = .next t → t.pending = s.pending

/-- From every state in which the SRAM of both strings and the host memory are in canonical form (addresses rising, no entry
equal to what an unlisted byte reads as), a step that answers a next state answers one in which they are. -/
def Obligations.StepKeepsMemoryForm : Prop :=
  ∀ s t : State, s.memWf = true → step s = .next t → t.memWf = true

/-- From every state in which the register tables of both strings and the register and channel tables of every tile are in
canonical form (keys rising, no entry equal to what an unlisted key reads as), a step that answers a next state answers one in
which they are. Statements that take the canonical form of one of these tables as a premise rest on this one for the states
that a run reaches. -/
def Obligations.StepKeepsTableForm : Prop :=
  ∀ s t : State, s.tabWf = true → step s = .next t → t.tabWf = true

/-- After the cold reset the memories and the tables of registers and channels are in canonical form, both strings are in BOOT
with their lines deasserted, core 0 of each string runs at 0x7F00_0000 at monitor level and cores 1 to 3 are not released,
every tile is in tile hold and follows no string, GEN_RSTCAUSE is 1 (POR), RED_CFG.TAKEDLY is 0 in string A and 10 in string
B, configuration key slot 0 of each string is VALID with ADMIN and DESC and no other key slot is, and no command waits. -/
def Obligations.ResetLeaves : Prop :=
  State.reset.memWf = true ∧ State.reset.tabWf = true ∧ State.reset.queueWf = true ∧ State.reset.pending = [] ∧ State.reset.capo = none ∧
    (∀ x : Str, let c := State.reset.str x
      c.role = rBOOT ∧ c.red.line = false ∧ c.rd Reg.GEN_RSTCAUSE = 1 ∧
        c.fld Reg.RED_CFG F.RED_CFG.TAKEDLY = (if x = .a then 0 else 10) ∧ bits c.secKeys 0 16 = 1 ∧ c.keySlot 0 = 0x301 ∧
        (c.core 0).pc = 0x7F000000 ∧ (c.core 0).run = .running ∧ (c.core 0).pl = 0 ∧ (c.core 0).sec = true ∧
        ∀ i : Nat, 0 < i → i < 4 → (c.core i).run = .notReleased ∧ (c.core i).pc = 0x7F000100) ∧
    ∀ n : Nat, n < 8 → (State.reset.tile n).hold = true ∧ (State.reset.tile n).capo = none

/-- For every instruction with every operand, the decoder reads from its word that instruction; and a word that the decoder
reads as an instruction is the word of that instruction. -/
def Obligations.QuinliWordsRoundTrip : Prop :=
  (∀ n : Insn, decodeInsn (encodeInsn n) = some n) ∧ ∀ (w : BitVec 32) (n : Insn), decodeInsn w = some n → encodeInsn n = w

/-- Words written out field by field from R47, R48, R49, R53 and R59 decode to the instructions they stand for: ADD g1 g2 g3,
CLZ, ADDI with -1, LUI, SW, BEQ, J, JAL, CAS, CHWR, PLARM, TSREAD, MCALL (TRAP with imm10[9] set) and ERET; an op, func or sub
that is not assigned decodes to nothing. -/
def Obligations.QuinliWordsDecode : Prop :=
  decodeInsn 0b00000000001000100001100000000001#32 = some (.alu .add 1 2 3) ∧
  decodeInsn 0b00000000001000100000000000010111#32 = some (.alu .clz 1 2 0) ∧
  decodeInsn 0b00000100001000101111111111111111#32 = some (.imm .addi 1 2 0xFFFF) ∧
  decodeInsn 0b00010100001000001000000000000001#32 = some (.imm .lui 1 0 0x8001) ∧
  decodeInsn 0b00110111111111100000000000000100#32 = some (.imm .sw 31 30 4) ∧
  decodeInsn 0b01000000001000100000000000000010#32 = some (.imm .beq 1 2 2) ∧
  decodeInsn 0b01100011111111111111111111111111#32 = some (.jump false 0x3FFFFFF) ∧
  decodeInsn 0b01100100000000000000000000000001#32 = some (.jump true 1) ∧
  decodeInsn 0b01011100001000100001100000000011#32 = some (.atom .cas 1 2 3) ∧
  decodeInsn 0b10000000001000100000010000000101#32 = some (.dev .chwr 1 2 5) ∧
  decodeInsn 0b10001000001000100000110011111111#32 = some (.dev .plarm 1 2 0xFF) ∧
  decodeInsn 0b10011000001000100000000000000010#32 = some (.dev .tsread 1 2 2) ∧
  decodeInsn 0b10011100000000000000111000000001#32 = some (.dev .trap 0 0 0x201) ∧
  decodeInsn 0b10100000000000000000100000000000#32 = some (.dev .eret 0 0 0) ∧
  decodeInsn 0#32 = none ∧ decodeInsn 0b01101000000000000000000000000000#32 = none ∧
  decodeInsn 0b10010100001000100000100000000000#32 = none

/-- A core that completes an instruction with a value in gd: its PC is 4 further, it runs and waits for nothing; gd reads the
value unless it is g0, which reads 0 still; its other general registers, its STATUS, PHRASE, saved and monitor registers are
what they were; the other cores, every register of the string, its SRAM, pegs and time are what they were; and at phrase
level, and there only, the count of its phrase is one higher. -/
def Obligations.CompletionFrame : Prop :=
  ∀ (c : StringSt) (i gd : Nat) (v : Word), gd < 32 →
    let t := c.finish i gd v.toNat
    let k := c.core i
    let j := t.core i;
    j.pc = k.pc + 4 ∧ j.run = .running ∧ j.wait = .idle ∧ j.reg 0 = 0 ∧ (gd ≠ 0 → j.reg gd = v.toNat) ∧
      (∀ r, r ≠ gd → j.reg r = k.reg r) ∧ { j with g := k.g, pc := k.pc, run := k.run, wait := k.wait } = k ∧
      (∀ n, n ≠ i → t.core n = c.core n) ∧ { t with cores := c.cores, ring := c.ring } = c ∧
      (k.pl ≠ 2 → t.ring = c.ring) ∧
      (k.pl = 2 → ∀ f, c.flight k.ring = some f → ∃ f', t.flight k.ring = some f' ∧ f'.count = f.count + 1 ∧
        f'.fpc = StringSt.phraseOff k.ring f.slot k.pc.toNat ∧ { f' with count := f.count, fpc := f.fpc } = f) ∧
      ∀ r, r ≠ k.ring → t.flight r = c.flight r

/-- On a core that runs and fetches without a fault, ADD, SUB, AND, OR, XOR, SLL, SRL, SRA, SLT, SLTU, MUL, MULH, MULHU, SLLI,
SRLI, SRAI, MIN, MAX and CLZ with its gb field 0 complete with the result of R49 in gd, each result stated as integer
arithmetic; DIV, DIVU, REM and REMU complete with the signed or unsigned quotient or remainder for every divisor but 0; a CLZ
whose gb field is not 0 takes ILLEGAL. Nothing else changes. -/
def Obligations.AluGroupResults : Prop :=
  ∀ (s : State) (x : Str) (i : Fin 4) (gd ga gb : BitVec 5) (fe : Ecc), s.ready x i fe →
    let u := s.fetched x i fe
    let k := (u.str x).core i
    let A := k.g32 ga
    let B := k.g32 gb
    let n := gb.toNat
    let gives := fun (c : Instr) (v : Word) => exec c s = .next (u.completes x i gd v);
    gives (.add x i gd ga gb fe) (BitVec.ofNat 32 (A.toNat + B.toNat)) ∧
    gives (.sub x i gd ga gb fe) (BitVec.ofInt 32 ((A.toNat : Int) - (B.toNat : Int))) ∧
    gives (.and x i gd ga gb fe) (A &&& B) ∧
    gives (.or x i gd ga gb fe) (A ||| B) ∧
    gives (.xor x i gd ga gb fe) (A ^^^ B) ∧
    gives (.sll x i gd ga gb fe) (BitVec.ofNat 32 (A.toNat * 2 ^ (B.toNat % 32))) ∧
    gives (.srl x i gd ga gb fe) (BitVec.ofNat 32 (A.toNat / 2 ^ (B.toNat % 32))) ∧
    gives (.sra x i gd ga gb fe) (BitVec.ofInt 32 (A.toInt / 2 ^ (B.toNat % 32))) ∧
    gives (.slt x i gd ga gb fe) (if A.toInt < B.toInt then 1 else 0) ∧
    gives (.sltu x i gd ga gb fe) (if A.toNat < B.toNat then 1 else 0) ∧
    gives (.mul x i gd ga gb fe) (BitVec.ofNat 32 (A.toNat * B.toNat)) ∧
    gives (.mulh x i gd ga gb fe) (BitVec.ofInt 32 (A.toInt * B.toInt / 4294967296)) ∧
    gives (.mulhu x i gd ga gb fe) (BitVec.ofNat 32 (A.toNat * B.toNat / 4294967296)) ∧
    gives (.slli x i gd ga gb fe) (BitVec.ofNat 32 (A.toNat * 2 ^ n)) ∧
    gives (.srli x i gd ga gb fe) (BitVec.ofNat 32 (A.toNat / 2 ^ n)) ∧
    gives (.srai x i gd ga gb fe) (BitVec.ofInt 32 (A.toInt / 2 ^ n)) ∧
    gives (.min x i gd ga gb fe) (BitVec.ofInt 32 (min A.toInt B.toInt)) ∧
    gives (.max x i gd ga gb fe) (BitVec.ofInt 32 (max A.toInt B.toInt)) ∧
    (gb = 0 → gives (.clz x i gd ga gb fe) (BitVec.ofNat 32 (if A = 0 then 32 else 31 - Nat.log2 A.toNat))) ∧
    (gb ≠ 0 → exec (.clz x i gd ga gb fe) s = .next (u.fault x i ⟨tILLEGAL, 0, 0⟩)) ∧
    (B ≠ 0 → gives (.div x i gd ga gb fe) (BitVec.ofInt 32 (A.toInt.tdiv B.toInt)) ∧
      gives (.divu x i gd ga gb fe) (BitVec.ofNat 32 (A.toNat / B.toNat)) ∧
      gives (.rem x i gd ga gb fe) (BitVec.ofInt 32 (A.toInt.tmod B.toInt)) ∧
      gives (.remu x i gd ga gb fe) (BitVec.ofNat 32 (A.toNat % B.toNat)))

/-- On a core that runs and fetches without a fault, DIV and DIVU by 0 complete with 0xFFFF_FFFF and REM and REMU by 0 with
ga; DIV of 0x8000_0000 by 0xFFFF_FFFF completes with 0x8000_0000 and REM with 0. A divisor of another value completes too
(AluGroupResults), so that no division ever traps. -/
def Obligations.DivisionNeverTraps : Prop :=
  ∀ (s : State) (x : Str) (i : Fin 4) (gd ga gb : BitVec 5) (fe : Ecc), s.ready x i fe →
    let u := s.fetched x i fe
    let k := (u.str x).core i
    let gives := fun (c : Instr) (v : Word) => exec c s = .next (u.completes x i gd v);
    (k.g32 gb = 0 → gives (.div x i gd ga gb fe) 0xFFFFFFFF ∧ gives (.divu x i gd ga gb fe) 0xFFFFFFFF ∧
      gives (.rem x i gd ga gb fe) (k.g32 ga) ∧ gives (.remu x i gd ga gb fe) (k.g32 ga)) ∧
    (k.g32 ga = 0x80000000 → k.g32 gb = 0xFFFFFFFF →
      gives (.div x i gd ga gb fe) 0x80000000 ∧ gives (.rem x i gd ga gb fe) 0) ∧
    ∃ v w y z, gives (.div x i gd ga gb fe) v ∧ gives (.divu x i gd ga gb fe) w ∧ gives (.rem x i gd ga gb fe) y ∧
      gives (.remu x i gd ga gb fe) z

/-- On a core that runs and fetches without a fault, ADDI, ANDI, ORI, XORI, SLTI, SLTIU, and LUI with its ga field 0, complete
with the result of R51 in gd; a LUI whose ga field is not 0 takes ILLEGAL. Nothing else changes. -/
def Obligations.ImmediateGroupResults : Prop :=
  ∀ (s : State) (x : Str) (i : Fin 4) (gd ga : BitVec 5) (imm : BitVec 16) (fe : Ecc), s.ready x i fe →
    let u := s.fetched x i fe
    let A := ((u.str x).core i).g32 ga
    let gives := fun (c : Instr) (v : Word) => exec c s = .next (u.completes x i gd v);
    gives (.addi x i gd ga imm fe) (BitVec.ofInt 32 (A.toInt + imm.toInt)) ∧
    gives (.andi x i gd ga imm fe) (A &&& BitVec.ofNat 32 imm.toNat) ∧
    gives (.ori x i gd ga imm fe) (A ||| BitVec.ofNat 32 imm.toNat) ∧
    gives (.xori x i gd ga imm fe) (A ^^^ BitVec.ofNat 32 imm.toNat) ∧
    gives (.slti x i gd ga imm fe) (if A.toInt < imm.toInt then 1 else 0) ∧
    gives (.sltiu x i gd ga imm fe) (if A.toNat < (BitVec.ofInt 32 imm.toInt).toNat then 1 else 0) ∧
    (ga = 0 → gives (.lui x i gd ga imm fe) (BitVec.ofNat 32 (imm.toNat * 65536))) ∧
    (ga ≠ 0 → exec (.lui x i gd ga imm fe) s = .next (u.fault x i ⟨tILLEGAL, 0x05, 0⟩))

/-- On a core that runs and fetches without a fault, LW, LH, LHU, LB and LBU of an aligned address that meets no error
complete. From SRAM gd takes the 4, 2 or 1 bytes at the address, least significant first, sign-extended for LH and LB and
zero-extended otherwise, a corrected error of the word being counted first (R70); in a phrase the calibration record reads as
the commits before the phrase in the command order leave it. From register space, where only LW meets no error, gd takes what
the load of the register returns and the register does what its load does; a load of RING_CLAIM that claims a phrase loads
PHRASE and PHSEQ too and completes all the same. From the boot ROM gd takes the ROM's bytes. An uncorrectable error of the
word takes ECC. -/
def Obligations.LoadsComplete : Prop :=
  ∀ (s : State) (x : Str) (i : Fin 4) (gd ga : BitVec 5) (imm : BitVec 16) (fe de : Ecc), s.ready x i fe →
    let u := s.fetched x i fe
    let k := (u.str x).core i
    let a := (k.g32 ga + BitVec.ofInt 32 imm.toInt).toNat;
    ∀ c ∈ [(Instr.lw x i gd ga imm fe de, 4, false, 0x08), (.lh x i gd ga imm fe de, 2, true, 0x09),
        (.lhu x i gd ga imm fe de, 2, false, 0x0A), (.lb x i gd ga imm fe de, 1, true, 0x0B), (.lbu x i gd ga imm fe de, 1, false, 0x0C)],
      a % c.2.1 = 0 → u.meets x k i a c.2.1 none = .fine →
      (a < 0x02000000 → let w := u.updStr x fun d => d.eccMeets a de
        (de ≠ .double → exec c.1 s = .next (w.completes x i gd
          (let v := (State.loadView (w.str x) i a).sram.read a c.2.1
          if c.2.2.1 then BitVec.ofInt 32 (sx (8 * c.2.1) v) else BitVec.ofNat 32 v))) ∧
        (de = .double → exec c.1 s = .next (w.fault x i ⟨tECC, c.2.2.2, a⟩))) ∧
      (0x40000000 ≤ a → a < 0x40040000 → let p := u.loadReg x (a - 0x40000000) (k.agent i)
        exec c.1 s = .next (p.2.completes x i gd (BitVec.ofNat 32 p.1))) ∧
      (0x7F000000 ≤ a → let v := leNat ((upFrom (a % 0x20000) c.2.1).map Config.romByte)
        exec c.1 s = .next (u.completes x i gd (if c.2.2.1 then BitVec.ofInt 32 (sx (8 * c.2.1) v) else BitVec.ofNat 32 v)))

/-- On a core that runs and fetches without a fault, SW, SH and SB to an aligned address that meets no error complete: the
core goes to the next instruction, and in SRAM the 4, 2 or 1 bytes at the address take the low bytes of gd, least significant
first, so that every byte outside them reads as before; in register space the register takes the store as it takes a store of
this core. -/
def Obligations.StoresComplete : Prop :=
  ∀ (s : State) (x : Str) (i : Fin 4) (gd ga : BitVec 5) (imm : BitVec 16) (fe : Ecc), s.ready x i fe →
    let u := s.fetched x i fe
    let k := (u.str x).core i
    let a := (k.g32 ga + BitVec.ofInt 32 imm.toInt).toNat
    let w := u.updStr x fun d => d.stepCore i;
    ∀ c ∈ [(Instr.sw x i gd ga imm fe, 4), (.sh x i gd ga imm fe, 2), (.sb x i gd ga imm fe, 1)],
      let v := (k.g32 gd).toNat % 2 ^ (8 * c.2);
      a % c.2 = 0 → u.meets x k i a c.2 (some v) = .fine →
      (a < 0x02000000 → ∃ t, exec c.1 s = .next t ∧ (t.str x).sram.read a c.2 = v ∧
        (∀ b, (b < a ∨ a + c.2 ≤ b) → (t.str x).sram.byte b = (u.str x).sram.byte b) ∧
        t = w.updStr x fun d => { d with sram := (t.str x).sram }) ∧
      (0x40000000 ≤ a → a < 0x40040000 →
        exec c.1 s = .next (w.storeReg x (a - 0x40000000) v (((w.str x).core i).agent i)))

/-- On a core that runs and fetches without a fault, SWAP, AADD and CAS of an aligned SRAM address that the core may write
complete with the old word in gd; the word at the address becomes gb, the old word plus gb, or, only where it equalled gd
before, gb; every byte outside the word reads as before. An uncorrectable error of the word takes ECC and nothing is written;
a misaligned address takes ALIGN, an address the core may not write PRIV, and an address outside SRAM BUSERR (the boot ROM
PRIV). -/
def Obligations.AtomicsComplete : Prop :=
  ∀ (s : State) (x : Str) (i : Fin 4) (gd ga gb : BitVec 5) (fe de : Ecc), s.ready x i fe →
    let u := s.fetched x i fe
    let k := (u.str x).core i
    let a := (k.g32 ga).toNat
    let w := u.updStr x fun d => d.eccMeets a de
    let old := BitVec.ofNat 32 ((w.str x).sram.word a);
    ∀ c ∈ [(Instr.swap x i gd ga gb fe de, k.g32 gb), (.aadd x i gd ga gb fe de, old + k.g32 gb),
        (.cas x i gd ga gb fe de, if old = k.g32 gd then k.g32 gb else old)],
      (a % 4 ≠ 0 → exec c.1 s = .next (u.fault x i ⟨tALIGN, 0x17, a⟩)) ∧
      (a % 4 = 0 → a < 0x02000000 →
        let m := (u.str x).buffer k.pl k.sec true a 4;
        (m = .priv → exec c.1 s = .next (u.fault x i ⟨tPRIV, 0x17, a⟩)) ∧
        (m = .buserr → exec c.1 s = .next (u.fault x i ⟨tBUSERR, 0x17, a⟩)) ∧
        (m = .fine → de = .double → exec c.1 s = .next (w.fault x i ⟨tECC, 0x17, a⟩)) ∧
        (m = .fine → de ≠ .double → ∃ t, exec c.1 s = .next (t.completes x i gd old) ∧
          (t.str x).sram.word a = c.2.toNat ∧ (∀ b, (b < a ∨ a + 4 ≤ b) → (t.str x).sram.byte b = (w.str x).sram.byte b) ∧
          t = w.updStr x fun d => { d with sram := (t.str x).sram })) ∧
      (a % 4 = 0 → 0x02000000 ≤ a → exec c.1 s = .next (u.fault x i
        ⟨if 0x7F000000 ≤ a ∧ a < 0x7F020000 then tPRIV else tBUSERR, 0x17, a⟩))

/-- On a core that runs and fetches without a fault, BEQ, BNE, BLT, BGE, BLTU and BGEU go to PC + 4 + 4 sext(imm16) where
their condition on gd and ga holds and to PC + 4 where it does not; J goes to PC + 4 + 4 sext(imm26); JAL goes there with PC +
4 in g31; JALR with an aligned target ga + sext(imm16) goes there with PC + 4 in gd, the target being that of ga before gd is
written, and takes ALIGN with the target in BAD where it is not aligned. -/
def Obligations.BranchesAndJumpsGo : Prop :=
  ∀ (s : State) (x : Str) (i : Fin 4) (gd ga : BitVec 5) (imm : BitVec 16) (im : BitVec 26) (fe : Ecc), s.ready x i fe →
    let u := s.fetched x i fe
    let k := (u.str x).core i
    let D := k.g32 gd
    let A := k.g32 ga
    let t := k.pc + 4 + BitVec.ofInt 32 (4 * im.toInt)
    let r := A + BitVec.ofInt 32 imm.toInt
    let link := fun (w : State) (n : Nat) => w.updStr x fun c => c.updCore i fun j => j.setReg n (k.pc + 4).toNat;
    (∀ c ∈ [(Instr.beq x i gd ga imm fe, decide (D = A)), (.bne x i gd ga imm fe, decide (D ≠ A)),
        (.blt x i gd ga imm fe, decide (D.toInt < A.toInt)), (.bge x i gd ga imm fe, decide (A.toInt ≤ D.toInt)),
        (.bltu x i gd ga imm fe, decide (D.toNat < A.toNat)), (.bgeu x i gd ga imm fe, decide (A.toNat ≤ D.toNat))],
      exec c.1 s = .next (u.goes x i (if c.2 then k.pc + 4 + BitVec.ofInt 32 (4 * imm.toInt) else k.pc + 4))) ∧
    exec (.j x i im fe) s = .next (u.goes x i t) ∧
    exec (.jal x i im fe) s = .next (link (u.goes x i t) 31) ∧
    (r.toNat % 4 = 0 → exec (.jalr x i gd ga imm fe) s = .next (link (u.goes x i r) gd.toNat)) ∧
    (r.toNat % 4 ≠ 0 → exec (.jalr x i gd ga imm fe) s = .next (u.fault x i ⟨tALIGN, 0x16, r.toNat⟩))

/-- On a core that runs and fetches without a fault, a load or store whose address is not a multiple of its size takes ALIGN,
one that meets a bus error takes BUSERR and one that is not permitted takes PRIV, each with the address in BAD and the op in
INFO, and with no other effect. -/
def Obligations.LoadsAndStoresTrap : Prop :=
  ∀ (s : State) (x : Str) (i : Fin 4) (gd ga : BitVec 5) (imm : BitVec 16) (fe de : Ecc), s.ready x i fe →
    let u := s.fetched x i fe
    let k := (u.str x).core i
    let a := (k.g32 ga + BitVec.ofInt 32 imm.toInt).toNat
    let d := (k.g32 gd).toNat;
    ∀ c ∈ [(Instr.lw x i gd ga imm fe de, 4, none, 0x08), (.lh x i gd ga imm fe de, 2, none, 0x09),
        (.lhu x i gd ga imm fe de, 2, none, 0x0A), (.lb x i gd ga imm fe de, 1, none, 0x0B), (.lbu x i gd ga imm fe de, 1, none, 0x0C),
        (.sw x i gd ga imm fe, 4, some d, 0x0D), (.sh x i gd ga imm fe, 2, some (d % 65536), 0x0E), (.sb x i gd ga imm fe, 1, some (d % 256), 0x0F)],
      (a % c.2.1 ≠ 0 → exec c.1 s = .next (u.fault x i ⟨tALIGN, c.2.2.2, a⟩)) ∧
      (a % c.2.1 = 0 → u.meets x k i a c.2.1 c.2.2.1 = .buserr → exec c.1 s = .next (u.fault x i ⟨tBUSERR, c.2.2.2, a⟩)) ∧
      (a % c.2.1 = 0 → u.meets x k i a c.2.1 c.2.2.1 = .priv → exec c.1 s = .next (u.fault x i ⟨tPRIV, c.2.2.2, a⟩))

/-- A trap with NF = 0, but for a double fault, enters the handler as R71 says, with EPC the trapping instruction; SEQ_TRAPPC
takes the PC, and the other cores, the SRAM and all outside the string are what they were; at phrase level the phrase is then
retired as FAULT with the cause, BAD, its offset and INFO, and at the other levels nothing else happens. At monitor level with
TS set the core stops, the double-fault source of the core occurs with EPC_SM, its mailbox endpoint is reset, and nothing is
saved. -/
def Obligations.FaultEntersHandler : Prop :=
  ∀ (s : State) (x : Str) (i : Nat) (t : Trap),
    let k := (s.str x).core i;
    (¬(k.pl = 0 ∧ k.ts = true) → ∃ c : StringSt,
      k.entered (c.core i) t.code t.info t.bad false k.pc ∧ (∀ n, n ≠ i → c.core n = (s.str x).core n) ∧
      c.rd (Reg.SEQ_TRAPPC i) = k.pc.toNat ∧ { c with cores := (s.str x).cores, regs := (s.str x).regs } = s.str x ∧
      (k.pl ≠ 2 → s.fault x i t = s.setStr x c) ∧
      (k.pl = 2 → ∀ f, (s.str x).flight k.ring = some f → s.fault x i t =
        s.setStr x (c.retire i recFAULT t.code t.bad (StringSt.phraseOff k.ring f.slot k.pc.toNat) t.info))) ∧
    (k.pl = 0 → k.ts = true → s.fault x i t = (s.updStr x fun c =>
      ((c.updCore i fun j => { j with run := .stopped, wait := .idle }).occur i k.epcSm.toNat).endpointReset i).capoSettle)

/-- On a core that runs and fetches without a fault and is not in a monitor handler: TRAP outside a phrase takes SWTRAP with
INFO = imm10, and in a phrase too where the service exists; a monitor call from firmware or a phrase with S = 1 takes MCALL;
YIELD at phrase level takes YIELD and at the other levels goes to the next instruction. Each entry saves the address of the
next instruction and counts the instruction. INT, on a core at phrase level or with IE set and TF clear at firmware level that
runs and is not halted for debug, takes the lowest pending and enabled line as INFO with the PC as EPC. A monitor call at
monitor level takes ILLEGAL, and one of a phrase with S = 0 takes PRIV. -/
def Obligations.TrapsWithoutFault : Prop :=
  ∀ (s : State) (x : Str) (i : Fin 4) (imm : BitVec 9) (fe : Ecc),
    (s.ready x i fe →
      let u := s.fetched x i fe
      let k := (u.str x).core i
      let called := fun (c : Instr) (code info : Nat) => ∃ t : State, exec c s = .next t ∧
        k.entered ((t.str x).core i) code info 0 true (k.pc + 4) ∧ (∀ n, n ≠ i.val → (t.str x).core n = (u.str x).core n) ∧
        t = u.updStr x fun d => (d.countInsn i).setCore i ((t.str x).core i)
      ((k.pl ≠ 2 ∨ imm.toNat ∈ State.services) → ¬(k.pl = 0 ∧ k.ts = true) → called (.trap x i 0 0 imm fe) tSWTRAP imm.toNat) ∧
      ((k.pl = 1 ∨ (k.pl = 2 ∧ k.sec = true)) → called (.mcall x i 0 0 imm fe) tMCALL (512 + imm.toNat)) ∧
      (k.pl = 0 → exec (.mcall x i 0 0 imm fe) s = .next (u.fault x i ⟨tILLEGAL, 0x27, 0⟩)) ∧
      (k.pl = 2 → k.sec = false → exec (.mcall x i 0 0 imm fe) s = .next (u.fault x i ⟨tPRIV, 0x27, 0⟩)) ∧
      (k.pl = 2 → called (.yield x i 0 0 0 fe) tYIELD 0) ∧
      (k.pl ≠ 2 → exec (.yield x i 0 0 0 fe) s = .next (u.goes x i (k.pc + 4)))) ∧
    let k := (s.str x).core i
    let due := s.ipend x i &&& k.imask.toNat;
    ∀ l, l < 32 → due.testBit l = true → (∀ n, n < l → due.testBit n = false) → k.run = .running → k.wait = .idle → k.dbgHalt = false →
      (k.pl = 2 ∨ (k.pl = 1 ∧ k.ie = true ∧ k.tf = false)) →
      ∃ t : State, exec (.int x i) s = .next t ∧ k.entered ((t.str x).core i) tINT l 0 true k.pc ∧
        t = s.updStr x fun d => d.setCore i ((t.str x).core i)

/-- On a core that runs and fetches without a fault: ERET at phrase level takes PRIV; at firmware level with PPL_FW 0, and
with a saved level of 3, ILLEGAL; to phrase level without an active phrase ORDER, the phrase whose end entered the firmware
handler being active no more once the ERET leaves it; to a misaligned address ALIGN. Otherwise the core is at the saved level
and PC, with TS cleared by an ERET from the monitor and TF by one from firmware, S is 1 at monitor level and in a phrase of
rings 0 to 3, and 0 else, and PHRASE.ACTIVE is 0 where the handler left is the one of the phrase's end; nothing else of the
core changes. A core that goes to a phrase whose claim is not committed waits there for the commit (R86). -/
def Obligations.EretReturns : Prop :=
  ∀ (s : State) (x : Str) (i : Fin 4) (fe : Ecc), s.ready x i fe →
    let u := s.fetched x i fe
    let k0 := (u.str x).core i
    let k := if k0.pl = 1 ∧ k0.ended = true then { k0 with ended := false, phrase := BitVec.ofNat 32 (k0.phrase.toNat % 2147483648) } else k0
    let mon := k.pl = 0
    let to_ := k.ppl (decide mon)
    let ret := if mon then k.epcSm else k.epcFw
    let traps := fun (code bad : Nat) => exec (.eret x i 0 0 0 fe) s = .next (u.fault x i ⟨code, 0x28, bad⟩);
    (k.pl = 2 → traps tPRIV 0) ∧
    (k.pl = 1 → to_ = 0 → traps tILLEGAL 0) ∧
    (k.pl ≠ 2 → to_ = 3 → traps tILLEGAL 0) ∧
    (k.pl ≠ 2 → to_ = 2 → k.pcx = false → traps tORDER 0) ∧
    (k.pl ≤ 1 → (mon ∨ to_ ≠ 0) → to_ ≠ 3 → (to_ = 2 → k.pcx = true) → ret.toNat % 4 ≠ 0 → traps tALIGN ret.toNat) ∧
    (k.pl ≤ 1 → (mon ∨ to_ ≠ 0) → to_ ≠ 3 → (to_ = 2 → k.pcx = true) → ret.toNat % 4 = 0 →
      ∃ j : CoreSt, exec (.eret x i 0 0 0 fe) s = .next (u.updStr x fun d => (d.countInsn i).setCore i j) ∧
        j.pc = ret ∧ j.pl = to_ ∧ j.sec = decide (to_ = 0 ∨ (to_ = 2 ∧ k.ring ≤ 3)) ∧ (mon → j.ts = false ∧ j.tf = k.tf) ∧
        (¬mon → j.tf = false ∧ j.ts = k.ts) ∧ j.ie = k.ie ∧ j.ppl true = k.ppl true ∧ j.ppl false = k.ppl false ∧
        (if to_ = 2 ∧ ∃ f, (u.str x).flight k.ring = some f ∧ f.gseq = k.gseq ∧ f.committed = false then j.run = .waiting ∧ j.wait = .commit
          else j.run = .running ∧ j.wait = .idle) ∧
        { j with pc := k.pc, status := k.status, run := k.run, wait := k.wait } = k)

/-- On a core that runs and fetches without a fault, MFS of each special register of R69 completes with its value where the
level may read it, takes PRIV at another level, and ILLEGAL for a number that is not in the table; MTS to EPC, TVEC, SCR and
IMASK at a level that may write them writes the value (its low two bits zero for EPC and TVEC) and no other register of the
core, MTS to STATUS at firmware level writes IE and PPL_FW and at monitor level PPL_SM too; MTS at another level takes PRIV,
and to a register without write levels ILLEGAL. -/
def Obligations.SpecialRegisters : Prop :=
  ∀ (s : State) (x : Str) (i : Fin 4) (gd ga : BitVec 5) (fe : Ecc), s.ready x i fe →
    let u := s.fetched x i fe
    let k := (u.str x).core i
    let v := k.g32 ga
    let traps := fun (c : Instr) (code : Nat) => exec c s = .next (u.fault x i ⟨code, 0x28, 0⟩)
    let al : Word := v &&& 0xFFFFFFFC;
    (∀ r ∈ ([(0x000, 2, BitVec.ofNat 32 k.statusWord), (0x001, 2, BitVec.ofNat 32 (i.val + 4 * x.idx)), (0x002, 2, k.phrase),
        (0x003, 2, k.phseqL), (0x004, 2, k.phseqH), (0x008, 1, k.epcFw), (0x009, 1, k.causeFw), (0x00A, 1, k.badFw),
        (0x00B, 1, k.tvecFw), (0x00C, 1, k.scrFw), (0x00D, 1, BitVec.ofNat 32 (u.ipend x i)), (0x00E, 1, k.imask), (0x010, 0, k.epcSm),
        (0x011, 0, k.causeSm), (0x012, 0, k.badSm), (0x013, 0, k.tvecSm), (0x014, 0, k.scrSm)] : List (BitVec 10 × Nat × Word)),
      (k.pl ≤ r.2.1 → exec (.mfs x i gd 0 r.1 fe) s = .next (u.completes x i gd r.2.2)) ∧
      (r.2.1 < k.pl → traps (.mfs x i gd 0 r.1 fe) tPRIV)) ∧
    (∀ n : BitVec 10, n.toNat ∉ ([0, 1, 2, 3, 4, 8, 9, 10, 11, 12, 13, 14, 16, 17, 18, 19, 20] : List Nat) →
      traps (.mfs x i gd 0 n fe) tILLEGAL ∧ traps (.mts x i 0 ga n fe) tILLEGAL) ∧
    (∀ n ∈ ([1, 2, 3, 4, 9, 10, 13, 17, 18] : List (BitVec 10)), traps (.mts x i 0 ga n fe) tILLEGAL) ∧
    (∀ r ∈ ([(0x008, 1, { k with epcFw := al }), (0x00B, 1, { k with tvecFw := al }), (0x00C, 1, { k with scrFw := v }),
        (0x00E, 1, { k with imask := v }), (0x010, 0, { k with epcSm := al }), (0x013, 0, { k with tvecSm := al }),
        (0x014, 0, { k with scrSm := v })] : List (BitVec 10 × Nat × CoreSt)),
      (k.pl ≤ r.2.1 → exec (.mts x i 0 ga r.1 fe) s = .next (u.updStr x fun d => (d.setCore i r.2.2).stepCore i)) ∧
      (r.2.1 < k.pl → traps (.mts x i 0 ga r.1 fe) tPRIV)) ∧
    (k.pl = 2 → traps (.mts x i 0 ga 0 fe) tPRIV) ∧
    (k.pl ≤ 1 → ∃ j : CoreSt, exec (.mts x i 0 ga 0 fe) s = .next (u.updStr x fun d => (d.setCore i j).stepCore i) ∧
      { j with status := k.status } = k ∧ j.ie = v.toNat.testBit 3 ∧ j.ppl false = bits v.toNat 6 2 ∧
      j.ppl true = (if k.pl = 0 then bits v.toNat 8 2 else k.ppl true) ∧ j.pl = k.pl ∧ j.sec = k.sec ∧ j.tf = k.tf ∧ j.ts = k.ts)

/-- On a core that runs and fetches without a fault: DONE at phrase level enters the handler with cause DONE, the code in INFO
and the value of ga in BAD, and retires the phrase as DONE with the code and ga as result; at another level it takes ILLEGAL.
HALT at firmware or monitor level leaves the core halted at the next instruction, and takes PRIV in a phrase. FENCE without
the F kind goes to the next instruction, since every earlier access is performed in a model that runs one instruction after
another; with the I kind the core's instruction fetch sees every earlier store (R76); with the F kind, the core goes on where
no frame-bound effect of it is outstanding and waits for frames otherwise. -/
def Obligations.DoneHaltFence : Prop :=
  ∀ (s : State) (x : Str) (i : Fin 4) (ga : BitVec 5) (fe : Ecc), s.ready x i fe →
    let u := s.fetched x i fe
    let k := (u.str x).core i;
    (∀ code : BitVec 8, let c := Instr.done x i 0 ga (code.zeroExtend 10) fe
      (k.pl ≠ 2 → exec c s = .next (u.fault x i ⟨tILLEGAL, 0x27, 0⟩)) ∧
      (k.pl = 2 → ∀ f, (u.str x).flight k.ring = some f → ∃ d : StringSt, k.entered (d.core i) tDONE code.toNat (k.g32 ga).toNat true (k.pc + 4) ∧
        d = ((u.str x).countInsn i).setCore i (d.core i) ∧
        exec c s = .next (u.setStr x (d.retire i recDONE code.toNat (k.g32 ga).toNat (StringSt.phraseOff k.ring f.slot k.pc.toNat) 0)))) ∧
    (k.pl ≠ 2 → exec (.halt x i 0 0 0 fe) s = .next (u.updStr x fun d => (d.stepCore i).updCore i fun j => { j with run := .halted })) ∧
    (k.pl = 2 → exec (.halt x i 0 0 0 fe) s = .next (u.fault x i ⟨tPRIV, 0x27, 0⟩)) ∧
    ∀ n : BitVec 10, n.toNat < 8 →
      let w := if n.toNat.testBit 1 then u.updStr x fun d => d.setCore i { k with text := d.sram } else u;
      ((n.toNat < 4 ∨ State.framesDone (w.str x) i = true) → exec (.fence x i 0 0 n fe) s = .next (w.goes x i (k.pc + 4))) ∧
      (4 ≤ n.toNat → State.framesDone (w.str x) i = false → exec (.fence x i 0 0 n fe) s = .next (w.updStr x fun d => d.hold i .frames))

/-- On a core that runs and fetches without a fault, with a channel word in ga whose class, index and reserved bits are as R60
says: CHRD of a defined selector in a powered part of the tile completes with what the tile reads there (as the active string
of a pair telling the standby the value; as the standby waiting for the active string's); CHWR of a writable selector in a
phrase completes with BADVAL where the value is out of its range, and otherwise with OK, the write being bound to the effect
frame of the phrase. Nothing else changes. A bad channel word or selector takes OPERAND, a part without power BUSERR, and CHWR
outside a phrase ORDER. -/
def Obligations.ChannelOperations : Prop :=
  ∀ (s : State) (x : Str) (i : Fin 4) (gd ga : BitVec 5) (sel : BitVec 3) (fe : Ecc), s.ready x i fe →
    let u := s.fetched x i fe
    let k := (u.str x).core i
    let w := (k.g32 ga).toNat
    let v := (k.g32 gd).toNat
    let cls := bits w 16 2
    let idx := bits w 0 14
    let n := if cls = 0 then idx / 2048 else if cls = 1 then idx / 256 else idx / 8
    let d := u.tile n
    let good := w < 0x40000 ∧ bits w 14 2 = 0 ∧ cls ≠ 3 ∧ idx < (if cls = 0 then 16384 else if cls = 1 then 2048 else 64)
    let rdOk := cls = 0 ∨ (cls = 1 ∧ sel.toNat ≤ 4) ∨ (cls = 2 ∧ sel.toNat ≤ 1)
    let wrOk := (cls = 0 ∧ 3 ≤ sel.toNat) ∨ (cls = 1 ∧ 1 ≤ sel.toNat ∧ sel.toNat ≤ 4) ∨ (cls = 2 ∧ sel.toNat = 1)
    let on := d.domOn 0 = true ∧ (cls = 0 → d.domOn (1 + idx / 512 % 4) = true) ∧ (cls = 1 → d.domOn (5 + idx / 128 % 2) = true)
    let rd := Instr.chrd x i gd ga (sel.zeroExtend 10) fe
    let wr := Instr.chwr x i gd ga (sel.zeroExtend 10) fe
    let traps := fun (c : Instr) (code : Nat) => exec c s = .next (u.fault x i ⟨code, 0x20, 0⟩);
    (¬(good ∧ rdOk) → traps rd tOPERAND) ∧ (¬(good ∧ wrOk) → traps wr tOPERAND) ∧
    (good → rdOk → ¬on → traps rd tBUSERR) ∧ (good → wrOk → ¬on → traps wr tBUSERR) ∧
    (good → rdOk → on → (u.str x).follows i = true →
      exec rd s = .next (u.updStr x fun c => c.hold i (.outcome gd.toNat (.plain none)))) ∧
    (good → rdOk → on → (u.str x).follows i = false → exec rd s = .next (u.updStr x fun c => c.finishOut i gd.toNat
      (if cls = 0 then d.readAct (idx % 2048) sel.toNat else if cls = 1 then d.readMon (idx % 256) sel.toNat
        else d.readThm (idx % 8) sel.toNat))) ∧
    (good → wrOk → on → k.pcx = false → traps wr tORDER) ∧
    (good → wrOk → on → k.pcx = true →
      let fits := (cls = 0 ∧ ((sel = 3 ∧ v < 1024) ∨ (sel = 4 ∧ v < 65536) ∨ (sel = 5 ∧ v < 4 ∧ d.vmode (idx % 2048) = false) ∨
          (sel = 6 ∧ v < 2) ∨ (sel = 7 ∧ (v = 0 ∨ (66 ≤ v ∧ v ≤ 1310))))) ∨
        (cls = 1 ∧ ((sel = 1 ∧ v < 128) ∨ (sel = 2 ∧ v < 3) ∨ (sel = 3 ∧ v < 65536) ∨ (sel = 4 ∧ v < 65536))) ∨ (cls = 2 ∧ v < 2)
      (¬fits → exec wr s = .next (u.completes x i gd 0x14)) ∧
      (fits → exec wr s = .next (u.updStr x fun c => (c.bindEff i (.chan cls idx sel.toNat v)).finish i gd.toNat 0)))

/-- On a core in a phrase that runs and fetches without a fault: LOOPSET of a loop below 16,384 in mode 0 to 2 from an aligned
image that the core may read completes with BADVAL where the image is not valid for the loop, and otherwise with OK, the loop
no longer lowered and the image's first four words bound with the mode; FRETSET of a loop below 16,384 completes with OK with
the fret and the lock bit bound. A loop of 16,384 or more and mode 3 take OPERAND, and outside a phrase both take ORDER. -/
def Obligations.LoopOperations : Prop :=
  ∀ (s : State) (x : Str) (i : Fin 4) (gd ga : BitVec 5) (mode : BitVec 2) (v : BitVec 4) (fe : Ecc), s.ready x i fe →
    let u := s.fetched x i fe
    let k := (u.str x).core i
    let n := (k.g32 gd).toNat
    let a := (k.g32 ga).toNat
    let w := fun j => (u.str x).word (a + 4 * j)
    let set := Instr.loopset x i gd ga (mode.zeroExtend 10) fe
    let fret := Instr.fretset x i gd 0 (v.zeroExtend 10) fe
    let traps := fun (c : Instr) (code bad : Nat) => exec c s = .next (u.fault x i ⟨code, 0x21, bad⟩);
    (16384 ≤ n ∨ mode = 3 → traps set tOPERAND 0) ∧ (16384 ≤ n → traps fret tOPERAND 0) ∧
    (n < 16384 → mode ≠ 3 → a % 64 ≠ 0 → traps set tALIGN a) ∧
    (n < 16384 → mode ≠ 3 → a % 64 = 0 → (u.str x).buffer k.pl k.sec false a 64 = .fine →
      (k.pcx = false → traps set tORDER 0) ∧
      (k.pcx = true → (u.str x).loopImageOk n (w 0) (w 1) (w 2) (w 3) = false → exec set s = .next (u.completes x i gd 0x14)) ∧
      (k.pcx = true → (u.str x).loopImageOk n (w 0) (w 1) (w 2) (w 3) = true → exec set s = .next (u.updStr x fun c =>
        ((c.setWord (State.planTab n) (putBit (c.word (State.planTab n)) 15 false)).bindEff i
          (.loop n mode.toNat (w 0) (w 1) (w 2) (w 3))).finish i gd.toNat 0))) ∧
    (n < 16384 → k.pcx = false → traps fret tORDER 0) ∧
    (n < 16384 → k.pcx = true → exec fret s = .next (u.updStr x fun c =>
      (c.bindEff i (.fret n (v.toNat % 8) (decide (8 ≤ v.toNat)))).finish i gd.toNat 0))

/-- On a core in a phrase that runs and fetches without a fault: PLBEG completes with BUSY where the slot is ARMED or a PLARM
of its chain is under way, and otherwise with OK, the slot OPEN with no entry and no successor and no longer any slot's
successor, the states and counts of the other slots as they were. PLADD of 1 to 4,096 entries from an aligned readable buffer
completes with NOTOPEN unless the slot is OPEN, with FULL where they do not fit, and otherwise with OK and that many more
entries, the 16 bytes of each as they stand in the buffer. PLSEAL completes with NOTOPEN unless the slot is OPEN, with CHAIN
for a bad successor, with BADVAL for bad entries, and otherwise with OK, the slot SEALED and linked to the successor named.
Outside a phrase each takes ORDER. Outside the string's SRAM nothing changes but the core's completion. -/
def Obligations.PlanSlotOperations : Prop :=
  ∀ (s : State) (x : Str) (i : Fin 4) (gd ga : BitVec 5) (n : BitVec 7) (fe : Ecc), s.ready x i fe →
    let u := s.fetched x i fe
    let c := u.str x
    let k := c.core i
    let a := (k.g32 ga).toNat
    let cnt := (k.g32 gd).toNat
    let beg := Instr.plbeg x i gd 0 (n.zeroExtend 10) fe
    let add := Instr.pladd x i gd ga (n.zeroExtend 10) fe
    let sea := Instr.plseal x i gd ga (n.zeroExtend 10) fe
    let ends := fun (e : Instr) (st : Word) (d : StringSt) =>
      exec e s = .next ((u.setStr x d).completes x i gd st) ∧ { d with sram := c.sram } = c
    let order := fun (e : Instr) => exec e s = .next (u.fault x i ⟨tORDER, 0x22, 0⟩)
    let succ := if a = 0 then none else some (a % 128);
    (k.pcx = false → order beg) ∧
    (k.pcx = true → c.slotNow n.toNat = slARMED → ends beg 0x10 c) ∧
    (k.pcx = true → c.slotNow n.toNat ≠ slARMED → ∃ d, ends beg 0 d ∧ d.slotState n.toNat = slOPEN ∧ d.slotCount n.toNat = 0 ∧
      d.slotNext n.toNat = none ∧ d.isSuccessor n.toNat = false ∧
      ∀ j, j < 128 → j ≠ n.toNat → d.slotState j = c.slotState j ∧ d.slotCount j = c.slotCount j) ∧
    (1 ≤ cnt → cnt ≤ 4096 → a % 16 = 0 → c.buffer k.pl k.sec false a (16 * cnt) = .fine →
      (k.pcx = false → order add) ∧
      (k.pcx = true → c.slotState n.toNat ≠ slOPEN → ends add 0x13 c) ∧
      (k.pcx = true → c.slotState n.toNat = slOPEN → 4096 < c.slotCount n.toNat + cnt → ends add 0x11 c) ∧
      (k.pcx = true → c.slotState n.toNat = slOPEN → c.slotCount n.toNat + cnt ≤ 4096 → ∃ d, ends add 0 d ∧
        d.slotState n.toNat = slOPEN ∧ d.slotCount n.toNat = c.slotCount n.toNat + cnt ∧
        d.bytes (slotEnts n.toNat + 16 * c.slotCount n.toNat) (16 * cnt) = c.bytes a (16 * cnt))) ∧
    ((a = 0 ∨ (0x80000000 ≤ a ∧ a < 0x80000080)) →
      (k.pcx = false → order sea) ∧
      (k.pcx = true → c.slotState n.toNat ≠ slOPEN → ends sea 0x13 c) ∧
      (k.pcx = true → c.slotState n.toNat = slOPEN → (∀ j, succ = some j → c.chainOk n.toNat j = true) →
        (c.entriesOk n.toNat = false → ends sea 0x14 c) ∧
        (c.entriesOk n.toNat = true → ∃ d, ends sea 0 d ∧ d.slotState n.toNat = slSEALED ∧ d.slotNext n.toNat = succ ∧
          d.slotCount n.toNat = c.slotCount n.toNat)) ∧
      (k.pcx = true → c.slotState n.toNat = slOPEN → ∀ j, succ = some j → c.chainOk n.toNat j = false → ends sea 0x18 c))

/-- On a core in a phrase of the string that serves it, that runs and fetches without a fault: PLARM of an aligned readable
TS96 completes with BADTIME for no time, NOTOPEN unless the slot is SEALED, in no chain that a PLARM under way arms, and no
successor, LATE (counted) where the time is less than 50 us off under the reject policy; under the align policy TEFF moves to
the next boundary (counted); it completes with BUDGET where a tile's peak exceeds its budget, and otherwise, with the next arm
number, with STAGEFAIL where a tile concerned cannot be staged, FULL where one has no buffer, or it sends every tile concerned
its share and waits for the acknowledgements. PLCANCEL completes with NOTOPEN for a FREE slot, frees an OPEN or SEALED chain
with OK, a cancellation being bound to the phrase's effect frame, completes with BUSY (counted) for an ARMED slot that is a
successor, the calendar's, or within 10 us of its stroke, and, by the model's choice (log entry 95), for one that is being
armed or withdrawn, and otherwise asks every tile concerned to withdraw and waits. On the standby both wait for the active
string's outcome. -/
def Obligations.ArmAndCancel : Prop :=
  ∀ (s : State) (x : Str) (i : Fin 4) (gd ga : BitVec 5) (n : BitVec 7) (reject : Bool) (fe : Ecc), s.ready x i fe →
    let u := s.fetched x i fe
    let c := u.str x
    let k := c.core i
    let a := (k.g32 ga).toNat
    let m := n.toNat
    let arm := Instr.plarm x i gd ga (BitVec.ofNat 10 (m + 128 * b2n reject)) fe
    let can := Instr.plcancel x i gd 0 (n.zeroExtend 10) fe
    let ends := fun (w : State) (st teff q : Nat) (al : Bool) =>
      w.updStr x fun c => (c.sendOutcome i ⟨st, teff, q, al⟩).finish i gd.toNat st
    let treq := ofTs96 (c.words a 3);
    k.pcx = true →
    (a % 4 = 0 → c.buffer k.pl k.sec false a 12 = .fine →
      (c.follows i = true → exec arm s = .next (u.updStr x fun c => c.hold i (.outcome gd.toNat (.arm m (b2n reject) treq)))) ∧
      (c.follows i = false → treq = none → exec arm s = .next (ends u 0x15 0 0 false)) ∧
      ∀ t, c.follows i = false → treq = some t →
        let late := t < c.time + 50 * usT
        let teff := if late then State.alignedTime c else t
        let ts := (teff + 16384000 - 1) / 16384000 * 16384000
        let w := if late then u.updStr x fun c => c.addSat Reg.PLAN_LATE F.PLAN_LATE.LO 1 else u
        let b := w.budget (w.str x) ts ((w.str x).strokeEnts ((w.str x).chainOf m) ts)
        let w := w.updStr x fun c => c.setSh m 18 b.1
        let q := ((w.str x).rd Reg.PLAN_ARMSEQ + 1) % 4294967296
        let v := w.updStr x fun c => c.wr Reg.PLAN_ARMSEQ q
        let st := (v.str x).newStroke m q ts false
        let full := ∃ j ∈ StringSt.tileList st.tiles, (v.str x).noBuffer j false = true
        let open_ := c.slotNow m = slSEALED ∧ c.isSuccessor m = false;
        (¬open_ → exec arm s = .next (ends u 0x13 0 0 false)) ∧
        (open_ → late → reject = true →
          exec arm s = .next (ends (u.updStr x fun c => c.addSat Reg.PLAN_LATE F.PLAN_LATE.HI 1) 0x16 0 0 false)) ∧
        (open_ → ¬(late ∧ reject = true) →
          (b.2 = true → exec arm s = .next (ends w 0x17 teff 0 (decide late))) ∧
          (b.2 = false → v.stageFail st.tiles = true → exec arm s = .next (ends v 0x19 teff q (decide late))) ∧
          (b.2 = false → v.stageFail st.tiles = false → full → exec arm s = .next (ends v 0x11 teff q (decide late))) ∧
          (b.2 = false → v.stageFail st.tiles = false → ¬full → exec arm s = .next (v.updStr x fun c =>
            let d := State.sendShares c st;
            { d with plan := { d.plan with arming := d.plan.arming ++
              [(⟨some i.val, gd.toNat, st, 0, 0, t, teff, b2n reject, decide late⟩ : Arming)] } }.hold i (.arm gd.toNat m))))) ∧
    (c.follows i = true → exec can s = .next (u.updStr x fun c => c.hold i (.outcome gd.toNat (.cancel m)))) ∧
    (c.follows i = false →
      let busy := u.updStr x fun c => (c.addSat Reg.PLAN_CANCEL F.PLAN_CANCEL.HI 1).finishOut i gd.toNat 0x10;
      (c.slotNow m = slFREE → exec can s = .next (u.updStr x fun c => c.finishOut i gd.toNat 0x13)) ∧
      (c.slotNow m = slOPEN ∨ c.slotNow m = slSEALED →
        exec can s = .next (u.updStr x fun c => ((c.bindEff i (.cancel none)).freeChain (c.chainOf m)).finishOut i gd.toNat 0)) ∧
      (c.slotNow m = slARMED →
        ∀ r, r = c.plan.strokes.find? (fun q => decide (q.slot = m ∧ q.past = false ∧ q.withdrawn = false)) →
        (r = none → exec can s = .next busy) ∧
        ∀ st, r = some st →
          let no := c.isSuccessor m = true ∨ c.slotCal m = true ∨ st.ts < c.time + 10 * usT ∨ ∃ w ∈ c.plan.withdrawing, w.armSeq = st.armSeq;
          (no → exec can s = .next busy) ∧
          (¬no → exec can s = .next (u.updStr x fun c =>
            (State.startWithdraw c ⟨some i.val, gd.toNat, none, m, st.armSeq, st.tiles, 0, 0, false, none, 0, 0⟩).hold i (.cancel gd.toNat m)))))

/-- On a core in a phrase of the string that serves it, that runs and fetches without a fault: CALSET completes with the
status below, which the active string of a pair tells the standby; ERR of the calendar is then this CALSET's. Action 2 gives
OK and a running calendar is stopping; action 3 gives OK, and with no calendar running changes nothing. Action 0 gives BUSY
while the calendar is stopping or has a pending image, and action 1 while it runs or is stopping. A start of a valid image
with a time, with at most two buffers of each tile held by arms, gives OK: the calendar runs with no cycle counted, the image
stored, its first cycle at the first boundary of the image's base and period not before the time plus LEAD. -/
def Obligations.CalendarSet : Prop :=
  ∀ (s : State) (x : Str) (i : Fin 4) (gd ga : BitVec 5) (act : BitVec 2) (fe : Ecc), s.ready x i fe →
    let u := s.fetched x i fe
    let c := u.str x
    let k := c.core i
    let a := (k.g32 ga).toNat
    let cmd := Instr.calset x i gd (if act.toNat < 2 then ga else 0) (act.zeroExtend 10) fe
    let ends := fun (w : State) (st at_ : Nat) =>
      exec cmd s = .next (w.updStr x fun c => (c.sendOutcome i ⟨st, at_, 0, false⟩).finish i gd.toNat st)
    let v := u.updStr x fun c => c.setFld Reg.PLAN_CALSTAT F.PLAN_CALSTAT.ERR 0;
    k.pcx = true → c.follows i = false →
    (act = 2 → c.calState ≠ calRUNNING → ends v 0 0) ∧
    (act = 2 → c.calState = calRUNNING →
      ends (v.updStr x fun c => c.setFld Reg.PLAN_CALSTAT F.PLAN_CALSTAT.STATE calSTOPPING) 0 0) ∧
    (act = 3 → c.calState < calRUNNING → ends v 0 0) ∧
    (a % 4 = 0 → c.buffer k.pl k.sec false a 4 = .fine →
      let m := bits (c.word a) 0 9
      let img := c.words a (8 + 2 * m);
      c.buffer k.pl k.sec false a (32 + 8 * m) = .fine →
      (act = 0 → (c.calState = calSTOPPING ∨ (c.calState = calRUNNING ∧ c.flag Reg.PLAN_CALSTAT F.PLAN_CALSTAT.PEND = true)) →
        ends v 0x10 0) ∧
      (act = 1 → calRUNNING ≤ c.calState → ends v 0x10 0) ∧
      (act = 1 → c.calState < calRUNNING → ∀ base, ofTs96 ((img.drop 1).take 3) = some base → v.calCheck (v.str x) img = 0 →
        (∀ n, n < 8 → c.holding n false ≤ 2) →
        let lead := max 50 (c.fld Reg.PLAN_CALCFG F.PLAN_CALCFG.LEAD) * usT
        let p := img.getD 4 0 * nsT
        let e := c.time + lead
        let b := if e ≤ base then base else base + (e - base + p - 1) / p * p;
        ∃ w, ends w 0 b ∧ (w.str x).calState = calRUNNING ∧ (w.str x).fld Reg.PLAN_CALSTAT F.PLAN_CALSTAT.CYCLES = 0 ∧
          (w.str x).fld Reg.PLAN_CALSTAT F.PLAN_CALSTAT.ERR = 0 ∧ (w.str x).plan.cycle = b ∧ (w.str x).plan.lead = lead ∧
          (w.str x).plan.next = (b, 0) ∧ (w.str x).words 0x00E08000 (8 + 2 * m) = img))

/-- On a core that runs and fetches without a fault: EVFIRE of a channel whose group is enabled completes with OK after
everything the fire brings about, and of a gated one with GATED, the drop counted and the channel's GATEDF set. EVWAIT, on a
core that does not follow, completes with OK where the channel has been seen, clearing SEEN if it asks to; with a timeout of 0
it completes with TIMEOUT; else the core waits, for ever with a timeout of all ones and until the time plus the timeout
otherwise. A phrase may use channels 56 to 63 only, and takes PRIV otherwise; on the standby EVWAIT waits for the active
string's outcome. EVWAIT_TIMEOUT ends a wait whose timeout has passed, with TIMEOUT. -/
def Obligations.EventOperations : Prop :=
  ∀ (s : State) (x : Str) (i : Fin 4) (gd ga : BitVec 5) (ch : BitVec 6) (clear : Bool) (fe : Ecc),
    (s.ready x i fe →
      let u := s.fetched x i fe
      let c := u.str x
      let k := c.core i
      let ns := (k.g32 ga).toNat
      let fire := Instr.evfire x i gd 0 (ch.zeroExtend 10) fe
      let wait := Instr.evwait x i gd ga (BitVec.ofNat 10 (ch.toNat + 64 * b2n clear)) fe
      let seen := c.flag (Reg.EVF_CH ch.toNat) F.EVF_CH.SEEN;
      (k.pl = 2 → ch.toNat < 56 → exec fire s = .next (u.fault x i ⟨tPRIV, 0x23, 0⟩) ∧ exec wait s = .next (u.fault x i ⟨tPRIV, 0x23, 0⟩)) ∧
      ((k.pl = 2 → 56 ≤ ch.toNat) →
        (bit (c.rd Reg.EVF_GRP) (ch.toNat / 8) = true →
          exec fire s = .next (u.updStr x fun c => ((StringSt.settleEvents 80 (c.activate [ch.toNat] [] [])).endCaptures).finish i gd.toNat 0)) ∧
        (bit (c.rd Reg.EVF_GRP) (ch.toNat / 8) = false → exec fire s = .next (u.updStr x fun c =>
          ((c.addSat Reg.EVF_CNT F.EVF_CNT.GATED 1).setFld (Reg.EVF_CH ch.toNat) F.EVF_CH.GATEDF 1).finish i gd.toNat 0x1B)) ∧
        (c.follows i = true → exec wait s = .next (u.updStr x fun c => c.hold i (.outcome gd.toNat (.event ch.toNat clear)))) ∧
        (c.follows i = false → seen = true → exec wait s = .next (u.updStr x fun c =>
          (if clear then c.setFld (Reg.EVF_CH ch.toNat) F.EVF_CH.SEEN 0 else c).finishOut i gd.toNat 0)) ∧
        (c.follows i = false → seen = false → ns = 0 → exec wait s = .next (u.updStr x fun c => c.finishOut i gd.toNat 0x1C)) ∧
        (c.follows i = false → seen = false → ns ≠ 0 → exec wait s = .next (u.updStr x fun c => c.hold i
          (.event gd.toNat ch.toNat clear (if ns = 4294967295 then none else some (c.time + ns * 65536))))))) ∧
    ∀ (t g n stop : Nat) (b : Bool), (((s.advance t).str x).core i).wait = .event g n b (some stop) → stop ≤ ((s.advance t).str x).time →
      exec (.evwaitTimeout x i t) s = .next ((s.advance t).updStr x fun c => c.finishOut i g 0x1C)

/-- On a core that runs and fetches without a fault, with S = 1 for mailboxes 0 to 3, the mailbox's domain on and an aligned
permitted buffer: MBPOST of a message of at most 15 words completes with FULL where the mailbox is full, and otherwise posts
it as the core's and completes with OK; MBTAKE completes with EMPTY where the mailbox is empty, and otherwise writes the
header and payload words of the message to the buffer, takes it and completes with OK, or OK_ORPHAN where its sender was
reset. On the standby each does its own and waits for the active string's status. MBPOST of more than 15 words takes OPERAND;
without S = 1 mailboxes 0 to 3 take PRIV, a mailbox without power BUSERR, a misaligned buffer ALIGN. -/
def Obligations.MailboxOperations : Prop :=
  ∀ (s : State) (x : Str) (i : Fin 4) (gd ga : BitVec 5) (m : BitVec 4) (fe : Ecc), s.ready x i fe →
    let u := s.fetched x i fe
    let c := u.str x
    let k := c.core i
    let a := (k.g32 ga).toNat
    let n := m.toNat
    let post := Instr.mbpost x i gd ga (m.zeroExtend 10) fe
    let take := Instr.mbtake x i gd ga (m.zeroExtend 10) fe
    let both := fun (t : State) => exec post s = .next t ∧ exec take s = .next t
    let h := c.word a
    let len := bits h 0 5
    let ends := fun (e : Instr) (d : StringSt) (st : Nat) => exec e s = .next (u.setStr x
      (if d.follows i then d.hold i (.outcome gd.toNat (.plain (some st))) else d.finishOut i gd.toNat st))
    (n < 4 → k.sec = false → both (u.fault x i ⟨tPRIV, 0x24, 0⟩)) ∧
    ((n < 4 → k.sec = true) →
      (c.domOn (c.mbxDom n) = false → both (u.fault x i ⟨tBUSERR, 0x24, 0⟩)) ∧
      (c.domOn (c.mbxDom n) = true → a % 4 ≠ 0 → both (u.fault x i ⟨tALIGN, 0x24, a⟩)) ∧
      (c.domOn (c.mbxDom n) = true → a % 4 = 0 →
        (c.buffer k.pl k.sec false a 4 = .fine → 15 < len → exec post s = .next (u.fault x i ⟨tOPERAND, 0x24, 0⟩)) ∧
        (c.buffer k.pl k.sec false a 4 = .fine → len ≤ 15 → c.buffer k.pl k.sec false a (4 + 4 * len) = .fine →
          (c.mbxFull n = true → ends post c 0x11) ∧
          (c.mbxFull n = false → ends post (c.mbxPost n i h (c.words (a + 4) len)) 0)) ∧
        (c.buffer k.pl k.sec true a 64 = .fine →
          (c.mbxFull n = false → ends take c 0x12) ∧
          (c.mbxFull n = true → ends take ((c.setWords a (c.mbxWords n)).mbxTake n) (if c.mbxOrphan n then 0x01 else 0)))))

/-- On a core that runs and fetches without a fault, at an aligned peg address with the peg domain on, and S = 1 for the
secure pegs: PEGRD completes with the peg's word; PEGWR inside the junction window writes that word and no other, adds one to
its page's wear and completes with OK, and outside it writes no peg, counts the block, raises source 29 and completes with
TEMPBLOCK. TSREAD with the time domain on completes, on a core that does not follow, with the nanoseconds of the time, or of a
TCAP capture, which it latches for the capture's registers (R338), and writes its TS96 where ga is not g0 and its aligned
buffer may be written; on the standby it waits for the active string's outcome. -/
def Obligations.PegsAndTime : Prop :=
  ∀ (s : State) (x : Str) (i : Fin 4) (gd ga : BitVec 5) (src : BitVec 2) (fe : Ecc), s.ready x i fe →
    let u := s.fetched x i fe
    let c := u.str x
    let k := c.core i
    let a := (k.g32 ga).toNat
    let v := k.g32 gd
    let ends := fun (d : StringSt) (st : Nat) => exec (.pegwr x i gd ga 0 fe) s = .next (u.setStr x
      (if d.follows i then d.hold i (.outcome gd.toNat (.plain (some st))) else d.finishOut i gd.toNat st))
    (0x70000000 ≤ a → a ≤ 0x7007FFFC → a % 4 = 0 → (a < 0x70010000 → k.sec = true) → c.domOn 62 = true →
      exec (.pegrd x i gd ga 0 fe) s = .next (u.completes x i gd (BitVec.ofNat 32 (c.peg a))) ∧
      (c.pegTempOk = true → ∃ d : StringSt, d.peg a = v.toNat ∧ (∀ b, b ≠ a → d.peg b = c.peg b) ∧
        { d with pegs := c.pegs, wear := c.wear } = c ∧
        (∀ p, Tab.get (fun _ => 0) d.wear p = if p = (a - 0x70000000) / 256 then satInc 2097151 (Tab.get (fun _ => 0) c.wear p)
          else Tab.get (fun _ => 0) c.wear p) ∧
        ends d 0) ∧
      (c.pegTempOk = false → ends ((c.addSat Reg.PEG_STAT F.PEG_STAT.TBLKCNT 1).occur 29 a) 0x1A)) ∧
    (src ≠ 3 → c.domOn 60 = true →
      let t := if src = 0 then c.time else (c.tcap (src.toNat - 1)).at_
      let cmd := fun r => Instr.tsread x i gd r (src.zeroExtend 10) fe
      let reads := fun (d : StringSt) => u.setStr x ((d.sendOutcome i ⟨nsOf t, t, 0, false⟩).finish i gd.toNat (nsOf t))
      let d := if src = 0 then c else (c.readTcap (src.toNat - 1)).2;
      (c.follows i = false → exec (cmd 0) s = .next (reads d)) ∧
      (c.follows i = false → ga ≠ 0 → a % 4 = 0 → c.buffer k.pl k.sec true a 12 = .fine →
        exec (cmd ga) s = .next (reads (d.setWords a [nsOf t, secOf t % 4294967296, secOf t / 4294967296 % 65536 + 65536 * fracOf t]))) ∧
      (c.follows i = true → exec (cmd 0) s = .next (u.setStr x (d.hold i (.outcome gd.toNat (.time none))))))

/-- When a service ends for a core in the firmware handler of a phrase's TRAP, with PPL_FW at phrase level and an aligned
EPC_FW: the core is at phrase level at EPC_FW with TF clear, S is 1 exactly for rings 0 to 3, g2 holds the status, and every
other register of the core, every other core and all else of the module is what it was. Every service of R452 that a core
serves completes: on a string that is no standby the core is then in its phrase at EPC_FW, runs, with TF clear and the
service's status in g2 and every other general register as it was (FLTINJ, whose fault may end the service of the whole
string, is left to its own statement); on the standby the core of a service whose status is the active string's stands at the
TRAP and waits for that status, and of the other services it goes on at once. -/
def Obligations.ServiceResumesPhrase : Prop :=
  ∀ (s : State) (x : Str) (i : Fin 4) (n st : Nat),
    let k := (s.str x).core i;
    (s.str x).serving i n = true → k.ppl false = 2 → k.epcFw.toNat % 4 = 0 → st < 4294967296 →
    ∃ j : CoreSt, s.resumePhrase x i st = s.updStr x (fun c => c.setCore i j) ∧ j.pc = k.epcFw ∧ j.pl = 2 ∧ j.tf = false ∧
      j.sec = decide (k.ring ≤ 3) ∧ j.reg 2 = st ∧ (∀ r, r ≠ 2 → j.reg r = k.reg r) ∧ j.run = .running ∧ j.wait = .idle ∧
      { j with g := k.g, pc := k.pc, status := k.status, run := k.run, wait := k.wait } = k ∧
      ∀ e ∈ [(Instr.dlbegin x i, 0x040, true), (.dldata x i, 0x041, true), (.dlend x i, 0x042, true), (.dlabort x i, 0x043, true),
          (.csetload x i, 0x050, false), (.rtsolve x i st, 0x060, false), (.rtbind x i, 0x061, false), (.rtset x i, 0x062, false),
          (.xtload x i, 0x070, false), (.xtprop x i, 0x071, false), (.calload x i, 0x080, false), (.fltclr x i, 0x091, true),
          (.ageprio x i, 0x0A0, false), (.flprog x i, 0x0B0, true), (.fwtry x i, 0x0B1, true), (.svncommit x i, 0x0B2, true),
          (.keyload x i, 0x0B3, true), (.dbgunlock x i, 0x0B4, true), (.attest x i, 0x0B5, true), (.evgrp x i, 0x0C0, true)],
        n = e.2.1 → ∃ (t : State) (a : Nat), exec e.1 s = .next t ∧
          let m := (t.str x).core i;
          m.pl = 2 ∧ m.tf = false ∧ m.reg 2 = a ∧ (∀ r, r ≠ 2 → m.reg r = k.reg r) ∧
          ((e.2.2 = false ∨ (s.str x).role ≠ rSTANDBY) → m.pc = k.epcFw ∧ m.run = .running ∧ m.wait = .idle) ∧
          (e.2.2 = true → (s.str x).role = rSTANDBY → m.pc = k.epcFw - 4 ∧ m.run = .waiting ∧ m.wait = .outcome 2 (.plain (some a)))

/-- On a core that serves the call: DLBEGIN answers BUSY without BARRIER, while a load is open, or with the fabric not
quiescent; BADVAL for a length that is no multiple of 4 or above 1,572,864; else OK with the length held, STATE LOADING, SRC
1, the phrase's ring and RXLEN 0. DLDATA and DLABORT answer NOTOPEN without a load open from the phrase's ring. DLDATA answers
BADVAL for an offset other than RXLEN, an empty or unaligned piece, one past the length or a buffer that the phrase may not
read, and else OK with the bytes in the bundle area at RXLEN, which moves on. DLABORT answers OK, with STATE as before DLBEGIN
where nothing has come and FAILED otherwise. DLEND answers NOTOPEN, BADVAL with the load kept open while bytes are missing,
BADVAL with STATE FAILED and the failed check in FAB_ERR, or OK with the descriptor valid. -/
def Obligations.DescriptorServices : Prop :=
  ∀ (s : State) (x : Str) (i : Fin 4),
    let c := s.str x
    let k := c.core i
    let r := k.ring
    let rx := c.rd Reg.FAB_RXLEN
    let ends := fun (e : Instr) (w : State) (st : Nat) => exec e s = .next (w.answers x i true st);
    (c.serving i 0x040 = true →
      ((c.hasBarrier i = false ∨ c.fabState = fabLOADING ∨ c.quiescent = false) → ends (.dlbegin x i) s 0x10) ∧
      (c.hasBarrier i = true → c.fabState ≠ fabLOADING → c.quiescent = true →
        ((k.reg 3 % 4 ≠ 0 ∨ 1572864 < k.reg 3) → ends (.dlbegin x i) s 0x14) ∧
        (k.reg 3 % 4 = 0 → k.reg 3 ≤ 1572864 → ∃ d : StringSt, ends (.dlbegin x i) (s.setStr x d) 0 ∧ d.fabState = fabLOADING ∧
          d.rd Reg.FAB_RXLEN = 0 ∧ d.fld Reg.FAB_STAT F.FAB_STAT.RING = r % 16 ∧ d.fld Reg.FAB_STAT F.FAB_STAT.SRC = 1 ∧
          d.dlLen = k.reg 3 ∧ d.dlPrev = c.fabState ∧ { d with regs := c.regs, dlLen := c.dlLen, dlPrev := c.dlPrev } = c))) ∧
    (c.serving i 0x041 = true →
      (c.loadOpen r = false → ends (.dldata x i) s 0x13) ∧
      (c.loadOpen r = true →
        let good := k.reg 3 = rx ∧ k.reg 5 ≠ 0 ∧ k.reg 5 % 4 = 0 ∧ rx + k.reg 5 ≤ c.dlLen ∧
          c.buffer 2 (decide (r ≤ 3)) false (k.reg 4) (k.reg 5) = .fine
        (¬good → ends (.dldata x i) s 0x14) ∧
        (good → ends (.dldata x i) (s.updStr x fun c =>
          (c.setBytes (fabBase + rx) (c.bytes (k.reg 4) (k.reg 5))).wr Reg.FAB_RXLEN (rx + k.reg 5)) 0))) ∧
    (c.serving i 0x043 = true →
      (c.loadOpen r = false → ends (.dlabort x i) s 0x13) ∧
      (c.loadOpen r = true → rx = 0 → ends (.dlabort x i) (s.updStr x fun c => c.setFab c.dlPrev) 0) ∧
      (c.loadOpen r = true → rx ≠ 0 → ends (.dlabort x i) (s.updStr x fun c => c.setFab fabFAILED) 0)) ∧
    (c.serving i 0x042 = true →
      (c.loadOpen r = false → ends (.dlend x i) s 0x13) ∧
      (c.loadOpen r = true → rx < c.dlLen → ends (.dlend x i) s 0x14) ∧
      (c.loadOpen r = true → c.dlLen ≤ rx →
        (∀ e, c.fabCheck c.dlLen = some e → ends (.dlend x i) (s.updStr x fun c =>
          ((c.setFab fabFAILED).wr Reg.FAB_ERR (e.1 + 256 * e.2.1)).wr Reg.FAB_ERRIDX e.2.2) 0x14) ∧
        (c.fabCheck c.dlLen = none → ends (.dlend x i)
          ((s.updStr x fun c => (c.wr Reg.FAB_ERR 0).wr Reg.FAB_ERRIDX noIdx).becomeValid x false) 0)))

/-- On a core that serves the call. CSETLOAD answers BADVAL for an index of 2,048 or more, an unaligned or unreadable image or
one that breaks R190; BUSY for a set in use; OK with the set's 128 words written, or zeroed for address 0. RTSOLVE of bad
operands writes no result, counts a solve with reason 5 and answers BADVAL; else it writes its result where g5 points, keeps a
successful solve for the phrase and answers by its reason. RTBIND answers BADVAL for a slot of 128 or more, BUSY without
BARRIER, NOTOPEN without a solve or a stroke of the slot to bind to, as for an ARMED slot of the calendar's; OK, none of the
solve left to bind, with it pending on the arm number of an ARMED slot, and made current, or dropped, where the stroke of a
SEALED slot has been reported played, or its drop has passed. RTSET answers BUSY without BARRIER, quiescence and a valid
descriptor, BADVAL for a bad buffer or tables that disagree, else OK with the tables taken. XTLOAD answers BADVAL for bad
operands or rows, BUSY without a descriptor or room, else OK with the rows bound to the phrase's effect frame. XTPROP answers
BADVAL for a bad range or buffer, else OK with an image of each row, its header words but the date as in the row. CALLOAD
answers BADVAL for a bad size, buffer, image or digest, BUSY without a valid descriptor, else OK with the record bound to the
effect frame. -/
def Obligations.LoopAndRouteServices : Prop :=
  ∀ (s : State) (x : Str) (i : Fin 4) (us : Nat),
    let c := s.str x
    let k := c.core i
    let g := k.reg
    let sec := decide (k.ring ≤ 3)
    let reads := fun (a n : Nat) => c.buffer 2 sec false a n = .fine
    let writes := fun (a n : Nat) => c.buffer 2 sec true a n = .fine
    let ends := fun (e : Instr) (d : StringSt) (st : Nat) => exec e s = .next ((s.setStr x d).answers x i false st);
    (c.serving i 0x050 = true →
      let set := 0x00900000 + 512 * g 3;
      (2048 ≤ g 3 → ends (.csetload x i) c 0x14) ∧
      (g 3 < 2048 → g 4 = 0 → c.csetUsed (g 3) = true → ends (.csetload x i) c 0x10) ∧
      (g 3 < 2048 → g 4 = 0 → c.csetUsed (g 3) = false → ends (.csetload x i) (c.zero set 512) 0) ∧
      (g 3 < 2048 → g 4 ≠ 0 → ¬(g 4 % 64 = 0 ∧ reads (g 4) 512 ∧ StringSt.csetOk (c.words (g 4) 128) = true) → ends (.csetload x i) c 0x14) ∧
      (g 3 < 2048 → g 4 ≠ 0 → g 4 % 64 = 0 → reads (g 4) 512 → StringSt.csetOk (c.words (g 4) 128) = true →
        (c.csetUsed (g 3) = true → ends (.csetload x i) c 0x10) ∧
        (c.csetUsed (g 3) = false → ends (.csetload x i) (c.setWords set (c.words (g 4) 128)) 0))) ∧
    (c.serving i 0x060 = true →
      (¬(g 5 % 16 = 0 ∧ 16 ≤ g 6 ∧ writes (g 5) (g 6)) → ∃ d, ends (.rtsolve x i us) d 0x14 ∧ { d with regs := c.regs } = c ∧
        d.fld Reg.RTE_LAST F.RTE_LAST.REASON = 5 ∧
        d.fld Reg.RTE_CNT F.RTE_CNT.SOLVES = satAdd (2 ^ F.RTE_CNT.SOLVES.w - 1) (c.fld Reg.RTE_CNT F.RTE_CNT.SOLVES) 1) ∧
      (g 5 % 16 = 0 → 16 ≤ g 6 → writes (g 5) (g 6) → 1 ≤ g 4 → g 4 ≤ 2048 → bits (g 7) 2 14 = 0 → g 3 % 4 = 0 → reads (g 3) (8 * g 4) →
        let v := c.solveSet (match c.flight k.ring with | some f => f.gseq | none => 0) ((List.range (g 4)).map fun n => Req.of (c.word (g 3 + 8 * n)) (c.word (g 3 + 8 * n + 4)))
          (bit (g 7) 0) (bit (g 7) 1) (bits (g 7) 16 16) (g 6) (c.hasBarrier i)
        ∃ d : StringSt, ends (.rtsolve x i us) (if v.reason = 0 then (d.writeResult (g 5) (g 6) v).updFlight k.ring
            fun f => { f with solve := some v.solve } else d.writeResult (g 5) (g 6) v) (StringSt.reasonStatus v.reason) ∧
          { d with regs := c.regs } = c ∧ d.fld Reg.RTE_LAST F.RTE_LAST.NMOVE = v.nmove % 2 ^ F.RTE_LAST.NMOVE.w)) ∧
    (c.serving i 0x061 = true →
      let sol := (c.flight k.ring).bind (·.solve);
      (128 ≤ g 3 → ends (.rtbind x i) c 0x14) ∧
      (g 3 < 128 → c.hasBarrier i = false → ends (.rtbind x i) c 0x10) ∧
      (g 3 < 128 → c.hasBarrier i = true →
        ((sol = none ∨ c.bindTo (g 3) = none) → ends (.rtbind x i) c 0x13) ∧
        ∀ v : Solve, sol = some v →
          let q := c.sh (g 3) 1
          let d : StringSt := c.updFlight k.ring fun f => { f with solve := none }
          let p : RtPend := ⟨g 3, q, v.cells, v.ins, v.outs, v.ents⟩
          let e : StringSt := { d with rte := { d.rte with pend := d.rte.pend ++ [p] } }
          let w := e.refuture (v.cells.map (·.1)) (v.ins.map (·.1)) (v.outs.map (·.1));
          (c.slotState (g 3) = slARMED → c.slotCal (g 3) = true → ends (.rtbind x i) c 0x13) ∧
          (c.slotState (g 3) = slARMED → c.slotCal (g 3) = false → c.strokeDropped q = false → ends (.rtbind x i) w 0) ∧
          (c.slotState (g 3) = slSEALED →
            (c.bindTo (g 3) = some (q, .play) → ends (.rtbind x i) (w.settlePend q true) 0) ∧
            (c.bindTo (g 3) = some (q, .drop) → ends (.rtbind x i) (w.dropMissed (g 3) q) 0) ∧
            (c.bindTo (g 3) = some (q, .wait) → ends (.rtbind x i) w 0)))) ∧
    (c.serving i 0x062 = true →
      (¬(c.hasBarrier i = true ∧ c.quiescent = true ∧ c.fabValid = true) → ends (.rtset x i) c 0x10) ∧
      (c.hasBarrier i = true → c.quiescent = true → c.fabValid = true →
        (¬(g 3 % 4 = 0 ∧ reads (g 3) 0x28000) → ends (.rtset x i) c 0x14) ∧
        (g 3 % 4 = 0 → reads (g 3) 0x28000 →
          let d := { c.setBytes (inTab 0) (c.bytes (g 3) 0x28000) with rte := ⟨[], c.rte.staged, c.rte.contrib, [], c.time, c.rte.moves⟩ }
          let leads := fun (p q : Nat) => p < d.fabNin ∧ q < d.fabNout ∧ ∃ r, d.traceOut d.cellState q = some r ∧ r.1 = p
          let ok := (∀ p, p < 4096 → StringSt.portSettled (d.word (inTab p)) (d.word (inTab p + 4)) = true) ∧
            (∀ n, n < 16384 → StringSt.cellSettled (d.word (cellTab n)) = true) ∧
            (∀ p, p < 2048 → ∀ q, d.farNow (inTab p) = some q → leads p q) ∧ ∀ q, q < 2048 → ∀ p, d.farNow (outTab q) = some p → leads p q
          (ok → ends (.rtset x i) d.retrace 0) ∧ (¬ok → ends (.rtset x i) c 0x14)))) ∧
    (c.serving i 0x070 = true → g 4 % 128 = 0 → 1 ≤ g 5 → g 5 ≤ 256 → g 3 + g 5 ≤ 16384 → reads (g 4) (128 * g 5) →
      let rows := ∀ n, n < g 5 → c.rowOk (g 3 + n) (c.words (g 4 + 128 * n) 32) = true;
      (¬rows → ends (.xtload x i) c 0x14) ∧ (rows → c.fabValid = false → ends (.xtload x i) c 0x10) ∧
      (c.fabValid = true → rows →
        (1024 < c.rte.staged.length + g 5 → ends (.xtload x i) c 0x10) ∧
        (c.rte.staged.length + g 5 ≤ 1024 → ∃ d, ends (.xtload x i) (StringSt.bindEff d i
            (.rows ((c.freePlaces (g 5)).zipIdx.map fun e => (g 3 + e.2, e.1, c.words (g 4 + 128 * e.2) 32)))) 0 ∧
          { d with sram := c.sram, rte := c.rte } = c))) ∧
    (c.serving i 0x071 = true →
      let good := 1 ≤ g 4 ∧ g 4 ≤ 256 ∧ g 3 + g 4 ≤ c.fld Reg.XT_MSEL F.XT_MSEL.COUNT ∧ g 5 % 128 = 0 ∧ writes (g 5) (128 * g 4);
      (¬good → ends (.xtprop x i) c 0x14) ∧
      (good → ∃ d : StringSt, ends (.xtprop x i) d 0 ∧ { d with sram := c.sram, free := c.free } = c ∧ ∀ j, j < g 4 → ∀ n, n < 8 → n ≠ 2 →
        d.word (g 5 + 128 * j + 4 * n) = c.word (xtRow (c.fld Reg.XT_MSEL F.XT_MSEL.FIRST + g 3 + j) + 4 * n))) ∧
    (c.serving i 0x080 = true →
      let w := c.words (g 3) (calSize / 4)
      let good := g 4 = calSize ∧ g 3 % 64 = 0 ∧ reads (g 3) (g 4) ∧ StringSt.calImageOk w = true ∧
        ∀ j, j < 8 → w.getD (4 + j) 0 = c.rd (Reg.FAB_DIGEST j)
      (¬good → ends (.calload x i) c 0x14) ∧
      (good → c.fabValid = false → ends (.calload x i) c 0x10) ∧
      (good → c.fabValid = true → ends (.calload x i) (c.bindEff i (.cal w)) 0))

/-- On a core that serves the call; a string that the mask in g5 does not select answers OK and changes nothing. FLTINJ
answers BADVAL for a source of 160 or more or a reserved one, BUSY without INJEN, else OK with the source's FORCE made 1
(which is an occurrence) or 0. FLTCLR answers BADVAL for a source of 160 or more but 0xFFFF, else OK with the source's sticky
bits clear, and the first-fault record too with g4[0]. EVGRP answers BADVAL for bits above 7 or a group both enabled and
disabled, else OK with EVF_GRP so changed in one store. AGEPRIO answers BADVAL for a bad range or word, else OK with CLASS,
FBRATE and FBSET of each loop of the range. FLPROG answers BADVAL for bad operands, BUSY for the running slot or the key area,
else OK with the flash bytes programmed and the erases counted. FWTRY answers BADVAL for a slot above 1, else writes TRY by
PEGWR. SVNCOMMIT answers BUSY with g3[1] and no valid descriptor, OK with nothing raised for g3 with bits 0 and 1 clear, and
inside the write window OK with the floor of firmware raised and PREF the running slot for g3[0], the floor of descriptors
raised for g3[1]. -/
def Obligations.ControlServices : Prop :=
  ∀ (s : State) (x : Str) (i : Fin 4),
    let c := s.str x
    let k := c.core i
    let g := k.reg
    let sec := decide (k.ring ≤ 3)
    let mine := bit (g 5) x.idx
    let ends := fun (out : Bool) (e : Instr) (d : StringSt) (st : Nat) => exec e s = .next ((s.setStr x d).answers x i out st);
    c.id = x →
    (c.serving i 0x090 = true →
      let endsF := fun (d : StringSt) (st : Nat) => exec (.fltinj x i) s = .next ((s.setStr x d).answers x i true st).capoSettle;
      (mine = false → endsF c 0) ∧
      (mine = true → (160 ≤ g 3 ∨ severity (g 3) = none) → endsF c 0x14) ∧
      (mine = true → severity (g 3) ≠ none →
        (c.flag Reg.ALV_CFG F.ALV_CFG.INJEN = false → endsF c 0x10) ∧
        (c.flag Reg.ALV_CFG F.ALV_CFG.INJEN = true → bit (g 4) 0 = true → endsF (c.force (g 3)) 0) ∧
        (c.flag Reg.ALV_CFG F.ALV_CFG.INJEN = true → bit (g 4) 0 = false → endsF (c.setFld (Reg.ALV_SRC (g 3)) F.ALV_SRC.FORCE 0) 0))) ∧
    (c.serving i 0x091 = true →
      (mine = false → ends true (.fltclr x i) c 0) ∧
      (mine = true → 160 ≤ g 3 → g 3 ≠ 0xFFFF → ends true (.fltclr x i) c 0x14) ∧
      (mine = true → severity (g 3) ≠ none → ∃ d : StringSt, ends true (.fltclr x i) d 0 ∧
        d.fld (Reg.ALV_SRC (g 3)) F.ALV_SRC.STICKY = 0 ∧ d.fld (Reg.ALV_SRC (g 3)) F.ALV_SRC.FSTICKY = 0 ∧
        d.fld (Reg.ALV_SRC (g 3)) F.ALV_SRC.FORCE = c.fld (Reg.ALV_SRC (g 3)) F.ALV_SRC.FORCE ∧
        (bit (g 4) 0 = true → d.rd Reg.ALV_FIRSTFAULT = 0) ∧ { d with regs := c.regs, alv := c.alv } = c) ∧
      (mine = true → g 3 = 0xFFFF → ∃ d : StringSt, ends true (.fltclr x i) d 0 ∧ { d with regs := c.regs, alv := c.alv } = c ∧
        ∀ n, severity n ≠ none → d.fld (Reg.ALV_SRC n) F.ALV_SRC.STICKY = 0 ∧ d.fld (Reg.ALV_SRC n) F.ALV_SRC.FSTICKY = 0)) ∧
    (c.serving i 0x0C0 = true →
      let bad := 256 ≤ g 3 ∨ 256 ≤ g 4 ∨ ∃ n, n < 8 ∧ bit (g 3) n = true ∧ bit (g 4) n = true;
      (mine = false → ends true (.evgrp x i) c 0) ∧
      (mine = true → bad → ends true (.evgrp x i) c 0x14) ∧
      (mine = true → ¬bad → ∃ v, ends true (.evgrp x i) (c.wr Reg.EVF_GRP v) 0 ∧ ∀ n, n < 8 →
        bit v n = (bit (g 3) n || (bit (c.rd Reg.EVF_GRP) n && !bit (g 4) n)))) ∧
    (c.serving i 0x0A0 = true →
      ((16384 < g 3 + g 4 ∨ g 4 = 0 ∨ 32768 ≤ g 5) → ends false (.ageprio x i) c 0x14) ∧
      (g 3 + g 4 ≤ 16384 → g 4 ≠ 0 → g 5 < 32768 → ∃ d : StringSt, ends false (.ageprio x i) d 0 ∧ { d with sram := c.sram } = c ∧
        ∀ a, g 3 ≤ a → a < g 3 + g 4 → d.word (0x00F20000 + 8 * a) % 32768 = g 5)) ∧
    (c.serving i 0x0B0 = true →
      let slot := 0x400000 * c.fld Reg.SEC_BOOT F.SEC_BOOT.SLOT
      let good := g 3 % 4096 = 0 ∧ g 4 % 4 = 0 ∧ g 6 % 4096 = 0 ∧ 4096 ≤ g 6 ∧ g 6 ≤ 65536 ∧ g 3 + g 6 ≤ 0x1000000 ∧
        c.buffer 2 sec false (g 4) (g 6) = .fine
      let meets := (g 3 < slot + 0x400000 ∧ slot < g 3 + g 6) ∨ 0xF00000 < g 3 + g 6;
      (mine = false → ends true (.flprog x i) c 0) ∧
      (mine = true → ¬good → ends true (.flprog x i) c 0x14) ∧
      (mine = true → good → meets → ends true (.flprog x i) c 0x10) ∧
      (mine = true → good → ¬meets → ∃ d : StringSt, ends true (.flprog x i) d 0 ∧ d.flashBytes (g 3) (g 6) = c.bytes (g 4) (g 6) ∧
        (∀ a, (a < g 3 ∨ g 3 + g 6 ≤ a) → d.flashByte a = c.flashByte a) ∧
        { d with flash := c.flash } = c.addSat Reg.QSPI_CNT F.QSPI_CNT.ERASES (g 6 / 4096))) ∧
    (c.serving i 0x0B1 = true →
      (mine = false → ends true (.fwtry x i) c 0) ∧
      (mine = true → 1 < g 3 → ends true (.fwtry x i) c 0x14) ∧
      (mine = true → g 3 ≤ 1 → c.pegTempOk = true → ∃ d : StringSt, ends true (.fwtry x i) d 0 ∧
        bits (d.peg 0x70000014) 1 2 = g 3 + 1 ∧ { d with pegs := c.pegs, wear := c.wear } = c)) ∧
    (c.serving i 0x0B2 = true →
      (bit (g 3) 1 = true → c.fabValid = false → ends true (.svncommit x i) c 0x10) ∧
      (bit (g 3) 0 = false → bit (g 3) 1 = false → ends true (.svncommit x i) c 0) ∧
      (bit (g 3) 0 = false → bit (g 3) 1 = true → c.fabValid = true → c.pegTempOk = true → ∃ d : StringSt, ends true (.svncommit x i) d 0 ∧
        d.peg 0x70000004 = max (c.peg 0x70000004) (c.rd Reg.FAB_SVN) ∧ (∀ a, a ≠ 0x70000004 → d.peg a = c.peg a)) ∧
      (bit (g 3) 0 = true → bit (g 3) 1 = false → c.pegTempOk = true → ∃ d : StringSt, ends true (.svncommit x i) d 0 ∧
        d.peg 0x70000000 = max (c.peg 0x70000000) (c.rd Reg.SEC_FWSVN) ∧ bits (d.peg 0x70000014) 0 1 = c.fld Reg.SEC_BOOT F.SEC_BOOT.SLOT ∧
        (∀ a, a ≠ 0x70000000 → a ≠ 0x70000014 → d.peg a = c.peg a)))

/-- On a core that serves the call. KEYLOAD answers BADVAL for an unaligned or unreadable bundle or one whose length is out of
bounds; a bundle that fails a check of R419 (its header, an entry, its serial, a version no higher than KYFLOOR, its
signature, no administrator key left, the root in use) answers BADVAL too and changes nothing; a good bundle inside the pegs'
write window has its entries written and KYFLOOR set last and answers OK, and outside it writes no peg and answers TEMPBLOCK.
DBGUNLOCK, where the mask selects the string, answers OK with DBGUNL set only for a token of this string, module and nonce
that is signed under a valid key slot with the debug bit, and BADVAL otherwise; either way the nonce is formed anew. ATTEST
answers BADVAL for a bad buffer, and else OK with the report of 48 words over the nonce at g4 and its signature of 17,088
bytes after it, every other byte of SRAM as it was. -/
def Obligations.SecurityServices : Prop :=
  ∀ (s : State) (x : Str) (i : Fin 4),
    let c := s.str x
    let k := c.core i
    let g := k.reg
    let sec := decide (k.ring ≤ 3)
    let reads := fun (a n : Nat) => c.buffer 2 sec false a n = .fine
    let ends := fun (e : Instr) (d : StringSt) (st : Nat) => exec e s = .next ((s.setStr x d).answers x i true st);
    c.id = x →
    (c.serving i 0x0B3 = true →
      (¬(g 3 % 4 = 0 ∧ 32 ≤ g 4 ∧ g 4 ≤ 17296 ∧ reads (g 3) (g 4)) → ends (.keyload x i) c 0x14) ∧
      (g 3 % 4 = 0 → 32 ≤ g 4 → g 4 ≤ 17296 → reads (g 3) (g 4) →
        let b := c.bytes (g 3) (g 4)
        let w := fun (j : Nat) => leNat ((b.drop (4 * j)).take 4)
        let n := bits (w 1) 16 8
        let ents := (List.range n).map fun j => leWords 16 (b.drop (32 + 64 * j))
        let good := w 0 = 0x31424B49 ∧ bits (w 1) 0 16 = 1 ∧ bits (w 1) 24 8 = 0 ∧ 1 ≤ n ∧ n ≤ 16 ∧ w 2 = 32 + 64 * n ∧
          (∀ e ∈ ents, StringSt.entOk e = true) ∧ ([w 6, w 7] = StringSt.serialWords ∨ (w 6 = 0 ∧ w 7 = 0)) ∧ c.peg 0x70000008 < w 3 ∧
          c.signedBy b (w 2) 8 = true ∧ (∃ v ∈ c.slotsAfter ents, bit v 0 = true ∧ bit v 8 = true) ∧
          ∀ e ∈ ents, ¬(StringSt.entKind e = 5 ∧ StringSt.entIdx e = c.fld Reg.SEC_BOOT F.SEC_BOOT.ROOT)
        (¬good → ends (.keyload x i) c 0x14) ∧
        (good → c.pegTempOk = false → ∃ d : StringSt, ends (.keyload x i) d 0x1A ∧ d.pegs = c.pegs) ∧
        (good → c.pegTempOk = true → ∃ d e : StringSt, StringSt.applyKeys [w 4, w 5] ents c = (0, d) ∧ ends (.keyload x i) e 0 ∧
          e.peg 0x70000008 = w 3 % 4294967296 ∧ { e with pegs := d.pegs, wear := d.wear } = d ∧ ∀ a, a ≠ 0x70000008 → e.peg a = d.peg a))) ∧
    (c.serving i 0x0B4 = true →
      let b := c.bytes (g 3) 16288
      let w := fun (j : Nat) => leNat ((b.drop (4 * j)).take 4)
      let ok := reads (g 3) 16288 ∧ w 0 = 0x31554449 ∧ w 1 = x.idx ∧ [w 2, w 3] = StringSt.serialWords ∧
        (upFrom 4 8).map w = (List.range 8).map (fun j => c.rd (Reg.SEC_DBGNONCE j)) ∧ c.signedBy b 48 10 = true
      (bit (g 5) x.idx = false → ends (.dbgunlock x i) c 0) ∧
      (bit (g 5) x.idx = true → ok → ends (.dbgunlock x i) (c.setFld Reg.SEC_BOOT F.SEC_BOOT.DBGUNL 1).newNonce 0) ∧
      (bit (g 5) x.idx = true → ¬ok → ends (.dbgunlock x i) c.newNonce 0x14)) ∧
    (c.serving i 0x0B5 = true →
      let good := g 4 % 64 = 0 ∧ reads (g 3) 32 ∧ c.buffer 2 sec true (g 4) 17280 = .fine;
      (¬good → ends (.attest x i) c 0x14) ∧
      (good → ∃ d : StringSt, ends (.attest x i) d 0 ∧ { d with sram := c.sram } = c ∧
        d.bytes (g 4) 32 = leBytes 4 0x31524149 ++ leBytes 4 (1 + 65536 * x.idx + 131072 * c.role +
          1048576 * c.fld Reg.SEC_BOOT F.SEC_BOOT.DBGUNL + 2097152 * c.fld Reg.SEC_BOOT F.SEC_BOOT.SLOT) ++ (c.bytes (g 3) 32).take 24 ∧
        (∀ a, (a < g 4 ∨ g 4 + 17280 ≤ a) → d.sram.byte a = c.sram.byte a)))

/-- A host write to a ring but 4 to 11 does nothing; on the standby it is counted in STBYWR; a clearing write that meets the
fencing phrase in flight is kept. Else a write is judged by the producer, consumer and fence that the writes accepted before
leave: CMD 3, a CMD 1 or 2 on a ring that is not fenced, and a bad producer count in DBREF and change no ring. Without a
joined standby an accepted CMD 0 or 1 sets PROD, CMD 1 also clears the fence, and beside them only WAITB bits may change; CMD
2 clears the fence and posts a FLUSHED record for the slots between CONS and PROD, where there are any; a string that holds
the bulk state of a join gets a copy of the ring. With a joined standby the write waits for its copy to be taken, which is
sent with the slots it publishes. DOORBELL_MIRROR takes the oldest copy, a clearing one only when the ring's fencing record is
posted on the standby too: the standby takes its slots and producer, and both strings then act on it; nothing to take changes
nothing but the drops and the commit that stand first. -/
def Obligations.Doorbells : Prop :=
  ∀ (s : State) (x : Str) (n : Fin 16) (prod : BitVec 16) (host : Bool),
    let c := s.str x
    let p := prod.toNat
    let m := n.val
    let v := c.ringAfter m
    let far := cntSub p v.2.1
    let fits := far ≤ 256
    let grows := cntSub v.1 v.2.1 ≤ far
    let mirrors := c.holds = true ∧ c.joined = true
    let reaches := host = true → (4 ≤ n.val ∧ n.val ≤ 11) ∧ c.role ≠ rSTANDBY
    let refused := fun (e : Instr) => ∃ d : StringSt, exec e s = .next (s.setStr x d) ∧
      StringSt.counts { c with net := d.net } d Reg.RING_DISC F.RING_DISC.DBREF 1
    let copied := fun (w : State) => if w.forwards x then w.updStr x.other fun o => o.ringCopy (w.str x) m else w
    let accepted := fun (e : Instr) (fence : Bool) => ∃ d : StringSt, exec e s = .next (copied (s.setStr x d)) ∧
      d.ringProd m = p ∧ d.fenced m = fence ∧ (∀ k, k < 16 → d.ringCons k = c.ringCons k ∧ (k ≠ m → d.fenced k = c.fenced k)) ∧
      c.regsBut d (Reg.RING_DB m :: (List.range 16).map Reg.RING_STAT)
    let waits := fun (e : Instr) (cmd : Nat) => ∃ d : StringSt, exec e s = .next (s.setStr x d) ∧
      d.ring.dbWait = c.ring.dbWait ++ [(m, p, cmd)] ∧ { d with ring := { d.ring with dbWait := c.ring.dbWait }, outbox := c.outbox } = c ∧
      d.outbox = (if c.brgUp then c.outbox ++ [.doorbell m p cmd (if cmd = 2 then [] else c.slotBytes m v.2.1 far) (c.ictMirror m)]
        else c.outbox)
    let keeps := fun (e : Instr) (cmd : Nat) => exec e s = .next (s.updStr x fun c =>
      { c with ring := { c.ring with kept := c.ring.kept ++ [(m, p, cmd)] } })
    (∀ e ∈ [Instr.ringDbPublish x n prod host, .ringDbContinue x n prod host, .ringDbFlush x n prod host, .ringDbRefused x n prod host],
      host = true → ((n.val < 4 ∨ 11 < n.val) → exec e s = .next s) ∧
        (4 ≤ n.val → n.val ≤ 11 → c.role = rSTANDBY → ∃ d, exec e s = .next (s.setStr x d) ∧ c.counts d Reg.RING_DISC F.RING_DISC.STBYWR 1)) ∧
    (reaches → refused (.ringDbRefused x n prod host) ∧
      (¬(fits ∧ grows) → refused (.ringDbPublish x n prod host)) ∧
      (fits → grows → (mirrors → waits (.ringDbPublish x n prod host) 0) ∧
        (¬mirrors → accepted (.ringDbPublish x n prod host) (c.fenced m))) ∧
      (c.fenced m = false → refused (.ringDbContinue x n prod host) ∧ refused (.ringDbFlush x n prod host)) ∧
      (c.fenced m = true → (c.flight m).isSome = true → keeps (.ringDbContinue x n prod host) 1 ∧ keeps (.ringDbFlush x n prod host) 2) ∧
      (c.fenced m = true → c.flight m = none →
        (v.2.2 = false → refused (.ringDbContinue x n prod host) ∧ refused (.ringDbFlush x n prod host)) ∧
        (v.2.2 = true → (¬fits → refused (.ringDbContinue x n prod host)) ∧
          (fits → mirrors → waits (.ringDbContinue x n prod host) 1) ∧
          (fits → ¬mirrors → accepted (.ringDbContinue x n prod host) false) ∧
          (mirrors → waits (.ringDbFlush x n prod host) 2) ∧
          (¬mirrors →
            let k := cntSub (c.ringProd m) (c.ringCons m)
            let u := s.updStr x fun d => d.setFld (Reg.RING_STAT m) F.RING_STAT.FENCE 0;
            exec (.ringDbFlush x n prod host) s = .next (copied (if k = 0 then u.updStr x StringSt.reselect
              else u.post x (Rec.plain m recFLUSHED 0 (c.ringCons m % 256) k 0 0 (c.cqEn m) (c.cqBase m)))))))) ∧
    let u := s.drainDrops x
    let o := (u.str x.other).outbox
    let takes := fun (q : BMsg) => ∃ n p k l i, q = .doorbell n p k l i ∧ (o.find? fun r => r.doorbellOf == some n) = some q ∧
      (k = 0 ∨ (u.str x).flight n = none)
    ((∀ q ∈ o, ¬takes q) → exec (.doorbellMirror x) s = .next u) ∧
    (∀ r p k l i rest w, r < 16 → p < 65536 → k < 3 → u.incoming x takes (.doorbell r p k l i) rest →
      oldest (fun q => q = (r, p, k)) (u.str x.other).ring.dbWait (r, p, k) w →
      ∃ t, exec (.doorbellMirror x) s = .next t ∧ (k < 2 → (t.str x).ringProd r = p ∧ (t.str x.other).ringProd r = p) ∧
        (1 ≤ k → (t.str x).fenced r = false ∧ (t.str x.other).fenced r = false) ∧
        (k = 2 → (t.str x.other).ringCons r = (u.str x.other).ringProd r) ∧ (t.str x.other).ring.dbWait = w ∧
        rest <+: (t.str x.other).outbox ∧ (t.str x).outbox = (u.str x).outbox ∧
        (∀ a, (a < 0x01800000 ∨ 0x01B00000 ≤ a) → (t.str x.other).sram.byte a = (u.str x.other).sram.byte a) ∧
        ((l.map (·.1)).Nodup → (∀ e ∈ l, e.1 < 256 ∧ e.2.length = 256) →
          (∀ e ∈ l, (t.str x).bytes (slotAddr r e.1) 256 = e.2) ∧
          ∀ a, (∀ e ∈ l, a < slotAddr r e.1 ∨ slotAddr r e.1 + 256 ≤ a) → (t.str x).sram.byte a = (u.str x).sram.byte a))

/-- PHRASE_CLAIM on a core that may claim: with nothing to claim only time passes; a valid phrase that the rules choose takes
the next GSEQ and is in flight on its ring with that core, which is at phrase level at the first instruction of the slot with
g1 the slot's address, g2 to g5 the header's arguments and every other register 0, secure exactly for rings 0 to 3, its
instruction fetch seeing the slots as they stand and the rest of SRAM as before (R76); without a standby it runs and COMMIT is
the sequence number, with one it waits for the commit and a claim entry is sent. CLAIM_ENTRY starts the phrase on the
standby's core, sets its GSEQ and COMMIT, and commits it on the active string, whose waiting core runs. RETIRE_ENTRY, once the
standby has retired the phrase of the first retire entry, marks its record with the effect frame of the active string and the
entry's place in their order. PHRASE_KILLED retires a phrase whose count has reached its budget as KILLED, fences its ring and
leaves the core at firmware level at TVEC_FW, its phrase retired. Of what the partner has sent, the drops of missed strokes
and the commit that stand first are taken before a claim or retire entry. -/
def Obligations.ClaimsAndEntries : Prop :=
  ∀ (s : State) (x : Str) (i : Fin 4) (t : Nat),
    let u := s.advance t
    let starts := fun (c : StringSt) (k j : CoreSt) (n slot ns g : Nat) (args : List Nat) => j.pl = 2 ∧ j.pc.toNat = slotAddr n slot + 32 ∧ j.pcx = true ∧
      j.ring = n ∧ j.gseq = g ∧ j.sec = decide (n < 4) ∧ j.tf = false ∧ j.reg 1 = slotAddr n slot ∧
      (∀ a, a < 4 → j.reg (2 + a) = args.getD a 0 % 4294967296) ∧ (∀ r, (r = 0 ∨ 5 < r) → j.reg r = 0) ∧
      j.ended = false ∧ (∀ a, j.text.byte a = if slotAddr n slot ≤ a ∧ a < slotAddr n slot + 256 * ns then c.sram.byte a else k.text.byte a) ∧
      { j with
        g := k.g
        pc := k.pc
        status := k.status
        phrase := k.phrase
        phseqL := k.phseqL
        phseqH := k.phseqH
        run := k.run
        wait := k.wait
        ended := k.ended
        text := k.text } = k
    ((u.str x).mayClaim i = true → (u.str x).nextClaim = none → exec (.phraseClaim x i t) s = .next u) ∧
    ((u.str x).mayClaim i = false → exec (.phraseClaim x i t) s = .next u) ∧
    (∀ n slot h, (u.str x).mayClaim i = true → (u.str x).nextClaim = some (n, slot, h, 0) → h.kind ≠ 1 →
      (u.str x).gseqNext + 1 < 18446744073709551616 →
      let c := u.str x
      let g := c.gseqNext;
      ∃ d f, exec (.phraseClaim x i t) s = .next (u.setStr x d) ∧ d.gseqNext = g + 1 ∧ d.flight n = some f ∧ f.core = i ∧ f.gseq = g ∧
        f.slot = slot ∧ f.nslot = h.nslot ∧ f.tag = h.tag ∧ f.lead = h.lead ∧ f.budget = h.budget ∧ f.barrier = h.barrier ∧ f.count = 0 ∧
        f.effects = [] ∧ f.committed = !c.joined ∧ (∀ m, m ≠ n → d.flight m = c.flight m) ∧
        starts c (c.core i) (d.core i) n slot h.nslot g h.args ∧ (∀ j : Nat, j ≠ i → d.core j = c.core j) ∧ d.sram = c.sram ∧
        d.ring.recs = c.ring.recs ∧
        (c.joined = false → (d.core i).run = .running ∧ d.commitSeq = g ∧ d.outbox = c.outbox) ∧
        (c.joined = true → (d.core i).run = .waiting ∧ (d.core i).wait = .commit ∧ d.commitSeq = c.commitSeq ∧
          (c.brgUp = true → d.outbox = c.outbox ++ [.claim ⟨g, n, slot, h.nslot, crc32 (c.bytes (slotAddr n slot) (256 * h.nslot)), 0⟩]))) ∧
    let r := s.drainDrops x
    let c := r.str x;
    (∀ e rest, r.incoming x (fun q => ∃ e, q = .claim e) (.claim e) rest → c.role = rSTANDBY → e.hdr = 0 → e.ring < 16 →
      e.slot < 256 → e.gseq + 1 < 18446744073709551616 → c.mayClaim i = true →
      ∃ v f, exec (.claimEntry x i) s = .next v ∧ (v.str x).gseqNext = e.gseq + 1 ∧ (v.str x).commitSeq = e.gseq ∧
        (v.str x).flight e.ring = some f ∧ f.core = i ∧ f.gseq = e.gseq ∧ f.slot = e.slot ∧ f.committed = true ∧
        starts c (c.core i) ((v.str x).core i) e.ring e.slot (c.hdr e.ring e.slot).nslot e.gseq (c.hdr e.ring e.slot).args ∧
        ((v.str x).core i).run = .running ∧ (v.str x.other).commitSeq = e.gseq ∧ rest <+: (v.str x.other).outbox) ∧
    (∀ g eff rest, r.incoming x (fun q => (r.str x.other).outbox.find? BMsg.isRetire = some q ∧ ∃ g e, q = .retire g e ∧
          c.ring.recs.any (fun r => r.gseq == g && !r.entry) = true) (.retire g eff) rest →
      ∃ d : StringSt, exec (.retireEntry x) s = .next ((r.updStr x.other fun p => { p with outbox := rest }).setStr x d) ∧
        (∀ r, r ∈ d.ring.recs ↔ ∃ q ∈ c.ring.recs, r = if q.gseq = g then { q with entry := true, eff := eff, ord := c.ring.ord + 1 } else q) ∧
        d.ring.ord = c.ring.ord + 1 ∧ d.ring.lastEff = (eff.elim c.ring.lastEff fun e => max e c.ring.lastEff) ∧
        d.cores = c.cores ∧ d.sram = c.sram ∧ d.ring.flights = c.ring.flights) ∧
    (∀ f, (u.str x).flight ((u.str x).core i).ring = some f → ((u.str x).core i).pl = 2 → ((u.str x).core i).run = .running →
      ((u.str x).core i).wait = .idle → f.budget ≤ f.count →
      let c := u.str x
      let k := c.core i;
      ∃ d : StringSt, exec (.phraseKilled x i t) s = .next (u.setStr x d) ∧
        (let j := d.core i;
          j.pc = k.tvecFw ∧ j.epcFw = k.pc ∧ j.pl = 1 ∧ j.sec = false ∧ j.tf = true ∧ j.ie = false ∧ j.ended = true ∧ j.phrase = k.phrase ∧ j.causeFw = k.causeFw ∧
            j.badFw = k.badFw ∧ j.g = k.g) ∧
        (∃ r ∈ d.ring.recs, r.ring = k.ring ∧ r.status = recKILLED ∧ r.gseq = f.gseq ∧ r.fpc = f.fpc ∧ r.slot = f.slot ∧ r.nslot = f.nslot ∧
          r.effects = f.effects) ∧
        d.sram = c.sram)

/-- COMPLETION_POST on the string that serves phrases, with a record of the ring whose effects are applied and sent: the
record's eight words, word 0 with the phase bit of the queue's count, stand at its place in host memory where the queue is
enabled (the place as it was where the write ended in a PCIe error, which PCIE_CNT.HI counts), no other byte of host memory
changes, CONS moves on by its slots, RING_LSEQ is its sequence number, the record is no more waiting, and SRAM changes in no
byte but those of queued frames, where the record is one of a network ring's. A record that the former active string has
posted is noted so, with nothing written to host memory. Without such a record, or on another string, nothing changes.
POSTED_MARK, after the drops and the commit that stand first, moves CONS, the count and LSEQ of the standby in the same way
and takes its copy of the record away. -/
def Obligations.RecordsPosted : Prop :=
  ∀ (s : State) (x : Str) (n : Fin 16) (err : Bool),
    let c := s.str x;
    (c.holds = false → exec (.completionPost x n err) s = .next s) ∧
    ((∀ r ∈ c.ring.recs, ¬(r.ring = n ∧ r.sent = true ∧ r.applied = true)) → exec (.completionPost x n err) s = .next s) ∧
    (∀ r, c.holds = true → c.ring.recs.find? (fun r => r.ring == n.val && r.sent && r.applied) = some r → r.gseq ≠ 0 → r.marked = false →
      r.gseq < 18446744073709551616 → c.pwr.dorm ≠ some r.gseq → (∀ e ∈ c.ring.kept, e.1 ≠ n) →
      let cnt := r.oldCnt.getD (c.fld (Reg.RING_CQCFG n) F.RING_CQCFG.CNT)
      let w := r.words x (decide (cnt / 256 % 2 = 0))
      let a := r.cqBase + 32 * (cnt % 256);
      ∃ t, exec (.completionPost x n err) s = .next t ∧
        (∀ k, k < 8 → (r.cqEn = true → err = false → t.hostMem.word (a + 4 * k) = w.getD k 0 % 4294967296) ∧
          (err = true → t.hostMem.word (a + 4 * k) = s.hostMem.word (a + 4 * k))) ∧
        (∀ b, (r.cqEn = false ∨ b < a ∨ a + 32 ≤ b) → t.hostMem.byte b = s.hostMem.byte b) ∧
        (t.str x).ringCons n = (c.ringCons n + r.nslot) % 65536 ∧ (t.str x).rd (Reg.RING_LSEQ_L n) = r.gseq % 4294967296 ∧
        (t.str x).rd (Reg.RING_LSEQ_H n) = r.gseq / 4294967296 ∧ r ∉ (t.str x).ring.recs ∧
        (∀ q, q ≠ r → (q ∈ (t.str x).ring.recs ↔ q ∈ c.ring.recs)) ∧
        (r.cqEn = true → r.oldCnt = none → (t.str x).fld (Reg.RING_CQCFG n) F.RING_CQCFG.CNT = (cnt + 1) % 2 ^ F.RING_CQCFG.CNT.w) ∧
        (∀ f, c.flight n = some f → f.gseq = r.gseq → (t.str x).flight n = none) ∧
        (err = true → r.cqEn = true → (t.str x).fld Reg.PCIE_CNT F.PCIE_CNT.HI =
          min (2 ^ F.PCIE_CNT.HI.w - 1) (c.fld Reg.PCIE_CNT F.PCIE_CNT.HI + 1)) ∧
        (∀ b, (n.val < 12 ∨ b < 0x01800000 ∨ 0x01B00000 ≤ b) → (t.str x).sram.byte b = c.sram.byte b) ∧ t.str x.other = s.str x.other) ∧
    (∀ r, c.holds = true → c.ring.recs.find? (fun r => r.ring == n.val && r.sent && r.applied) = some r → r.gseq ≠ 0 → r.marked = true →
      r.gseq < 18446744073709551616 → c.pwr.dorm ≠ some r.gseq → (∀ e ∈ c.ring.kept, e.1 ≠ n) →
      ∃ t, exec (.completionPost x n false) s = .next t ∧ t.hostMem = s.hostMem ∧ (t.str x).ringCons n = (c.ringCons n + r.nslot) % 65536 ∧
        (t.str x).rd (Reg.RING_LSEQ_L n) = r.gseq % 4294967296 ∧ (t.str x).rd (Reg.RING_LSEQ_H n) = r.gseq / 4294967296 ∧
        (∀ q, q ∈ (t.str x).ring.recs ↔ q ∈ c.ring.recs ∧ q ≠ r)) ∧
    let u := s.drainDrops x
    let c := u.str x;
    (∀ (r : Rec) g k ns rest, r.ring = n.val → r.gseq = g → r.slot = k → g ≠ 0 → g < 18446744073709551616 →
      u.incoming x (fun q => ∃ n g k ns, q = .posted n g k ns ∧ (c.ring.recs.any fun r => r.ring == n && r.gseq == g && r.slot == k) = true)
        (.posted n g k ns) rest →
      c.ring.recs.find? (fun q => q.ring == n.val && q.gseq == g && q.slot == k) = some r →
      ∃ d : StringSt, exec (.postedMark x) s = .next ((u.updStr x.other fun p => { p with outbox := rest }).setStr x d) ∧
        d.ringCons n = (c.ringCons n + r.nslot) % 65536 ∧ d.rd (Reg.RING_LSEQ_L n) = g % 4294967296 ∧ d.rd (Reg.RING_LSEQ_H n) = g / 4294967296 ∧
        (∀ q, q ∈ d.ring.recs ↔ q ∈ c.ring.recs ∧ q ≠ r) ∧ d.sram = c.sram ∧ d.cores = c.cores ∧ d.outbox = c.outbox)

/-- EFFECT_FRAME_APPLY answers a next state, in which every record whose effect frame has come is applied in its string and,
from the string that holds the line, sent to the tiles; a CHWR to an actuator's OPEN_CODE that is the only effect due of a
string stands in the actuator record. OPERATION_OUTCOME first carries out the drops and the commit that stand before it in the
command order (drainDrops). Where a core of the standby then waits for the phrase of the oldest outcome: the core completes
its operation with the active string's value in gd, the message is gone; a status of its own that differs is recorded for the
health report; EVWAIT clears SEEN where it asked to and the value is OK; TSREAD writes the active string's time where it asked
for it. Without such a core nothing more changes. -/
def Obligations.EffectsAndOutcomes : Prop :=
  ∀ (s : State) (x : Str) (t : Nat),
    let u := s.advance t;
    (∃ w : State, exec (.effectFrameApply t) s = .next w.capoSettle ∧ w.hostMem = s.hostMem ∧
      (∀ y r e, r ∈ (w.str y).ring.recs → r.eff = some e → e ≤ (u.str y).time →
        r.applied = true ∧ (u.capo = some y → w.capo = some y → r.sent = true)) ∧
      ∀ y r a v, State.dueRecs (u.str y) (fun r => !r.applied) = [r] → State.dueRecs (u.str y.other) (fun r => !r.applied) = [] →
        r.effects = [.chan 0 a 4 v] → (w.str y).word (actRec a) = putBits ((u.str y).word (actRec a)) 0 16 v) ∧
    (let r := s.drainDrops x
      let c := r.str x
      let waits := fun (i g gd : Nat) (f : Follow) => i < 4 ∧ (c.core i).wait = .outcome gd f ∧ (c.core i).gseq = g
      let mine := fun (q : BMsg) => ∃ g o, q = .outcome g o ∧ ∃ i gd f, waits i g gd f;
      ((∀ q ∈ (r.str x.other).outbox, ¬mine q) → exec (.operationOutcome x) s = .next r) ∧
      ∀ (g : Nat) (o : Outc) (rest : List BMsg) (i gd : Nat) (f : Follow), r.incoming x mine (.outcome g o) rest → waits i g gd f →
        (∀ j : Nat, j < i → ∀ gd f, ¬waits j g gd f) → gd < 32 → o.value < 4294967296 →
        let v := r.updStr x.other fun p => { p with outbox := rest }
        let done := (v.str x).finish i gd o.value;
        (∀ own, f = .plain own → exec (.operationOutcome x) s = .next (v.setStr x
          (own.elim done fun w => if w = o.value then done else done.markFlag 8))) ∧
        (∀ ch clear, f = .event ch clear → exec (.operationOutcome x) s = .next (v.setStr x
          (if clear = true ∧ o.value = 0 then done.setFld (Reg.EVF_CH ch) F.EVF_CH.SEEN 0 else done))) ∧
        (∀ a, f = .time (some a) → exec (.operationOutcome x) s = .next (v.setStr x
          (((v.str x).setWords a [o.time / 65536 % 1000000000, o.time / 65536 / 1000000000 % 4294967296,
            o.time / 65536 / 1000000000 / 4294967296 % 65536 + 65536 * (o.time % 65536)]).finish i gd o.value))) ∧
        (f = .time none → exec (.operationOutcome x) s = .next (v.setStr x done)) ∧
        ((∃ k p q, f = .arm k p q) ∨ (∃ k, f = .cancel k) ∨ (∃ a l, f = .calset a l) → ∃ z, exec (.operationOutcome x) s = .next z ∧
          ((z.str x).core i).wait = .idle ∧ ((z.str x).core i).pc = (c.core i).pc + 4 ∧ (gd ≠ 0 → ((z.str x).core i).reg gd = o.value)))

/-- REGISTER_WRITE that is not permitted, or reaches no powered register, changes nothing; a firmware store to a plain
configuration register gives its RW fields the value's and changes no other register. RC_READ through DBG clears nothing; a
host read of a plain register with RC fields returns them to their Cold values, and one in a domain that is off counts a
completer abort. RING_CQCFG_ENABLE starts the queue's count at 0 where its base is aligned and it was off. SEQ_START_GO starts
exactly the cores 1 to 3 named that are not released, at 0x7F00_0100. BAR2_HOST_WRITE writes one word of the rings of the host
or of its staging area, but counts STBYWR for a ring on the standby. Of the debug block, while unlocked: HALT is refused but
in BOOT, IDLE and FAILED; STEP runs the instruction at a halted core's PC; a write of DBG_DATA reaches SRAM in the same roles;
a read moves DBG_ADDR on or sets DERR. While locked none of them has an effect; with the PCIe domain off no host access has. -/
def Obligations.RegistersAndDebug : Prop :=
  ∀ (s : State) (x : Str) (o : BitVec 18) (v : Word) (w : Writer) (n : Fin 16) (i : Fin 4) (b : BitVec 25),
    let c := s.str x
    let a := o.toNat / 4 * 4
    let who := if w = .host then Agent.host else if w = .firmware then Agent.core 0 1 false 0 else Agent.core 0 0 true 0
    let open_ := c.flag Reg.SEC_BOOT F.SEC_BOOT.DBGUNL
    let quiet := c.role = rBOOT ∨ c.role = rIDLE ∨ c.role = rFAILED;
    (((w = .host ∧ c.domOn 59 = false) ∨ (regAt a).isNone = true ∨ s.regOn x a = false ∨ storePerm c a v.toNat who = false) → exec (.registerWrite x o v w) s = .next s) ∧
    (a ∈ [Reg.PLAN_CFG, Reg.CAL_CFG, Reg.CAL_CFG2, Reg.RED_CFG, Reg.RED_SWAP, Reg.RTE_CFG, Reg.AGE_CFG, Reg.AGE_THR, Reg.ALV_CFG] →
      s.regOn x a = true → w = .firmware → ∃ d : StringSt, exec (.registerWrite x o v w) s = .next (s.setStr x d).capoSettle ∧ c.regsBut d [a] ∧
        ∀ f ∈ regFields a, bits (d.rd a) f.lo f.w =
          (if f.acc = .rw ∧ ¬(a = Reg.ALV_CFG ∧ f.lo = 0) then bits v.toNat f.lo f.w else bits (c.rd a) f.lo f.w)) ∧
    (exec (.rcRead x o true) s = .next s) ∧
    (c.domOn 59 = false → exec (.rcRead x o false) s = .next s ∧ exec (.bar2HostWrite x b v) s = .next s) ∧
    (c.domOn 59 = true → (regAt a).isSome = true → s.regOn x a = false → ∃ d, exec (.rcRead x o false) s = .next (s.setStr x d) ∧
      c.counts d Reg.PCIE_CNT F.PCIE_CNT.LO 1) ∧
    (c.domOn 59 = true → a ∈ [Reg.QSPI_CNT, Reg.EVF_CNT, Reg.AGE_CNT] → s.regOn x a = true → ∃ d, exec (.rcRead x o false) s = .next (s.setStr x d) ∧
      c.regsBut d [a] ∧ ∀ f ∈ regFields a, bits (d.rd a) f.lo f.w = if f.acc = .rc then f.cold else bits (c.rd a) f.lo f.w) ∧
    (let q := Reg.RING_CQCFG n;
      ∃ d : StringSt, exec (.ringCqcfgEnable x n) s = .next (s.setStr x d) ∧ StringSt.regsBut { c with ring := d.ring } d [q] ∧
        (c.rd (Reg.RING_CQBASE_L n) % 8192 ≠ 0 → d.cqEn n = false ∧ d.ring = c.ring) ∧
        (c.rd (Reg.RING_CQBASE_L n) % 8192 = 0 → d.cqEn n = true ∧ (c.cqEn n = true → d = c) ∧ (c.cqEn n = false →
          d.fld q F.RING_CQCFG.CNT = 0 ∧ ∀ f, c.flight n = some f → d.flight n = some (if f.cqEn = true ∧ f.oldCnt = none then
            { f with oldCnt := some (c.fld q F.RING_CQCFG.CNT) } else f)))) ∧
    (∃ d : StringSt, exec (.seqStartGo x n) s = .next (s.setStr x d) ∧ { d with regs := c.regs, cores := c.cores } = c ∧ ∀ j : Nat,
      ((1 ≤ j ∧ j < 4 ∧ bit n.val j = true ∧ (c.core j).run = .notReleased) → d.core j = { c.core j with run := .running, pc := 0x7F000100, text := c.sram } ∧
        d.domOn (1 + j) = true) ∧
      (¬(1 ≤ j ∧ j < 4 ∧ bit n.val j = true ∧ (c.core j).run = .notReleased) → d.core j = c.core j)) ∧
    (let e := b.toNat / 4 * 4;
      let ring := 0x440000 ≤ e ∧ e < 0x4C0000;
      let stage := 0x500000 ≤ e ∧ e < 0x600000;
      (c.domOn 59 = true → ring → c.role = rSTANDBY → ∃ d, exec (.bar2HostWrite x b v) s = .next (s.setStr x d) ∧ c.counts d Reg.RING_DISC F.RING_DISC.STBYWR 1) ∧
      (c.domOn 59 = true → (ring ∧ c.role ≠ rSTANDBY ∨ stage) → c.ramOk e 4 = true → ∃ d : StringSt, exec (.bar2HostWrite x b v) s = .next (s.setStr x d) ∧
        d.word e = v.toNat ∧ (∀ k, (k < e ∨ e + 4 ≤ k) → d.sram.byte k = c.sram.byte k) ∧ { d with sram := c.sram } = c) ∧
      (¬ring → ¬stage → exec (.bar2HostWrite x b v) s = .next s)) ∧
    (∀ on, (open_ = false ∨ c.domOn 1 = false ∨ c.domOn 59 = false → exec (.dbgCtlHalt x i on) s = .next s) ∧
      (open_ = true → c.domOn 1 = true → c.domOn 59 = true → ∃ d : StringSt, exec (.dbgCtlHalt x i on) s = .next (s.setStr x d) ∧
        { d with regs := c.regs, cores := c.cores } = c ∧ (∀ j : Nat, d.core j = if j = i ∧ ¬(on = true ∧ (c.core i).dbgHalt = false ∧ ¬quiet) then
          { c.core j with dbgHalt := on } else c.core j) ∧
        (on = true → (c.core i).dbgHalt = false → ¬quiet → d.flag Reg.DBG_STAT F.DBG_STAT.REFUSED = true) ∧
        ∀ j, j < 4 → bit (d.fld Reg.DBG_CTL F.DBG_CTL.HALT) j = (d.core j).dbgHalt)) ∧
    (∀ host, let ask := if host = true then open_ && c.domOn 1 && c.domOn 59 else bit c.dbgReq i;
      ((ask = false ∨ (c.core i).dbgHalt = false) → exec (.dbgCtlStep x i host) s = .next s) ∧
      (ask = true → (c.core i).dbgHalt = true →
        let u := if host = true then s else s.updStr x fun c => { c with dbgReq := putBit c.dbgReq i false };
        ∀ m, decodeInsn (fetchWord c i) = some m → exec (.dbgCtlStep x i host) s = .next (u.runInsn x i true .clean .clean m))) ∧
    (let d := c.rd Reg.DBG_ADDR;
      ((open_ = false ∨ c.domOn 1 = false) → exec (.dbgDataRead x) s = .next s ∧ exec (.dbgDataWrite x v) s = .next s) ∧
      (c.domOn 59 = false → exec (.dbgDataWrite x v) s = .next s) ∧
      (open_ = true → c.domOn 1 = true →
        ((s.dbgWord x d).isSome = true → ∃ e, exec (.dbgDataRead x) s = .next (s.setStr x e) ∧ c.regsBut e [Reg.DBG_ADDR] ∧
          e.rd Reg.DBG_ADDR = (d + 4) % 4294967296) ∧
        (s.dbgWord x d = none → ∃ e, exec (.dbgDataRead x) s = .next (s.setStr x e) ∧ c.regsBut e [Reg.DBG_STAT] ∧
          e.flag Reg.DBG_STAT F.DBG_STAT.DERR = true) ∧
        (c.domOn 59 = true → d < 0x02000000 → c.ramOk d 4 = true → quiet → ∃ e : StringSt, exec (.dbgDataWrite x v) s = .next (s.setStr x e) ∧ e.word d = v.toNat ∧
          (∀ k, (k < d ∨ d + 4 ≤ k) → e.sram.byte k = c.sram.byte k) ∧ e.rd Reg.DBG_ADDR = (d + 4) % 4294967296 ∧
          StringSt.regsBut { c with sram := e.sram } e [Reg.DBG_ADDR]) ∧
        (c.domOn 59 = true → ¬(d < 0x02000000 ∧ c.ramOk d 4 = true ∧ quiet) → ∃ e, exec (.dbgDataWrite x v) s = .next (s.setStr x e) ∧
          c.regsBut e [Reg.DBG_STAT] ∧ e.flag Reg.DBG_STAT F.DBG_STAT.DERR = true)))

/-- EVF_FIRE of a channel whose group is off counts in GATED, sets GATEDF and does nothing else; of a channel whose group is
on, which joins no consumer and which no core waits for, it sets SEEN, counts in COUNT and changes no other register.
EVF_CSTAT_CLEAR clears exactly the LINE bits that are written and set, with the latches of consumers 80 to 83.
RELAY_LATCH_EMPTY empties one latch. EVT_OUT_PULSE_END, from the pulse's end on, ends the pulse and empties latch 84.
CONSUMER_DEFERRED_ACT acts exactly where the activation is held and the domain is on: a LINE consumer sets its bit, a re-arm
consumer stores TIME_TOUTCFG and empties its latch. EVT_IN_EDGE holds the new level and fires producer 70 in each string whose
INEDGE names the edge, where the levels beside it last 10 ns or more. -/
def Obligations.EventFabricCommands : Prop :=
  ∀ (s : State) (x : Str) (ch : Fin 64) (v : Fin 16) (k : Fin 192) (rising : Bool) (held t : Nat),
    let c := s.str x
    let u := s.advance t
    let e := u.str x
    let others := fun (c d : StringSt) (j : Nat) => ∀ i, i ≠ j → d.latchFull i = c.latchFull i
    let fires := exec (.evfFireWrite x ch) s
    let o := Reg.EVF_CH ch;
    (c.grpOn ch = false → ∃ d : StringSt, fires = .next (s.setStr x d) ∧ c.regsBut d [Reg.EVF_CNT, o] ∧
      d.fld Reg.EVF_CNT F.EVF_CNT.GATED = min (2 ^ F.EVF_CNT.GATED.w - 1) (c.fld Reg.EVF_CNT F.EVF_CNT.GATED + 1) ∧
      d.fld Reg.EVF_CNT F.EVF_CNT.DROP = c.fld Reg.EVF_CNT F.EVF_CNT.DROP ∧ d.flag o F.EVF_CH.GATEDF = true ∧
      d.fld o F.EVF_CH.SEEN = c.fld o F.EVF_CH.SEEN ∧ d.fld o F.EVF_CH.COUNT = c.fld o F.EVF_CH.COUNT) ∧
    (c.grpOn ch = true → (∀ j, j < 92 → c.joins ch j = false) →
      (∀ i, i < 4 → ∀ gd n clear stop, (c.core i).wait ≠ .event gd n clear stop) →
      ∃ d : StringSt, fires = .next (s.setStr x d) ∧ StringSt.regsBut { c with evf := d.evf } d [o] ∧ d.flag o F.EVF_CH.SEEN = true ∧
        d.fld o F.EVF_CH.COUNT = min (2 ^ F.EVF_CH.COUNT.w - 1) (c.fld o F.EVF_CH.COUNT + 1) ∧
        d.fld o F.EVF_CH.GATEDF = c.fld o F.EVF_CH.GATEDF ∧ (∀ j, d.latchFull j = (c.latchFull j && j != 89 && j != 90))) ∧
    (∃ d : StringSt, exec (.evfCstatClear x v) s = .next (s.setStr x d) ∧ StringSt.regsBut { c with evf := d.evf } d [Reg.EVF_CSTAT] ∧
      (∀ j, j < 32 → bit (d.rd Reg.EVF_CSTAT) j = (bit (c.rd Reg.EVF_CSTAT) j && !(decide (j < 4) && bit v.val j))) ∧
      (∀ j, d.latchFull j = (c.latchFull j && !(decide (80 ≤ j ∧ j < 84) && bit v.val (j - 80) && bit (c.rd Reg.EVF_CSTAT) (j - 80)))) ∧
      { d.evf with full := c.evf.full } = c.evf) ∧
    (∃ d : StringSt, exec (.relayLatchEmpty x ch) s = .next (s.setStr x d) ∧ { d with evf := c.evf } = c ∧ d.latchFull ch = false ∧
      others c d ch ∧ { d.evf with full := c.evf.full } = c.evf) ∧
    ((∀ w, e.evf.outEnd = some w → e.time < w) → exec (.evtOutPulseEnd x t) s = .next u) ∧
    (∀ w, e.evf.outEnd = some w → w ≤ e.time → ∃ d : StringSt, exec (.evtOutPulseEnd x t) s = .next (u.setStr x d) ∧
      { d with evf := e.evf } = e ∧ d.evf.outEnd = none ∧ d.latchFull 84 = false ∧ others e d 84) ∧
    ((¬∃ n, StringSt.consumerDom k = some n ∧ c.domOn n = true ∧ c.evf.deferred.contains k.val = true) →
      exec (.consumerDeferredAct x k) s = .next s) ∧
    (∀ n, StringSt.consumerDom k = some n → c.domOn n = true → c.evf.deferred.contains k.val = true →
      ∃ d : StringSt, exec (.consumerDeferredAct x k) s = .next (s.setStr x d) ∧
        (k.val < 84 → bit (d.rd Reg.EVF_CSTAT) (k.val - 80) = true ∧ d.evf.deferred.contains k.val = false ∧
          StringSt.regsBut { c with evf := d.evf } d [Reg.EVF_CSTAT]) ∧
        (85 ≤ k.val → k.val < 89 → d.latchFull k = false ∧ d.evf.deferred.contains k.val = false ∧
          (let j := k.val - 85;
            StringSt.regsBut { c with evf := d.evf, tim := d.tim } d [Reg.TIME_TOUTCFG j] ∧
              d.tim = (c.toutStore j (c.rd (Reg.TIME_TOUTCFG j))).tim))) ∧
    (let w := { s with evtIn := rising };
      let f := fun (c : StringSt) =>
        if 10 * 65536 ≤ held ∧ bit (c.fld Reg.EVF_CFG F.EVF_CFG.INEDGE) (if rising then 0 else 1) = true then c.fire 70 else c;
      exec (.evtInEdge ⟨rising, held⟩) s = .next { w with a := f s.a, b := f s.b })

/-- A post to an empty mailbox leaves in it a header word with the length, the type, the next sequence number and the sender,
then the payload words and zeros; it is full, LASTSEQ and SRC are those of the message, no other mailbox's data or receiver
changes but for CROSSED marks, and producer 80 + k fires. A take leaves the mailbox empty, in plain mode with its data 0 and
ACKP set, and fires 96 + k. MBX_HPOST answers in MBX_HRES BADVAL for mailboxes 0 to 3 or more than 15 words, BUSY without
power (asking for a wake in DORMANT), FULL, or OK after the post; MBX_HTAKE BADVAL, BUSY, EMPTY, or OK or ORPHAN after the
take; with the PCIe domain off neither is reached. MBX_K4_HEADER_READ takes the message exactly in K4 mode, full, by the
receiver, powered, and not for the host at mailboxes 0 to 3. MBX_EPRST_WRITE resets the endpoints named, from the host
endpoint 4 only, and ENDPOINT_RESET endpoint 4: a full mailbox that receives loses its message, one whose sender it is is
marked. -/
def Obligations.MailboxCommands : Prop :=
  ∀ (s : State) (x : Str) (k : Fin 16) (e : Fin 5) (v : Fin 32) (host : Bool),
    let c := s.str x
    let n := k.val;
    (∀ src h l, c.mbxFull n = false → src < 5 → l.length ≤ 15 → ∃ d : StringSt, c.mbxPost n src h l = d.fire (80 + n) ∧ { d with regs := c.regs } = c ∧
      d.mbxFull n = true ∧ d.mbxSrc n = src ∧ d.mbxOrphan n = false ∧
      bits (d.rd (Reg.MBX_DATA n 0)) 0 28 = bits h 0 5 + 256 * bits h 8 8 + 65536 * ((c.fld (Reg.MBX_STAT n) F.MBX_STAT.LASTSEQ + 1) % 256) + 16777216 * src ∧
      d.fld (Reg.MBX_STAT n) F.MBX_STAT.LASTSEQ = (c.fld (Reg.MBX_STAT n) F.MBX_STAT.LASTSEQ + 1) % 256 ∧
      (∀ w, 1 ≤ w → w < 16 → d.rd (Reg.MBX_DATA n w) = l.getD (w - 1) 0 % 4294967296) ∧
      (∀ j, j < 16 → j ≠ n → d.mbxFull j = c.mbxFull j ∧ d.mbxSrc j = c.mbxSrc j ∧ ∀ w, 1 ≤ w → w < 16 →
        d.rd (Reg.MBX_DATA j w) = c.rd (Reg.MBX_DATA j w)) ∧
      (d.flag (Reg.MBX_STAT n) F.MBX_STAT.CROSSED = true ∨ d.flag (Reg.MBX_STAT n) F.MBX_STAT.CROSSED = c.flag (Reg.MBX_STAT n) F.MBX_STAT.CROSSED)) ∧
    (∃ d : StringSt, c.mbxTake n = d.fire (96 + n) ∧ c.regsBut d (Reg.MBX_STAT n :: (List.range 16).map (Reg.MBX_DATA n)) ∧
      d.mbxFull n = false ∧ d.mbxOrphan n = false ∧ (c.mbxK4 n = true → ∀ w, w < 16 → d.rd (Reg.MBX_DATA n w) = c.rd (Reg.MBX_DATA n w)) ∧
      (c.mbxK4 n = false → d.flag (Reg.MBX_STAT n) F.MBX_STAT.ACKP = true ∧ ∀ w, w < 16 → d.rd (Reg.MBX_DATA n w) = 0)) ∧
    (let h := c.rd (Reg.MBX_HSTAGE 0)
      let len := bits h 0 5
      let ends := fun (d : StringSt) (st : Nat) => exec (.mbxHpost x k) s = .next (s.setStr x (d.wr Reg.MBX_HRES (st + 256 * n)))
      let on := c.domOn 59 = true;
      (c.domOn 59 = false → exec (.mbxHpost x k) s = .next (s.setStr x c) ∧ exec (.mbxHtake x k) s = .next (s.setStr x c)) ∧
      (on → (n < 4 ∨ 15 < len) → ends c 0x14) ∧
      (on → 4 ≤ n → len ≤ 15 → c.domOn (c.mbxDom n) = false → ∃ d : StringSt, exec (.mbxHpost x k) s = .next (s.setStr x d) ∧
        d.rd Reg.MBX_HRES = 0x10 + 256 * n ∧ StringSt.regsBut { c with evf := d.evf } d [Reg.MBX_HRES] ∧
        d.evf.hostWake = (c.evf.hostWake || decide (c.fld Reg.PWR_STAT F.PWR_STAT.STATE = 2)) ∧ { d.evf with hostWake := c.evf.hostWake } = c.evf) ∧
      (on → 4 ≤ n → len ≤ 15 → c.domOn (c.mbxDom n) = true → c.mbxFull n = true → ends c 0x11) ∧
      (on → 4 ≤ n → len ≤ 15 → c.domOn (c.mbxDom n) = true → c.mbxFull n = false →
        ends (c.mbxPost n 4 h ((List.range len).map fun w => c.rd (Reg.MBX_HSTAGE (w + 1)))) 0)) ∧
    (c.domOn 59 = true →
      let ends := fun (d : StringSt) (st : Nat) => exec (.mbxHtake x k) s = .next (s.setStr x (d.wr Reg.MBX_HRES (st + 256 * n + 4096)));
      (n < 4 → ends c 0x14) ∧ (4 ≤ n → c.domOn (c.mbxDom n) = false → ends c 0x10) ∧
      (4 ≤ n → c.domOn (c.mbxDom n) = true → c.mbxFull n = false → ends c 0x12) ∧
      (4 ≤ n → c.domOn (c.mbxDom n) = true → c.mbxFull n = true → ends (c.mbxTake n) (if c.mbxOrphan n then 0x01 else 0))) ∧
    (let takes := c.domOn (c.mbxDom n) = true ∧ ¬(e.val = 4 ∧ n < 4) ∧ c.mbxK4 n = true ∧ c.mbxFull n = true ∧ c.mbxRcv n = e;
      (takes → exec (.mbxK4HeaderRead x k e) s = .next (s.setStr x (c.mbxTake n))) ∧
      (¬takes → exec (.mbxK4HeaderRead x k e) s = .next (s.setStr x c))) ∧
    (exec (.endpointReset x) s = .next (s.setStr x (c.endpointReset 4)) ∧
      (host = true → exec (.mbxEprstWrite x v true) s = .next (s.setStr x (if bit v.val 4 then c.endpointReset 4 else c))) ∧
      (host = false → exec (.mbxEprstWrite x v false) s =
        .next (s.setStr x (((List.range 5).filter fun e => bit v.val e).foldl (fun d e => d.endpointReset e) c)))) ∧
    (let d := c.endpointReset e;
      (∀ j, j < 16 → (c.mbxFull j = true → c.mbxRcv j = e → ∃ b : StringSt, c.mbxDiscard j = b.fire (96 + j) ∧ b.mbxFull j = false ∧
        b.flag (Reg.MBX_STAT j) F.MBX_STAT.RCVRST = true ∧
        b.fld (Reg.MBX_STAT j) F.MBX_STAT.LOSTSEQ = c.fld (Reg.MBX_STAT j) F.MBX_STAT.LASTSEQ ∧ ∀ w, w < 16 → b.rd (Reg.MBX_DATA j w) = 0)) ∧
      ((∀ j, j < 16 → c.mbxFull j = false) → d = c) ∧
      ((∀ j, j < 16 → c.mbxFull j = true → c.mbxRcv j ≠ e) → { d with regs := c.regs } = c ∧ ∀ j, j < 16 → d.mbxFull j = c.mbxFull j ∧
        (c.mbxFull j = true → c.mbxSrc j = e → d.mbxOrphan j = true) ∧ (c.mbxSrc j ≠ e → d.mbxOrphan j = c.mbxOrphan j)))

/-- A recording writes its four words (source, severity, forced, coincident, sequence; information; time while the time domain
is on) to its place in the ring of 256, counts LSEQ on, sets STICKY or FSTICKY, fills the first-fault record where it holds
none, fires 75 + severity, and for a FATAL source of the string drops the line and sets the role to FAILED. ALV_SRC_FORCE sets
FORCE and lets a forced occurrence be judged with the tiles' conditions of the same grant; of a reserved source it forces
nothing. ALV_HBEAT sets the deadline anew unless the heartbeat was missed, and marks a heartbeat within 10 % of it for the
health report. HEARTBEAT_MISS from the deadline on marks the miss, starts the watchdog where enabled and raises source 4.
ALIVE_TOGGLE toggles the pin while it may, else drives it low. TILE_FAILED, of a tile's own fault or after 64 frames without a
good record, raises tile source 0 as lasting. TILE_CONDITION_REPORT takes the next condition of each tile named, raises its
source and fires its producer. -/
def Obligations.RecorderCommands : Prop :=
  ∀ (s : State) (x : Str) (src : Fin 160) (v : Word) (n : Fin 8) (ns : List (Fin 8)) (fault : Bool) (t : Nat),
    let c := s.str x
    let u := s.advance t
    let e := u.str x;
    (∀ co info f sev, severity src = some sev → info < 4294967296 →
      let q := c.fld Reg.ALV_SUM F.ALV_SUM.LSEQ
      let a := 0x00F00000 + 16 * (q % 256)
      let o := Reg.ALV_SRC src;
      ∃ d : StringSt, c.record co (src, info, f) = (if sev = 3 ∧ src.val < 32 then (d.fire (75 + sev)).fatal else d.fire (75 + sev)) ∧
        d.word a = src + 256 * sev + 1024 * b2n f + 2048 * b2n co + 65536 * q ∧ d.word (a + 4) = info ∧
        d.word (a + 8) = (if c.domOn 60 then nsOf c.time else 0) ∧ d.word (a + 12) = (if c.domOn 60 then secOf c.time % 4294967296 else 0) ∧
        (∀ b, (b < a ∨ a + 16 ≤ b) → d.sram.byte b = c.sram.byte b) ∧
        d.fld Reg.ALV_SUM F.ALV_SUM.LSEQ = (q + 1) % 2 ^ F.ALV_SUM.LSEQ.w ∧
        (if f then d.flag o F.ALV_SRC.FSTICKY = true ∧ d.fld o F.ALV_SRC.STICKY = c.fld o F.ALV_SRC.STICKY
          else d.flag o F.ALV_SRC.STICKY = true ∧ d.fld o F.ALV_SRC.FSTICKY = c.fld o F.ALV_SRC.FSTICKY) ∧
        (c.flag Reg.ALV_FIRSTFAULT F.ALV_FIRSTFAULT.VALID = true → d.rd Reg.ALV_FIRSTFAULT = c.rd Reg.ALV_FIRSTFAULT) ∧
        (c.flag Reg.ALV_FIRSTFAULT F.ALV_FIRSTFAULT.VALID = false → d.flag Reg.ALV_FIRSTFAULT F.ALV_FIRSTFAULT.VALID = true ∧
          bits (d.rd Reg.ALV_FIRSTFAULT) 0 10 = src + 256 * sev ∧ d.rd Reg.ALV_FIRSTINFO = info) ∧
        d.alv.total = c.alv.total + 1 ∧ d.cores = c.cores ∧ d.ring = c.ring) ∧
    ((c.fatal).red.line = false ∧ (c.fatal).role = rFAILED ∧ (c.fatal).joined = false ∧ (c.fatal).alv.fatal = true ∧ (c.fatal).sram = c.sram) ∧
    (let r := s.takeConds x (ns.map Fin.val);
      exec (.tileConditionReport x ns) s = .next (r.2.2.setStr x ((c.occurs r.1).fireAll r.2.1)).capoSettle ∧
      (severity src = none → exec (.alvSrcForce x ⟨src, ns⟩) s = .next (r.2.2.setStr x ((c.occurs r.1).fireAll r.2.1)).capoSettle) ∧
      ∀ sev, severity src = some sev → ∃ d : StringSt,
        exec (.alvSrcForce x ⟨src, ns⟩) s = .next (r.2.2.setStr x ((d.occurs ((src.val, 0, true) :: r.1)).fireAll r.2.1)).capoSettle ∧
        d.flag (Reg.ALV_SRC src) F.ALV_SRC.FORCE = true ∧ StringSt.regsBut { c with alv := d.alv } d [Reg.ALV_SRC src] ∧
        d.alv = (if sev = 3 ∧ src.val < 32 then { c.alv with fatal := true } else c.alv)) ∧
    (∃ d : StringSt, exec (.alvHbeat x v t) s = .next (u.setStr x d) ∧
      StringSt.regsBut { e with alv := d.alv, red := { e.red with flagAt := d.red.flagAt } } d [Reg.ALV_HBEAT] ∧
      d.rd Reg.ALV_HBEAT = v.toNat ∧ (e.alv.missed = true → d.alv = e.alv ∧ d.red = e.red) ∧
      (e.alv.missed = false → Tab.get (fun _ => none) d.red.flagAt 2 =
        if e.alv.deadline.isSome = true ∧ e.alv.suspended = false ∧ e.hbLeft * 10 * 655360000 ≤ e.hbSpan then some e.time
        else Tab.get (fun _ => none) e.red.flagAt 2) ∧
      (e.alv.missed = false → d.alv.suspended = false ∧
        d.alv.deadline = some (e.time + max 1 (e.fld Reg.ALV_CFG F.ALV_CFG.HBDL) * 100 * 65536000))) ∧
    ((∀ w, e.alv.deadline = some w → ¬(w ≤ e.time ∧ e.alv.missed = false ∧ e.alv.suspended = false)) →
      exec (.heartbeatMiss x t) s = .next (u.setStr x e).capoSettle) ∧
    (∀ w, e.alv.deadline = some w → w ≤ e.time → e.alv.missed = false → e.alv.suspended = false →
      ∃ d : StringSt, exec (.heartbeatMiss x t) s = .next (u.setStr x (d.occurLive 4 0)).capoSettle ∧ { d with alv := e.alv } = e ∧
        d.alv.missed = true ∧ d.alv.minLeft = some 0 ∧ d.alv.wdAt = (if e.flag Reg.ALV_CFG F.ALV_CFG.WDEN then
          some (w + max 1 (e.fld Reg.ALV_CFG F.ALV_CFG.WDDLY) * 65536000000) else none)) ∧
    (let due := fun (w : Nat) => c.alv.suspended || decide (c.time < w);
      let on := c.alv.deadline.any due && !c.alv.missed && !c.alv.fatal && decide (c.role ≠ rBOOT) && !c.alv.alive;
      exec (.aliveToggle x) s = .next (s.setStr x { c with alv := { c.alv with alive := on } })) ∧
    (let heard := Tab.get (fun _ => 0) e.eng.heard n.val;
      ((fault = true ∨ heard + 64 * 655360000 ≤ e.time) → ∃ d : StringSt,
        exec (.tileFailed x ⟨n, fault, t⟩) s = .next (u.setStr x (d.occur (32 + 16 * n.val) 0)) ∧
        d.flag (Reg.ALV_SRC (32 + 16 * n.val)) F.ALV_SRC.LIVE = true ∧ e.regsBut d [Reg.ALV_SRC (32 + 16 * n.val)]) ∧
      (fault = false → e.time < heard + 64 * 655360000 → exec (.tileFailed x ⟨n, fault, t⟩) s = .next u)) ∧
    (let isCond := fun (r : TRep) => ∃ k i p, r = .cond k i p;
      ((∀ r ∈ (s.tile n).reports x, ¬isCond r) → exec (.tileConditionReport x [n]) s = .next s.capoSettle) ∧
      ∀ k i p rest, oldest isCond ((s.tile n).reports x) (.cond k i p) rest →
        let d := k.elim c fun k => c.occur (32 + 16 * n.val + k) i
        let f := p.elim d fun p => d.fire (8 * n.val + p);
        exec (.tileConditionReport x [n]) s = .next (((s.setTile n ((s.tile n).setReports x rest)).setStr x f).capoSettle))

/-- On a tile whose control domain is on, the oldest message of its kind from string x is taken (none: nothing changes); of a
string outside the command order it is discarded and counted in TLK_DISC. SHARE_STAGE places the share in a free buffer that
it may use, with the shapes that its entries name copied, and acknowledges it; it refuses it from 5 us before t_s on, in tile
hold, in the power state HOLD or without a buffer; a share that is already staged is acknowledged and changes no buffer.
SHARE_DIGEST of a share held reports to both strings where the digest differs. WITHDRAW_REQUEST suspends a staged share more
than 5 us before t_s, or at any time to undo a staging, and accepts, else refuses. WITHDRAW_COMMIT frees the buffer of a
suspended share, WITHDRAW_RESTORE makes it staged again, and both acknowledge. The answer goes to the string that asked, and
nothing else of the tile changes. -/
def Obligations.SharesInTile : Prop :=
  ∀ (s : State) (x : Str) (n : Fin 8) (t : Nat),
    let link := fun (v : State) => (v.str x).toTile
    let after := fun (v : State) (rest : List (Nat × TMsg)) (e : TileSt) => (v.updStr x fun c => { c with toTile := rest }).setTile n e
    let answers := fun (d e : TileSt) (r : TRep) => { e with bufs := d.bufs, toA := d.toA, toB := d.toB } = d ∧
      e.reports x = d.reports x ++ [r] ∧ e.reports x.other = d.reports x.other
    let mine := fun (p : TMsg → Prop) (q : Nat × TMsg) => q.1 = n ∧ p q.2
    let isShare := fun m => ∃ k q ts cal l g, m = TMsg.share k q ts cal l g
    let isDigest := fun m => ∃ k q g, m = TMsg.digest k q g
    let isWithdraw := fun m => ∃ k q w, m = TMsg.withdraw k q w
    let isCommit := fun m => ∃ k q, m = TMsg.commit k q
    let isRestore := fun m => ∃ k q, m = TMsg.restore k q
    let u := s.advance t
    let only := fun (d e : TileSt) (b : Nat) => ∀ j, j ≠ b → e.buf j = d.buf j;
    ((u.tile n).domOn 0 = false ∨ (∀ q ∈ link u, ¬mine isShare q) → exec (.shareStage n x t) s = .next u) ∧
    ((u.tile n).domOn 0 = false ∨ (∀ q ∈ link u, ¬mine isWithdraw q) → exec (.withdrawRequest n x t) s = .next u) ∧
    ((s.tile n).domOn 0 = false ∨ (∀ q ∈ link s, ¬mine isDigest q) → exec (.shareDigest n x) s = .next s) ∧
    ((s.tile n).domOn 0 = false ∨ (∀ q ∈ link s, ¬mine isCommit q) → exec (.withdrawCommit n x) s = .next s) ∧
    ((s.tile n).domOn 0 = false ∨ (∀ q ∈ link s, ¬mine isRestore q) → exec (.withdrawRestore n x) s = .next s) ∧
    (∀ m rest, (s.tile n).domOn 0 = true → s.inOrder x = false →
      (oldest (mine isDigest) (link s) (n.val, m) rest → ∃ c, exec (.shareDigest n x) s = .next (s.setStr x c) ∧
        StringSt.counts { s.str x with toTile := rest } c (Reg.TLK_DISC n) F.TLK_DISC.DISC 1) ∧
      (oldest (mine isCommit) (link s) (n.val, m) rest → ∃ c, exec (.withdrawCommit n x) s = .next (s.setStr x c) ∧
        StringSt.counts { s.str x with toTile := rest } c (Reg.TLK_DISC n) F.TLK_DISC.DISC 1) ∧
      (oldest (mine isRestore) (link s) (n.val, m) rest → ∃ c, exec (.withdrawRestore n x) s = .next (s.setStr x c) ∧
        StringSt.counts { s.str x with toTile := rest } c (Reg.TLK_DISC n) F.TLK_DISC.DISC 1)) ∧
    (∀ m rest, (u.tile n).domOn 0 = true → u.inOrder x = false →
      (oldest (mine isShare) (link u) (n.val, m) rest → ∃ c, exec (.shareStage n x t) s = .next (u.setStr x c) ∧
        StringSt.counts { u.str x with toTile := rest } c (Reg.TLK_DISC n) F.TLK_DISC.DISC 1) ∧
      (oldest (mine isWithdraw) (link u) (n.val, m) rest → ∃ c, exec (.withdrawRequest n x t) s = .next (u.setStr x c) ∧
        StringSt.counts { u.str x with toTile := rest } c (Reg.TLK_DISC n) F.TLK_DISC.DISC 1)) ∧
    (∀ k q ts cal l g rest, (u.tile n).domOn 0 = true → u.inOrder x = true → oldest (mine isShare) (link u) (n.val, .share k q ts cal l g) rest →
      let d := u.tile n;
      ∃ e : TileSt, exec (.shareStage n x t) s = .next (after u rest e) ∧
        ((d.bufs.any fun b => decide (b.2.state ≠ .free ∧ b.2.armSeq = q)) = true → answers d e (.stageAck k q true) ∧ e.bufs = d.bufs) ∧
        ((d.bufs.any fun b => decide (b.2.state ≠ .free ∧ b.2.armSeq = q)) = false →
          (∀ b, d.freeBufFor cal = some b → d.time + 5 * usT < ts → d.hold = false → d.pwrHold = false → b < 4 ∧ (d.buf b).state = .free ∧
            answers d e (.stageAck k q true) ∧ only d e b ∧
            (let w := fun (m : ShareMsg) => d.rd (Reg.TILE_BOWSHAPE (m.shape % 16));
              e.buf b = ⟨.staged, cal, k, q, ts, l.map fun m => ⟨m.act, m.p1, m.te, bits (w m) 0 8, bits (w m) 8 3, bits (w m) 12 3⟩, g, false, []⟩)) ∧
          ((d.freeBufFor cal = none ∨ ts ≤ d.time + 5 * usT ∨ d.hold = true ∨ d.pwrHold = true) →
            answers d e (.stageAck k q false) ∧ e.bufs = d.bufs))) ∧
    (∀ k q g rest, (s.tile n).domOn 0 = true → s.inOrder x = true → oldest (mine isDigest) (link s) (n.val, .digest k q g) rest →
      let d := s.tile n;
      exec (.shareDigest n x) s = .next (after s rest ((d.bufOf q).elim d fun b => if b.2.digest = g then d else d.report (.digest k q)))) ∧
    (∀ k q undo rest, (u.tile n).domOn 0 = true → u.inOrder x = true → oldest (mine isWithdraw) (link u) (n.val, .withdraw k q undo) rest →
      let d := u.tile n;
      ∃ e : TileSt, exec (.withdrawRequest n x t) s = .next (after u rest e) ∧
        (∀ b f, d.bufOf q = some (b, f) → f.state = .staged → (undo = true ∨ d.time + 5 * usT < f.ts) →
          answers d e (.withdrawReply k q true) ∧ only d e b ∧ e.buf b = { f with state := .suspended }) ∧
        ((∀ b f, d.bufOf q = some (b, f) → ¬(f.state = .staged ∧ (undo = true ∨ d.time + 5 * usT < f.ts))) →
          answers d e (.withdrawReply k q false) ∧ e.bufs = d.bufs)) ∧
    (∀ k q rest, (s.tile n).domOn 0 = true → s.inOrder x = true → oldest (mine isCommit) (link s) (n.val, .commit k q) rest →
      let d := s.tile n;
      ∃ e : TileSt, exec (.withdrawCommit n x) s = .next (after s rest e) ∧ answers d e (.withdrawAck k q) ∧
        (∀ b f, d.bufOf q = some (b, f) → f.state = .suspended → e.buf b = Buf.cold ∧ only d e b) ∧
        ((∀ b f, d.bufOf q = some (b, f) → f.state ≠ .suspended) → e.bufs = d.bufs)) ∧
    (∀ k q rest, (s.tile n).domOn 0 = true → s.inOrder x = true → oldest (mine isRestore) (link s) (n.val, .restore k q) rest →
      let d := s.tile n;
      ∃ e : TileSt, exec (.withdrawRestore n x) s = .next (after s rest e) ∧ answers d e (.withdrawAck k q) ∧
        (∀ b f, d.bufOf q = some (b, f) → f.state = .suspended → e.buf b = { f with state := .staged } ∧ only d e b) ∧
        ((∀ b f, d.bufOf q = some (b, f) → f.state ≠ .suspended) → e.bufs = d.bufs))

/-- Each command takes the oldest report of its kind from the tile (none: nothing changes). SHARE_ACK notes the answer; when
every tile concerned has accepted, the chain of a PLARM is ARMED, its stroke is kept, and its core completes with OK; when all
have refused it completes with STAGEFAIL; with some of each the shares placed are withdrawn. WITHDRAW_REPLY notes the answer,
and with all of them sends COMMIT to all, or RESTORE to those that accepted. WITHDRAW_ACK notes it; with all of them a COMMIT
of an armed stroke withdraws it, counts and completes PLCANCEL with OK, a RESTORE counts and completes it with BUSY.
STROKE_REPORT and MISSED_REPORT mark the tile in the stroke, once, and fire the tile's producer; a joining string keeps the
report; a played report's adopted codes enter the actuator records; the first missed share of a stroke is counted. A missed
report drops the stroke's route changes on the string that holds the line; the standby takes the drop from the command order. -/
def Obligations.ReportsOfTiles : Prop :=
  ∀ (s : State) (x : Str) (n : Fin 8),
    let c := s.str x
    let d := s.tile n
    let none_ := fun (p : TRep → Prop) => ∀ r ∈ d.reports x, ¬p r
    let after := fun (rest : List TRep) => s.setTile n (d.setReports x rest)
    let isAck := fun r => ∃ k q ok, r = TRep.stageAck k q ok
    let isReply := fun r => ∃ k q ok, r = TRep.withdrawReply k q ok
    let isWack := fun r => ∃ k q, r = TRep.withdrawAck k q
    let isPlayed := fun r => ∃ k q o l, r = TRep.played k q o l
    let isMissed := fun r => ∃ k q, r = TRep.missed k q
    let known := fun (q : Nat) => c.plan.strokes.any fun k => k.armSeq == q && (bit k.played n || bit k.missed n)
    let fires := fun (q p : Nat) (e w : StringSt) => if known q = true then w = c else
      ∃ f : Stroke → Stroke, w = (e.fire p).updStroke q f ∧ ∀ k, { f k with lit := k.lit } = k
    let bitN := 2 ^ n.val
    let ended := fun (e : StringSt) (i gd st : Nat) => (e.core i).wait = .idle ∧ (e.core i).run = .running ∧ (e.core i).pc = (c.core i).pc + 4 ∧
      (gd ≠ 0 → (e.core i).reg gd = st)
    (none_ isAck → exec (.shareAck x n) s = .next s) ∧ (none_ isReply → exec (.withdrawReply x n) s = .next s) ∧
    (none_ isWack → exec (.withdrawAck x n) s = .next s) ∧ (none_ isPlayed → exec (.strokeReport x n) s = .next s) ∧
    (none_ isMissed → exec (.missedReport x n) s = .next s) ∧
    (∀ k q ok rest, oldest isAck (d.reports x) (.stageAck k q ok) rest →
      ((∀ g ∈ c.plan.arming, g.stroke.armSeq ≠ q) → exec (.shareAck x n) s = .next ((after rest).setStr x c)) ∧
      ∀ g, c.plan.arming.find? (fun g => g.stroke.armSeq == q) = some g →
        let acked := if ok then g.acked ||| bitN else g.acked
        let refused := if ok then g.refused else g.refused ||| bitN;
        (acked ||| refused ≠ g.stroke.tiles → ∃ e : StringSt, exec (.shareAck x n) s = .next ((after rest).setStr x e) ∧
          { e with plan := c.plan } = c ∧ e.plan.arming.find? (fun g => g.stroke.armSeq == q) = some { g with acked := acked, refused := refused }) ∧
        (∀ i, acked ||| refused = g.stroke.tiles → g.core = some i → i < 4 → g.gd < 32 → (c.core i).wait = .arm g.gd g.stroke.slot →
          g.stroke.cal = false → ∃ e : StringSt, exec (.shareAck x n) s = .next ((after rest).setStr x e) ∧
            (∀ h ∈ e.plan.arming, h.stroke.armSeq ≠ q) ∧
            (refused = 0 → ended e i g.gd 0 ∧ e.plan.strokes = c.plan.strokes ++ [g.stroke] ∧
              (g.stroke.chain = [g.stroke.slot] → g.stroke.slot < 128 → e.slotState g.stroke.slot = slARMED)) ∧
            (acked = 0 → refused ≠ 0 → ended e i g.gd 0x19 ∧ e.plan.strokes = c.plan.strokes ∧ e.toTile = c.toTile) ∧
            (acked ≠ 0 → refused ≠ 0 → (e.core i).wait = .arm g.gd g.stroke.slot ∧
              e.toTile = c.toTile ++ (StringSt.tileList acked).map (fun m => (m, .withdraw g.stroke.slot q true)) ∧
              e.plan.withdrawing = c.plan.withdrawing ++ [⟨g.core, g.gd, some 0x19, g.stroke.slot, q, acked, 0, 0, false, none, 0, 0⟩]))) ∧
    (∀ k q ok rest, oldest isReply (d.reports x) (.withdrawReply k q ok) rest →
      ((∀ w ∈ c.plan.withdrawing, w.armSeq ≠ q) → exec (.withdrawReply x n) s = .next ((after rest).setStr x c)) ∧
      ∀ w, c.plan.withdrawing.find? (fun w => w.armSeq == q) = some w →
        let replied := w.replied ||| bitN
        let yes := if ok then w.accepted ||| bitN else w.accepted
        let all := yes = w.tiles ∨ w.undo.isSome = true;
        ∃ e : StringSt, exec (.withdrawReply x n) s = .next ((after rest).setStr x e) ∧
          (replied ≠ w.tiles → { e with plan := c.plan } = c ∧
            e.plan.withdrawing.find? (fun w => w.armSeq == q) = some { w with replied := replied, accepted := yes }) ∧
          (replied = w.tiles → all → yes ≠ 0 →
            e.toTile = c.toTile ++ (StringSt.tileList yes).map (fun m => (m, .commit w.slot q)) ∧
            e.plan.withdrawing.find? (fun w => w.armSeq == q) = some { w with replied := replied, accepted := yes, sent := some true, asked := yes }) ∧
          (replied = w.tiles → ¬all → yes ≠ 0 →
            e.toTile = c.toTile ++ (StringSt.tileList yes).map (fun m => (m, .restore w.slot q)) ∧
            e.plan.withdrawing.find? (fun w => w.armSeq == q) = some { w with replied := replied, accepted := yes, sent := some false, asked := yes })) ∧
    (∀ k q rest, oldest isWack (d.reports x) (.withdrawAck k q) rest →
      ∀ w ok, c.plan.withdrawing.find? (fun w => decide (w.armSeq = q) && w.sent.isSome) = some w → w.sent = some ok →
        let acked := w.acked ||| bitN;
        ∃ e : StringSt, exec (.withdrawAck x n) s = .next ((after rest).setStr x e) ∧
          (acked ≠ w.asked → { e with plan := c.plan } = c ∧ { e.plan with withdrawing := c.plan.withdrawing } = c.plan) ∧
          (∀ i st, acked = w.asked → w.undo = none → w.core = some i → i < 4 → w.gd < 32 → (c.core i).wait = .cancel w.gd w.slot →
            c.plan.strokes.find? (fun k => k.armSeq == q) = some st → st.cal = false → ended e i w.gd (if ok then 0 else 0x10) ∧
            (ok = true → (∀ k ∈ e.plan.strokes, k.armSeq = q → k.withdrawn = true) ∧
              e.fld Reg.PLAN_CANCEL F.PLAN_CANCEL.LO = min (2 ^ F.PLAN_CANCEL.LO.w - 1) (c.fld Reg.PLAN_CANCEL F.PLAN_CANCEL.LO + 1)) ∧
            (ok = false → e.plan.strokes = c.plan.strokes ∧
              e.fld Reg.PLAN_CANCEL F.PLAN_CANCEL.HI = min (2 ^ F.PLAN_CANCEL.HI.w - 1) (c.fld Reg.PLAN_CANCEL F.PLAN_CANCEL.HI + 1)))) ∧
    (∀ k q o l rest, oldest isPlayed (d.reports x) (.played k q o l) rest →
      (c.role = rJOINING → exec (.strokeReport x n) s =
        .next ((after rest).setStr x { c with red := { c.red with reports := c.red.reports ++ [(n.val, q, true, l)] } })) ∧
      (c.role ≠ rJOINING → (s.str x.other).role ≠ rJOINING → ∃ e w : StringSt,
        exec (.strokeReport x n) s = .next ((after rest).setStr x w) ∧ fires q (8 * n.val + 2) e w ∧
        ∀ st, known q = false → c.plan.strokes.find? (fun k => k.armSeq == q) = some st → bit st.tiles n = true → bit st.played n = false → bit st.missed n = false →
          (∃ r ∈ e.plan.strokes, r.armSeq = q ∧ r.played = st.played + bitN ∧ r.missed = st.missed ∧
            (r.past = true ↔ (st.past = true ∨ st.played + bitN + st.missed = st.tiles))) ∧
          (∀ a v, l = [(a, v)] → a < 2048 → st.slot < 128 → st.played + bitN + st.missed ≠ st.tiles →
            e.word (actRec (2048 * n.val + a)) % 65536 = v % 65536))) ∧
    (∀ k q rest, oldest isMissed (d.reports x) (.missed k q) rest →
      (c.role = rJOINING → exec (.missedReport x n) s =
        .next ((after rest).setStr x { c with red := { c.red with reports := c.red.reports ++ [(n.val, q, false, [])] } })) ∧
      (c.role = rSTANDBY → ∃ e w : StringSt, exec (.missedReport x n) s = .next (((after rest).setStr x w).drainDrops x) ∧
        fires q (8 * n.val + 3) e w ∧ ∀ st, known q = false → c.plan.strokes.find? (fun k => k.armSeq == q) = some st → bit st.tiles n = true → bit st.played n = false → bit st.missed n = false →
          (∃ r ∈ e.plan.strokes, r.armSeq = q ∧ r.missed = st.missed + bitN ∧ r.played = st.played) ∧
          (st.missed = 0 → st.played + bitN ≠ st.tiles →
            e.fld Reg.PLAN_STROKES F.PLAN_STROKES.HI = min (2 ^ F.PLAN_STROKES.HI.w - 1) (c.fld Reg.PLAN_STROKES F.PLAN_STROKES.HI + 1))) ∧
      (c.holds = true → ∃ v, exec (.missedReport x n) s = .next v ∧ (∀ p ∈ (v.str x).rte.pend, p.armSeq ≠ q) ∧
        ∀ st, known q = false → c.plan.strokes.find? (fun k => k.armSeq == q) = some st → bit st.tiles n = true → bit st.played n = false → bit st.missed n = false →
          ∃ r ∈ (v.str x).plan.strokes, r.armSeq = q ∧ r.missed = st.missed + bitN ∧ r.dropped = true))

/-- On a tile whose control domain is on. STROKE_START with nothing due changes no tile; one staged share that is due plays:
its channel keeps the bow from its power at that moment, loads the bow's level and no other channel's power changes; in tile
hold it is reported missed and its buffer freed. BOW_STEP, but in tile hold, loads each bow's level. SETTLE_HOLD_END ends
every bow whose t_e has come; a channel without a running loop takes P1 as OPEN_CODE; a buffer whose channels have all passed
is freed and reported played, with every channel that took its P1. FRAME_CODE_LOAD with a record of the capo string ends tile
hold; with the loads within the allowance each free channel loads its loop's code or OPEN_CODE; a frame of the fastest loop
without a record is counted; in tile hold without a record no channel changes. MISSED_CODES_HOLD enters tile hold exactly
after 16 missed frames. CAPO_SAMPLE, 1 us before a frame, takes the lines as they are seen through the deglitch: with one
alone asserted the tile follows it, otherwise it enters tile hold, free-runs and reports; its copy of time follows from the
frame on. -/
def Obligations.StrokesAndHold : Prop :=
  ∀ (s : State) (n : Fin 8) (t : Nat),
    let u := s.advance t
    let d := u.tile n
    let tidy := Tab.wf (fun _ => Chan.cold) d.chans = true
    let grid := d.time / gridT * gridT;
    d.domOn 0 = true →
    (∃ e : TileSt, exec (.strokeStart n t) s = .next ((u.setTile n e).updBoth fun c =>
        State.beginStrokes c n (e.chans.filterMap fun q => q.2.bow.map fun b => (q.1, b))) ∧
      ((∀ b ∈ d.bufs, b.2.ts ≤ grid → b.2.state ≠ .staged ∧ b.2.state ≠ .suspended) → e = d) ∧
      ∀ k b, d.bufs = [(k, b)] → b.state = .staged → b.ts ≤ grid →
        (d.hold = true → e.bufs = [] ∧ e.chans = d.chans ∧ e.toA = d.toA ++ [.missed b.slot b.armSeq] ∧
          e.toB = d.toB ++ [.missed b.slot b.armSeq]) ∧
        (∀ a p1 te g n1 n2, tidy → d.hold = false → b.ents = [⟨a, p1, te, g, n1, n2⟩] → ∃ w, (e.chan a).bow = some w ∧
          w = ⟨k, b.armSeq, (d.chan a).power, p1, g, n1, n2, b.ts, te, w.clip⟩ ∧ (e.chan a).power = w.level grid ∧
          (e.buf k).state = .playing ∧ ∀ i, i ≠ a → (e.chan i).power = (d.chan i).power)) ∧
    (∃ e : TileSt, exec (.bowStep n t) s = .next (u.setTile n e) ∧ (d.hold = true → e = d) ∧
      (tidy → d.hold = false → (∀ i b, (d.chan i).bow = some b → b.ts < grid → grid ≤ b.te → ∃ w, (e.chan i).bow = some w ∧
          { w with clip := b.clip } = b ∧ (b.clip = true → w.clip = true) ∧ (e.chan i).power = w.level grid) ∧
        ∀ i, (d.chan i).bow = none → e.chan i = d.chan i)) ∧
    (∃ e : TileSt, exec (.settleHoldEnd n t) s = .next (u.setTile n e) ∧
      (tidy → ∀ i b, (d.chan i).bow = some b → (b.te ≤ d.time → (e.chan i).bow = none ∧ (e.chan i).lastTe = some b.te ∧
          (e.chan i).openCode = if (d.chan i).loop = none then b.p1 else (d.chan i).openCode) ∧
        (d.time < b.te → e.chan i = d.chan i)) ∧
      (tidy → ∀ k f, d.bufs = [(k, f)] → f.state = .playing → (∀ i b, (d.chan i).bow = some b → b.te ≤ d.time) →
        e.bufs = [] ∧ ∃ l, .played f.slot f.armSeq f.odclip l ∈ e.toA ∧ .played f.slot f.armSeq f.odclip l ∈ e.toB ∧ (∀ o ∈ f.opened, o ∈ l) ∧
          ∀ i b, (d.chan i).bow = some b → b.buf = k → (d.chan i).loop = none → (i, b.p1) ∈ l)) ∧
    (let b := d.time / frameT * frameT
      let got := d.capo.bind fun y => d.codeRec y (frameOf b);
      ∃ e : TileSt, exec (.frameCodeLoad n t) s = .next (u.setTile n e) ∧ e.hold = (d.hold && got.isNone) ∧
        (∀ r, r ∈ e.codesA ↔ r ∈ d.codesA ∧ frameOf b < r.frame) ∧ (∀ r, r ∈ e.codesB ↔ r ∈ d.codesB ∧ frameOf b < r.frame) ∧
        (d.hold = true → got = none → e.chans = d.chans) ∧ (got.isSome = true → e.missRun = 0) ∧
        (∀ r, got = none → d.fastest = some r → e.missRun =
          if b % (frameT * 2 ^ (r % 4)) = 0 then min 65535 (d.missRun + 1) else d.missRun) ∧
        (∀ r, tidy → got = some r → r.running = none → d.starting b = [] → d.steadyWith [] (d.frameLoads b [] r.codes) ≤ d.allowance →
          ∀ i, (d.chan i).bow = none → (d.chan i).lastTe ≠ some b →
            ((d.chan i).loop = none → (e.chan i).power = (d.chan i).openCode) ∧
            ∀ rate code, (d.chan i).loop = some rate →
              r.codes.find? (fun k => k.1 == i) = some (i, code) → (e.chan i).power = code)) ∧
    (∃ e : TileSt, exec (.missedCodesHold n t) s = .next (u.setTile n e) ∧ (d.missRun < 16 ∨ d.hold = true → e = d) ∧
      (16 ≤ d.missRun → d.hold = false → e.hold = true ∧ e.toA = d.toA ++ [.cond none 0 (some 7), .cond (some 3) 0 none] ∧
        e.toB = d.toB ++ [.cond none 0 (some 7), .cond (some 3) 0 none])) ∧
    (let la := u.a.lineSeen
      let lb := u.b.lineSeen
      let b0 := (d.time / frameT + 1) * frameT
      let due := d.time + usT ≤ b0 + nsT ∧ b0 ≤ d.time + usT
      let lone := fun (y : Str) => if y = .a then la && !lb else lb && !la;
      ∃ e : TileSt, exec (.capoSample n t) s = .next (u.setTile n e).capoSettle ∧ (¬due → e = d) ∧
        (due → e.capoA = la ∧ e.capoB = lb ∧ e.slaveAt = b0 ∧ e.slave = d.slaveNow ∧
          (∀ y, lone y = true → e.master = some y ∧ e.hold = d.hold ∧ e.toA = d.toA ∧ e.toB = d.toB ∧
            e.cmpFrom = if d.master = some y then d.cmpFrom else none) ∧
          (la = lb → e.hold = true ∧ e.freeRun = true ∧
            e.toA = d.toA ++ (if d.hold then [] else [.cond none 0 (some 7)]) ++ [.cond (some (if la then 1 else 2)) 0 none])))

/-- CODE_RECORD of a string that serves phrases or stands by: by 500 ns before its boundary the tile keeps the codes due and
the string holds them no more; later the tile keeps none and LATE counts them; TLK_CODES counts the frame. CODE_DEADLINE while
COMPARE is on counts in both strings one differing code, or a record missing of the other string or of the capo string, or a
code that is due and in neither, and reports the first and the last two. ERROR_RECORD_SEND reports to both strings a record of
the boundary's frame, with the next record number and reason NOPILOT for a channel without amplitude. ERROR_RECORD_RECEIVE
counts a failed link check, a bad header, or the records lost, and keeps the record. RECORD_FETCH, 4 us after the boundary,
asks the partner for a missing record, or declares it absent without one. PARTNER_RECORD_REQUEST gives the partner the record,
or lets it declare it absent. -/
def Obligations.CodesAndRecords : Prop :=
  ∀ (s : State) (x : Str) (n : Fin 8) (f t : Nat) (hdr : BitVec 11) (check : Bool),
    let u := s.advance t
    let c := u.str x
    let d := u.tile n;
    (c.holds = false → c.role ≠ rSTANDBY → exec (.codeRecord n x f t) s = .next u) ∧
    ((c.holds = true ∨ c.role = rSTANDBY) →
      let l := State.codesFor c n f;
      ∃ (e : TileSt) (g : StringSt), exec (.codeRecord n x f t) s = .next ((u.setTile n e).setStr x g) ∧
        g.rd (Reg.TLK_CODES n) = (c.rd (Reg.TLK_CODES n) + 1) % 4294967296 ∧ (∀ k ∈ g.eng.codes, ¬(k.1 = n.val ∧ k.2.1 = f)) ∧
        (∀ k ∈ c.eng.codes, ¬(k.1 = n.val ∧ k.2.1 = f) → k ∈ g.eng.codes) ∧ { g with regs := c.regs, eng := c.eng, red := c.red } = c ∧
        (d.time + 500 * nsT ≤ f * frameT → (∃ r, e.codeRec x f = some r ∧ r.codes = l) ∧ (∀ k, k ≠ f → e.codeRec x k = d.codeRec x k) ∧
          e.codeRec x.other f = d.codeRec x.other f ∧ { e with codesA := d.codesA, codesB := d.codesB } = d ∧
          g.fld (Reg.TLK_DISC n) F.TLK_DISC.LATE = c.fld (Reg.TLK_DISC n) F.TLK_DISC.LATE) ∧
        (f * frameT < d.time + 500 * nsT → e = d ∧
          g.fld (Reg.TLK_DISC n) F.TLK_DISC.LATE = min (2 ^ F.TLK_DISC.LATE.w - 1) (c.fld (Reg.TLK_DISC n) F.TLK_DISC.LATE + l.length))) ∧
    (let k := frameOf (d.time + frameT - 1)
      let o := Reg.RED_CMPERR n;
      ∃ v, exec (.codeDeadline n t) s = .next v ∧
        let e := v.tile n
        let counts := fun (mm mo mc : Nat) => ∀ y : Str,
          (v.str y).fld o F.RED_CMPERR.MM = min (2 ^ F.RED_CMPERR.MM.w - 1) ((u.str y).fld o F.RED_CMPERR.MM + mm) ∧
          (v.str y).fld o F.RED_CMPERR.MISSOTHER = min (2 ^ F.RED_CMPERR.MISSOTHER.w - 1) ((u.str y).fld o F.RED_CMPERR.MISSOTHER + mo) ∧
          (v.str y).fld o F.RED_CMPERR.MISSCAPO = min (2 ^ F.RED_CMPERR.MISSCAPO.w - 1) ((u.str y).fld o F.RED_CMPERR.MISSCAPO + mc)
        ((d.cmpFrom = none ∨ d.capo = none ∨ d.cmpEnded = true ∨ ∃ f0, d.cmpFrom = some f0 ∧ k < f0) → e = d ∧ counts 0 0 0) ∧
        ∀ f0 y, d.cmpFrom = some f0 → d.capo = some y → f0 ≤ k → d.cmpEnded = false →
          (d.codeRec y k = none → counts 0 0 1 ∧ e = d.report (.missCapo k (d.codeRec y.other k).isSome)) ∧
          (∀ m, d.codeRec y k = some m → d.codeRec y.other k = none →
            (d.codesMissing (k * frameT) m.codes = false → counts 0 1 0 ∧ e = d) ∧
            (d.codesMissing (k * frameT) m.codes = true → counts 0 1 1 ∧ e = d.report (.missCapo k false))) ∧
          (∀ m q, d.codeRec y k = some m → d.codeRec y.other k = some q → m.codes = q.codes → Tab.wf (fun _ => 65536) m.codes = true →
            d.codesMissing (k * frameT) (m.codes ++ q.codes) = true → counts 0 0 1 ∧ e = d.report (.missCapo k true)) ∧
          (∀ m q a p r, d.codeRec y k = some m → d.codeRec y.other k = some q → m.codes = [(a, p)] → q.codes = [(a, r)] →
            d.codesMissing (k * frameT) (m.codes ++ q.codes) = false → (p = r → counts 0 0 0 ∧ e = d) ∧
            (p ≠ r → counts 1 0 0 ∧ (d.mmLast.find? (fun l => l.1 == a) = none → e.toA = d.toA ++
              [if y = .a then .mismatch a k p r else .mismatch a k r p])))) ∧
    (d.domOn 0 = false → exec (.errorRecordSend n t) s = .next u) ∧
    (d.domOn 0 = true → Tab.wf (fun _ => Chan.cold) d.chans = true → ∃ (e : TileSt) (r : ErrRec), exec (.errorRecordSend n t) s = .next (u.setTile n e) ∧
      e.toA = d.toA ++ [.error r] ∧ e.toB = d.toB ++ [.error r] ∧ e.sent = true ∧ r.magic = 0xD5 ∧ r.tile = n ∧ r.hold = d.hold ∧
      r.frame = frameOf (d.time / frameT * frameT) ∧ r.rseq = (d.rd Reg.TILE_DRNRSEQ + 1) % 4294967296 ∧ e.rd Reg.TILE_DRNRSEQ = r.rseq ∧
      r.nvalid = (r.ents.filter fun q => q.2.1 != 0x8000).length ∧ r.ents.map (·.1) = d.chans.map (·.1) ∧
      (∀ a i q, (a, i, q) ∈ r.ents → (d.chan a).amp = 0 → i = 0x8000 ∧ q = 1)) ∧
    (let c := s.str x
      let d := s.tile n
      let isErr := fun r => ∃ q, r = TRep.error q;
      ((∀ r ∈ d.reports x, ¬isErr r) → exec (.errorRecordReceive x n hdr check) s = .next s) ∧
      ∀ r rest, oldest isErr (d.reports x) (.error r) rest →
        ∃ g : StringSt, exec (.errorRecordReceive x n hdr check) s = .next ((s.setTile n (d.setReports x rest)).setStr x g) ∧
          (check = false → g.fld (Reg.TLK_ERR n) F.TLK_ERR.CRCERR = min (2 ^ F.TLK_ERR.CRCERR.w - 1) (c.fld (Reg.TLK_ERR n) F.TLK_ERR.CRCERR + 1) ∧
            { g with regs := c.regs, red := c.red } = c) ∧
          (check = true → Tab.get (fun _ => 0) g.eng.heard n.val = c.time) ∧
          (check = true → (hdr.toNat % 256 ≠ 0xD5 ∨ hdr.toNat / 256 ≠ n) → { g.eng with heard := c.eng.heard } = c.eng ∧
            g.fld (Reg.DRN_RXSTAT n) F.DRN_RXSTAT.BADHDR = min (2 ^ F.DRN_RXSTAT.BADHDR.w - 1) (c.fld (Reg.DRN_RXSTAT n) F.DRN_RXSTAT.BADHDR + 1)) ∧
          (check = true → hdr.toNat = 0xD5 + 256 * n.val → g.rd (Reg.DRN_LASTRSEQ n) = r.rseq % 4294967296 ∧
            (∀ q, c.recordOf n r.frame = some q → g.hist n = c.hist n) ∧
            (c.recordOf n r.frame = none → (c.hist n).length < 32 → g.recordOf n r.frame = some r))) ∧
    (let have_ := (c.recordOf n f).isSome = true ∨ c.isAbsent n f = true ∨ c.time < f * frameT + 4 * usT;
      (have_ → exec (.recordFetch x n f t) s = .next (u.setStr x c)) ∧
      (¬have_ → c.paired = true → c.brgUp = true → ∃ g : StringSt, exec (.recordFetch x n f t) s = .next (u.setStr x g) ∧
        g.outbox = c.outbox ++ [.recReq n f] ∧ (n.val, f) ∈ g.eng.asked ∧ { g with outbox := c.outbox, eng := c.eng } = c) ∧
      (¬have_ → c.paired = true → c.brgUp = false → exec (.recordFetch x n f t) s = .next (u.setStr x c)) ∧
      (¬have_ → c.paired = false → ∃ g : StringSt, exec (.recordFetch x n f t) s = .next (u.setStr x g) ∧ g.isAbsent n f = true ∧
        StringSt.counts { c with eng := g.eng } g Reg.ENG_HIST F.ENG_HIST.ABSENT 1)) ∧
    (let isReq := fun q => ∃ m k, q = BMsg.recReq m k
      let p := s.str x.other;
      ((∀ q ∈ p.outbox, ¬isReq q) → exec (.partnerRecordRequest x) s = .next s) ∧
      ∀ m k rest, s.incoming x isReq (.recReq m k) rest → ∃ g : StringSt, exec (.partnerRecordRequest x) s = .next (s.setStr x.other g) ∧
        g.outbox = rest ∧ ((p.recordOf m k).isSome = true → g.eng = p.eng) ∧
        (∀ r, (s.str x).recordOf m k = some r → p.recordOf m k = none → (p.hist m).length < 32 → g.recordOf m k = some r) ∧
        ((s.str x).recordOf m k = none → p.recordOf m k = none → g.isAbsent m k = true))

/-- ENGINE_JOB has no effect where the string computes no loops or no engine is to start the block's job; a bad local store
fails the engine with cause 3; a job that ends within JOBTO is done to the frame given, with its run in the engine's latency
monitor; one of whose loops finishes later, or that ends later, fails the engine with cause 1. ENGMAP_WRITE naming an engine
that does not exist, has failed or is off, or the block's own, changes nothing; else the block has the new engine and moves,
an unplaced block being placed with its lost frames to catch up. BLOCK_MOVE_RELEASE ends a move once the old engine's queue is
drained. ENG_ROLE_WRITE sets the role and the power of the engine, but leaves a failed engine, the role failed, and an off
that would strand blocks. ENGINE_JOB_TIMEOUT and a KAT_JOB past JOBTO, a KAT_JOB with a wrong result and ENGINE_DOMAIN_FAULT
fail the engine with causes 1, 2 and 4: its role is failed, with the cause, and its domain is off; a KAT_JOB with the known
result is measured: MAC by busy time, and the lowest such rate. -/
def Obligations.EnginesAndBlocks : Prop :=
  ∀ (s : State) (x : Str) (j : Fin 512) (e : Fin 36) (v : Word) (f t0 te t : Nat) (ts : List Nat) (mac : BitVec 16) (bad : BitVec 32)
      (store good : Bool),
    let c := s.str x
    let u := s.advance t
    let b := u.str x
    let job := Instr.engineJob x j f t0 ts te bad store
    let span := fun (c : StringSt) => max 5 (c.fld Reg.ENG_CFG F.ENG_CFG.JOBTO) * usT
    let named := v.toNat % 64;
    (ts.length = 32 →
      let end_ := ts.foldl max (max t0 te)
      let w := s.advance end_
      let b := w.str x;
      ((b.computes = false ∨ b.jobEngine j f (w.instOf x t0) = none) → exec job s = .next w) ∧
      ∀ k, b.computes = true → b.jobEngine j f (w.instOf x t0) = some k →
        (store = true → exec job s = .next (w.setStr x (b.failEngine k 3))) ∧
        (store = false → ∃ z : State, exec job s = .next z ∧ z.hostMem = s.hostMem ∧
          (end_ ≤ t0 + span b → (∃ m, Tab.get (fun _ => none) (z.str x).eng.done j = some m ∧ f ≤ m ∧ (b.lastJob j ≤ f → m = f)) ∧
            (z.str x).role_ k = b.role_ k ∧
            ∃ mac l, Tab.get (fun _ => []) (z.str x).eng.runs k = ⟨w.instOf x t0, w.instOf x end_, mac⟩ :: l) ∧
          (∀ i : Nat, i < 32 → k < 36 → Tab.get (fun _ => none) b.eng.part j = none → b.starts (32 * j.val + i) f = true →
            t0 + span b < max te (ts.getD i 0) → (z.str x).role_ k = 2 ∧ (z.str x).fld (Reg.ENG_ROLE k) F.ENG_ROLE.FCAUSE = 1 ∧
              (z.str x).domOn (5 + k) = false))) ∧
    (∀ (d : StringSt) (k : Nat), (d.role_ e = 2 → d.failEngine e k = d) ∧
      (d.role_ e ≠ 2 → k < 8 → (d.failEngine e k).role_ e = 2 ∧ (d.failEngine e k).fld (Reg.ENG_ROLE e) F.ENG_ROLE.FCAUSE = k ∧
        (d.failEngine e k).domOn (5 + e) = false)) ∧
    (36 ≤ named ∨ b.role_ named = 2 ∨ b.role_ named = 3 → exec (.engmapWrite x j v t) s = .next (u.setStr x b)) ∧
    (named < 36 → b.role_ named ≠ 2 → b.role_ named ≠ 3 →
      (b.unplaced j = false → b.blkEngine j = named → b.movingBlk j = false → exec (.engmapWrite x j v t) s = .next (u.setStr x b)) ∧
      (b.unplaced j = true ∨ b.blkEngine j ≠ named ∨ b.movingBlk j = true → ∃ d : StringSt, exec (.engmapWrite x j v t) s = .next (u.setStr x d) ∧
        d.blkEngine j = named ∧ d.unplaced j = false ∧ StringSt.regsBut { b with eng := d.eng } d [Reg.ENGMAP_BLK j] ∧
        (b.unplaced j = true → d.movingBlk j = true ∧ frameOf b.time ≤ Tab.get (fun _ => 0) d.eng.behind j) ∧
        (b.unplaced j = false → b.movingBlk j = false → d.movingBlk j = true ∧
          Tab.get (fun _ => none) d.eng.moving j = some (b.blkEngine j, frameOf b.time)))) ∧
    (Tab.get (fun _ => none) c.eng.moving j = none → exec (.blockMoveRelease x j) s = .next (s.setStr x c)) ∧
    (∀ o fm, Tab.get (fun _ => none) c.eng.moving j = some (o, fm) →
      ((∃ g ∈ c.undone j, g ≤ fm) → exec (.blockMoveRelease x j) s = .next (s.setStr x c)) ∧
      ((∀ g ∈ c.undone j, fm < g) → ∃ d : StringSt, exec (.blockMoveRelease x j) s = .next (s.setStr x d) ∧ d.movingBlk j = false ∧
        Tab.get (fun _ => none) d.eng.moving j = none ∧ d.blkEngine j = c.blkEngine j ∧
        StringSt.regsBut { c with eng := d.eng, sram := d.sram } d [Reg.ENGMAP_BLK j])) ∧
    (let r := v.toNat % 4
      let kept := c.role_ e = 2 ∨ r = 2 ∨ (r = 3 ∧ (c.blocksOf e).isEmpty = false);
      (kept → exec (.engRoleWrite x e v) s = .next (s.setStr x c)) ∧
      (¬kept → ∃ d, exec (.engRoleWrite x e v) s = .next (s.setStr x d) ∧ d.role_ e = r ∧
        d.domOn (5 + e) = decide (r < 2 ∧ c.fld Reg.PWR_STAT F.PWR_STAT.STATE ≠ 1) ∧
        (∀ i, i ≠ 5 + e.val → i < 96 → d.domOn i = c.domOn i) ∧
        c.regsBut d [Reg.ENG_ROLE e, Reg.PWR_SDOM ((5 + e) / 32)])) ∧
    (exec (.engineJobTimeout x e ⟨t0, t⟩) s = .next (u.setStr x (if b.engineOk e = true ∧ t0 + span b ≤ t then b.failEngine e 1 else b))) ∧
    (let runs := b.engineOk e = true ∧ b.flag Reg.ENG_CFG F.ENG_CFG.KATEN = true ∧ (b.role_ e = 1 ∨ b.fld Reg.ENG_CFG F.ENG_CFG.KATPER ≠ 0)
      let o := Reg.ENG_LAT e
      let from_ := u.instOf x t0;
      (¬runs → exec (.katJob x e mac ⟨good, t0, t⟩) s = .next (u.setStr x b)) ∧
      (runs → t0 + span b < u.now → exec (.katJob x e mac ⟨good, t0, t⟩) s = .next (u.setStr x (b.failEngine e 1))) ∧
      (runs → u.now ≤ t0 + span b → good = false → exec (.katJob x e mac ⟨good, t0, t⟩) s = .next (u.setStr x (b.failEngine e 2))) ∧
      (runs → u.now ≤ t0 + span b → good = true → ∃ d, exec (.katJob x e mac ⟨good, t0, t⟩) s = .next (u.setStr x d) ∧
        StringSt.regsBut { b with eng := d.eng } d [o, Reg.ENG_LOAD e] ∧
        ((∀ q ∈ Tab.get (fun _ => []) b.eng.runs e, q.stop + msT ≤ b.time) → from_ < b.time →
          let rate := min 65535 (mac.toNat * usT / (4 * (b.time - from_)));
          d.fld o F.ENG_LAT.RATE = rate ∧
          d.fld o F.ENG_LAT.RMIN = (if b.fld o F.ENG_LAT.RMIN = 0 then rate else min (b.fld o F.ENG_LAT.RMIN) rate)))) ∧
    (exec (.engineDomainFault x e) s = .next (s.setStr x (c.failEngine e 4)))

/-- On a tile with its domains on. RES_SENSE_VISIT measures the channel that the instant names: POS is its index; a valid
visit filters RES, sets KCORR from it within its bounds and marks it valid; any other visit changes no channel.
LOAD_FAULT_DETECT of a condition that the channel's state allows sets the live flag, and its sticky flag, of each channel
concerned; the end of one clears the live flag; no other channel changes; a SHORT with STRIP trips the channel.
STATUS_SWEEP_REPORT writes the counts of the tile's loops in both strings and, of a tile that is on, each channel's status
words and each pickup's code, counts the report, and is done with the statistics of earlier intervals. TILE_MODE_WRITE by the
string that holds the line changes the mode of exactly the groups with no switch closed, with MODEREF where one refuses, and
the records of that string and of its standby follow; by another string it is discarded and counted. TILE_PBIAS_WRITE stores
the code and starts 20 us of settling where the bias changes; BIAS_SETTLE_END ends it. -/
def Obligations.DrivesAndFaults : Prop :=
  ∀ (s : State) (x : Str) (n : Fin 8) (bank : Fin 4) (b : Fin 2) (r : BitVec 17) (f : LoadFault) (on : Bool) (v : Word) (t : Nat),
    let u := s.advance t
    let d := u.tile n
    let i := d.time % sweepT / (2 * usT)
    let a := bank.val * 512 + i
    let k := d.chan a;
    (d.domOn 0 = false ∨ d.domOn (1 + bank.val) = false → exec (.resSenseVisit n bank r t) s = .next u) ∧
    (d.domOn 0 = true → d.domOn (1 + bank.val) = true → ∃ e : TileSt, exec (.resSenseVisit n bank r t) s = .next (u.setTile n e) ∧
      e.fld (Reg.TILE_BANKSTAT bank) F.TILE_BANKSTAT.POS = i ∧ (∀ j, j ≠ a → e.chan j = d.chan j) ∧
      (let valid := d.vmode a = false ∧ k.enable = true ∧ k.currentAtLeast 1 = true ∧ bit k.live 0 = false ∧ bit k.live 1 = false ∧ k.bow = none ∧
          1280 ≤ r.toNat ∧ r.toNat ≤ 64000;
        (¬valid → e.chan a = k) ∧
        (valid → (e.chan a).resValid = true ∧ (e.chan a).kcorr = clampN 8192 32768 (rheN (16384 * k.rref * 16) (e.chan a).res) ∧
          (e.chan a).res = (if k.resValid then ((k.res : Int) + ((r.toNat : Int) - k.res) / (2 ^ d.fld Reg.TILE_ACFG F.TILE_ACFG.RFILT : Nat)).toNat
            else r.toNat) ∧ (e.chan a).code = k.code ∧ (e.chan a).power = k.power))) ∧
    (f.ok = true → d.domOn 0 = true → ∃ e : TileSt, exec (.loadFaultDetect n f on t) s = .next (u.setTile n e) ∧
      (on = true → d.faultMay f = false → e = d) ∧
      (¬(on = true ∧ d.faultMay f = false) → (∀ j, j ∉ (TileSt.faultChans f).1 → e.chan j = d.chan j) ∧
        ∀ j ∈ (TileSt.faultChans f).1, bit (e.chan j).live (TileSt.faultChans f).2 = on ∧
          (on = true → bit (e.chan j).flags (TileSt.faultChans f).2 = true) ∧ (on = false → (e.chan j).flags = (d.chan j).flags) ∧
          (e.chan j).code = (d.chan j).code) ∧
      (∀ j, f = .short j → on = true → d.faultMay f = true → d.fld Reg.TILE_ACFG F.TILE_ACFG.STRIP = 1 → bit (d.chan j).flags 9 = false →
        (e.chan j).enable = false ∧ bit (e.chan j).flags 9 = true ∧ (e.chan j).tripCnt = satInc 65535 (d.chan j).tripCnt)) ∧
    (d.domOn 0 = false → exec (.statusSweepReport n t) s = .next (u.updBoth fun c => State.loopReport c n)) ∧
    (d.domOn 0 = true → ∃ w, exec (.statusSweepReport n t) s = .next w ∧ (w.tile n).adopted = [] ∧
      (∀ m, ∀ z ∈ ((w.tile n).mon m).stats, d.time / sweepT ≤ z.iv) ∧
      (∀ j, (w.tile n).chan j = d.chan j) ∧
      ∀ (y : Str) (j : Nat),
        (j < 2048 → let q := actRec (2048 * n + j)
          let k := d.chan j
          let c := w.str y;
          c.word (q + 16) = (k.power + 65536 * k.code) % 4294967296 ∧ c.word (q + 20) = (k.res % 65536 + 65536 * d.kNow j k) % 4294967296 ∧
            c.word (q + 24) = (k.flags + 65536 * d.liveNow j k + 2147483648 * b2n k.enable) % 4294967296 ∧
            c.word (q + 28) = (k.tripCnt + 65536 * k.compCnt) % 4294967296 ∧ c.word (q + 36) = ((u.str y).word (q + 36) + 1) % 4294967296) ∧
        (j < 256 → let q := monRec (256 * n + j)
          (w.str y).word (q + 8) % 65536 = (d.mon j).code % 65536 ∧ (w.str y).word (q + 28) = ((u.str y).word (q + 28) + 1) % 4294967296)) ∧
    (let o := tileOff n Reg.TILE_MODE
      let d := s.tile n
      let shut := fun (g : Nat) => d.chans.any fun q => q.1 / 64 == g && q.2.enable;
      (s.capo = some x → d.domOn 0 = false → ∃ c : StringSt, exec (.tileModeWrite x n v) s = .next (s.setStr x c) ∧ c.rd o = v.toNat ∧
        (s.str x).regsBut c [o]) ∧
      (s.capo = some x → d.domOn 0 = true → ∃ (e : TileSt) (c p : StringSt),
        exec (.tileModeWrite x n v) s = .next (((s.setTile n e).setStr x c).setStr x.other p) ∧ c.rd o = v.toNat ∧
        ((s.str x.other).role ≠ rSTANDBY → p = s.str x.other) ∧
        ((s.str x.other).role = rSTANDBY → { p with sram := (s.str x.other).sram } = s.str x.other ∧
          ∀ j, j < 2048 → bit (p.word (actRec (2048 * n + j))) 19 = e.vmode j) ∧ (∀ g, g < 32 → bit (e.rd Reg.TILE_MODE) g = if shut g then bit (d.rd Reg.TILE_MODE) g else bit v.toNat g) ∧
        (∀ g, g < 32 → shut g = true → bit (d.rd Reg.TILE_MODE) g ≠ bit v.toNat g → e.fld Reg.TILE_ASTAT F.TILE_ASTAT.MODEREF = 1) ∧
        d.regsBut e [Reg.TILE_MODE, Reg.TILE_ASTAT] ∧ ∀ j, j < 2048 → bit (c.word (actRec (2048 * n + j))) 19 = e.vmode j ∧
          (e.vmode j = true → c.word (actRec (2048 * n + j) + 8) = 0)) ∧
      (s.capo ≠ some x → ∃ c : StringSt, exec (.tileModeWrite x n v) s = .next (s.setStr x c) ∧ c.rd o = v.toNat ∧
        (s.str x).regsBut c [o, Reg.TLK_DISC n] ∧ c.fld (Reg.TLK_DISC n) F.TLK_DISC.DISC =
          min (2 ^ F.TLK_DISC.DISC.w - 1) ((s.str x).fld (Reg.TLK_DISC n) F.TLK_DISC.DISC + 1))) ∧
    (let o := Reg.TILE_PBIAS b;
      (u.capo ≠ some x → ∃ c : StringSt, exec (.tilePbiasWrite x n b v t) s = .next (u.setStr x c) ∧
        (u.str x).regsBut c [tileOff n o, Reg.TLK_DISC n]) ∧
      (u.capo = some x → d.domOn 0 = false → ∃ c : StringSt, exec (.tilePbiasWrite x n b v t) s = .next (u.setStr x c) ∧
        (u.str x).regsBut c [tileOff n o]) ∧
      (u.capo = some x → d.domOn 0 = true → ∃ (e : TileSt) (c p : StringSt),
        exec (.tilePbiasWrite x n b v t) s = .next (((u.setTile n e).setStr x c).setStr x.other p) ∧
        (∀ j, j / 128 = b.val → bits (c.word (monRec (256 * n + j) + 4)) 8 8 = v.toNat % 256) ∧
        ((u.str x.other).role ≠ rSTANDBY → p = u.str x.other) ∧
        ((u.str x.other).role = rSTANDBY → { p with sram := (u.str x.other).sram } = u.str x.other ∧
          ∀ j, j / 128 = b.val → bits (p.word (monRec (256 * n + j) + 4)) 8 8 = v.toNat % 256) ∧
        e.fld o F.TILE_PBIAS.CODE = v.toNat % 256 ∧ e.chans = d.chans ∧ e.mons = d.mons ∧
        (min 240 (v.toNat % 256) = min 240 (d.fld o F.TILE_PBIAS.CODE) → e.settle b = d.settle b) ∧
        (min 240 (v.toNat % 256) ≠ min 240 (d.fld o F.TILE_PBIAS.CODE) → e.fld o F.TILE_PBIAS.SETTLING = 1 ∧ e.settle b = d.time + 20 * usT)) ∧
      (d.domOn 0 = true → ∃ e : TileSt, exec (.biasSettleEnd n b t) s = .next (u.setTile n e) ∧ (d.time < d.settle b → e = d) ∧
        (d.settle b ≤ d.time → e.fld o F.TILE_PBIAS.SETTLING = 0 ∧ e.fld o F.TILE_PBIAS.CODE = d.fld o F.TILE_PBIAS.CODE ∧ d.regsBut e [o])))

/-- On a tile whose control domain is on. SAMPLE_TRIGGER starts, at the bank's latest sample instant, every channel of its
timer groups that is not busy; a busy one keeps its conversion, is flagged and counted; without power nothing changes.
LOAD_TRIGGER starts its group at the trigger's instant. CONVERSION_DONE of one started conversion gives the channel the code
of the range it was taken in and the marks it was taken with, ends the conversion, and marks an overrange live and in its
count; one that was not started changes no channel. PICKUP_OPEN_TEST with OTEST sets CAPQ and the open and short flags by
their bounds, or short where the step did not complete. CATHODE_LIMIT_TRIP sets short. THM_CONVERSION of an enabled input
stores its resistance as valid, within 5 % where the field cannot hold it, or OPEN with its sticky flag above 1.575 Mohm or
without a reading. DITHER_STEP loads the dithered power where a pilot is on and leaves every power code. NULL_SLOT_START opens
the slot of PERIOD with its length and mask and clears the slot's statistics; NULL_SLOT_END, from its end on, closes it and
counts it in both strings. -/
def Obligations.PickupsAndNullSlots : Prop :=
  ∀ (s : State) (n : Fin 8) (b : Fin 2) (g : Fin 32) (m : Fin 256) (v : Conv) (q r : Option Nat) (t : Nat),
    let u := s.advance t
    let d := u.tile n
    let same := fun (d e : TileSt) (l : List Nat) => ∀ j, j ∉ l → e.mon j = d.mon j;
    d.domOn 0 = true →
    (∃ e : TileSt, exec (.sampleTrigger n b t) s = .next (u.setTile n e) ∧ (d.domOn (5 + b.val) = false → e = d) ∧
      ∀ j, j < 256 → (d.domOn (5 + b.val) = true ∧ j / 128 = b.val ∧ d.onTimer (j / 8) = true →
          ((d.mon j).busy = none → let at_ := d.time / d.period b * d.period b;
            e.mon j = { d.mon j with
              busy := some at_
              recov := (d.mon j).recov - 1
              took := ⟨(d.mon j).tia, decide ((d.mon j).recov ≠ 0), d.underTest j at_, d.biasSettling b at_, none⟩ }) ∧
          ((d.mon j).busy ≠ none → e.mon j = { d.mon j with flags := putBit (d.mon j).flags 1 true, trgCnt := satInc 65535 (d.mon j).trgCnt })) ∧
        (j / 128 ≠ b.val ∨ d.onTimer (j / 8) = false → e.mon j = d.mon j)) ∧
    (∃ e : TileSt, exec (.loadTrigger n g t) s = .next (u.setTile n e) ∧
      (let p := d.trig.find? fun e => e.1 == g.val && !e.2.2 && decide (e.2.1 ≤ d.time);
        (p = none → e = d) ∧ (∀ z, p = some z → d.domOn (5 + g.val / 16) = false → e.mons = d.mons ∧ ∀ y ∈ e.trig, y.1 ≠ g) ∧
        ∀ z, p = some z → d.domOn (5 + g.val / 16) = true → ∀ j, (j / 8 = g.val → (d.mon j).busy = none → (e.mon j).busy = some z.2.1) ∧
          (j / 8 ≠ g.val → e.mon j = d.mon j))) ∧
    (v.ok = true → ∃ e : TileSt, exec (.conversionDone n [v] t) s = .next (u.setTile n e) ∧
      ((d.mon v.m).busy = none → e.mons = d.mons) ∧
      ((d.mon v.m).busy ≠ none → v.m < 256 →
        let code := TileSt.convCode (d.mon v.m).took.tia v;
        same d e [v.m] ∧ (e.mon v.m).code = code ∧ (e.mon v.m).busy = none ∧ (e.mon v.m).liveOvr = decide (code = 0xFFFF) ∧
          (e.mon v.m).liveUnder = decide (code = 0) ∧ bit (e.mon v.m).marks 0 = decide (code = 0xFFFF) ∧
          bit (e.mon v.m).marks 1 = (d.mon v.m).took.reco ∧ bit (e.mon v.m).marks 3 = (d.mon v.m).took.test ∧
          bit (e.mon v.m).marks 4 = (d.mon v.m).took.bset ∧
          (e.mon v.m).ovrCnt = (if code = 0xFFFF then satInc 65535 (d.mon v.m).ovrCnt else (d.mon v.m).ovrCnt) ∧
          (code = 0xFFFF → bit (e.mon v.m).flags 0 = true))) ∧
    (∃ e : TileSt, exec (.pickupOpenTest n b q t) s = .next (u.setTile n e) ∧
      (let i := d.time % sweepT / (8 * usT)
        let j := 128 * b.val + i
        let runs := d.fld Reg.TILE_PCFG F.TILE_PCFG.OTEST = 1 ∧ d.domOn (5 + b.val) = true ∧
          ¬(d.settle b ≠ 0 ∧ d.time / sweepT * sweepT + i * (8 * usT) + 20 * usT ≤ d.settle b);
        (¬runs → e = d) ∧ (runs → same d e [j] ∧
          (∀ z, q = some z → (e.mon j).capq = min 65535 z ∧ (e.mon j).liveOpen = decide (z < 20) ∧ (e.mon j).liveShort = decide (50000 < z) ∧
            bit (e.mon j).flags 5 = (bit (d.mon j).flags 5 || decide (z < 20)) ∧
            bit (e.mon j).flags 6 = (bit (d.mon j).flags 6 || decide (50000 < z))) ∧
          (q = none → (e.mon j).liveOpen = false ∧ (e.mon j).liveShort = true ∧ bit (e.mon j).flags 6 = true ∧ (e.mon j).capq = (d.mon j).capq)))) ∧
    (let d := s.tile n;
      d.domOn 0 = true → ∃ e : TileSt, exec (.cathodeLimitTrip n m) s = .next (s.setTile n e) ∧ same d e [m.val] ∧
        (e.mon m).liveShort = true ∧ bit (e.mon m).flags 6 = true ∧
        ((d.mon m).liveShort = false → e.toA = d.toA ++ [.cond (some 6) m none] ∧ e.toB = d.toB ++ [.cond (some 6) m none]) ∧
        ((d.mon m).liveShort = true → e.toA = d.toA)) ∧
    (∃ e : TileSt, exec (.thmConversion n r t) s = .next (u.setTile n e) ∧
      (let i := d.time % msT / (125 * usT)
        let o := Reg.TILE_THM i
        let on := bit (d.fld Reg.TILE_THMEN F.TILE_THMEN.EN) i;
        (on = false → e = d) ∧ (∀ z, on = true → r = some z → z < 16777216 → e.rd o = z + 16777216 ∧ d.regsBut e [o]) ∧
        (∀ z, on = true → r = some z → 16777216 ≤ z → z ≤ 25200000 → ∃ y, min 16777215 (z - z / 20) ≤ y ∧ y < 16777216 ∧
          e.rd o = y + 16777216 ∧ d.regsBut { e with free := d.free } [o]) ∧
        (on = true → (r = none ∨ ∃ z, r = some z ∧ 25200000 < z) → e.rd o = d.rd o % 16777216 + 33554432 ∧ bit e.thmSticky i = true ∧
          (bit (d.rd o) 25 = false → e.toA = d.toA ++ [.cond (some 7) i (some 6)])))) ∧
    (∃ e : TileSt, exec (.ditherStep n t) s = .next (u.setTile n e) ∧
      (Tab.wf (fun _ => Chan.cold) d.chans = true → ∀ a, (e.chan a).power = (d.chan a).power ∧
        (let k := d.chan a
          let on := d.piloted k = true ∧ d.silenced k.pilot = false
          let corr := if d.hold then (if d.vmode a then 16384 else k.holdK) else d.kNow a k
          let lvl := (k.power : Int) + TileSt.dither k.amp k.pilot (d.time / gridT * gridT);
          (on → (e.chan a).code = (d.toCode a corr (clampI 0 0xFFFF lvl).toNat).1 ∧ (e.chan a).dith = true) ∧
          (¬on → k.dith = true → (e.chan a).code = (d.toCode a corr k.power).1 ∧ (e.chan a).dith = false) ∧
          (¬on → k.dith = false → e.chan a = k)))) ∧
    (∃ e : TileSt, exec (.nullSlotStart n t) s = .next (u.setTile n e) ∧
      (let per := d.fld Reg.TILE_DRNNPER F.TILE_DRNNPER.PERIOD
        let start := d.time / (per * msT) * (per * msT);
        (per = 0 → e = d) ∧ (per ≠ 0 → e.nulOn = true ∧ e.fld Reg.TILE_DRNSTAT F.TILE_DRNSTAT.NULLACT = 1 ∧
          e.nul = (start, start + min (per * 50) (max 10 (d.fld Reg.TILE_DRNNPER F.TILE_DRNNPER.LEN)) * frameT,
            d.fld Reg.TILE_DRNNULL F.TILE_DRNNULL.MASK) ∧ ∀ j, (e.mon j).nCnt = 0 ∧ (e.mon j).code = (d.mon j).code))) ∧
    (¬(d.nulOn = true ∧ d.nul.2.1 ≤ d.time) → exec (.nullSlotEnd n t) s = .next u) ∧
    (d.nulOn = true → d.nul.2.1 ≤ d.time → ∃ w, exec (.nullSlotEnd n t) s = .next w ∧ (w.tile n).nulOn = false ∧
      (w.tile n).fld Reg.TILE_DRNSTAT F.TILE_DRNSTAT.NULLACT = 0 ∧ (∀ j, (w.tile n).chan j = d.chan j) ∧
      ∀ y : Str, (w.str y).fld Reg.DRN_NULLCNT F.DRN_NULLCNT.SLOTS =
        ((u.str y).fld Reg.DRN_NULLCNT F.DRN_NULLCNT.SLOTS + 1) % 2 ^ F.DRN_NULLCNT.SLOTS.w)

/-- HKA_SCAN stores the mean of each enabled channel's inputs, held to its range with OVR, marks the others stale, counts the
scan, and tracks the extremes of VIN. HKA_SETTLED ends the settling. VIN_OUT_OF_RANGE after 1 ms clears VINOK and raises
source 26; RAIL_WINDOW_FAULT raises, or ends, source 27; POWER_STAGE_FAULT writes the stage's conditions and code in each
string whose message checks, and counts a bad check in the other, keeps TRIP, counts and raises source 30 where a condition
stands. AVS_TICK, THROTTLE_TICK and MARGIN_PLANNER_RUN act once for each whole multiple of their period. AVS_TICK moves both
core rails by the measured rates, down to 700 and up to 800 mV. SENSOR_CONVERSION stores a temperature and the peak.
THROTTLE_TICK moves F of each tile down where its condition or the module's holds, up after RELMS quiet ticks, to 16 where it
is off, and the tiles of the line holder take it. THERMAL_TRIP switches the drive off at its levels, PWR_CTL_RAILON on again
below its own. PWR_REQ_WRITE of a phrase binds the request. MARGIN_PLANNER_RUN writes capacity, demand, margin and shortness. -/
def Obligations.SupplyAndThermal : Prop :=
  ∀ (s : State) (x : Str) (sums : List Int) (rf out : Bool) (ch : Fin 16) (st stg temp : BitVec 16) (bad : BitVec 2) (i : Fin 64)
    (k : Fin 4) (v : Word) (t : Nat),
    let c := s.str x
    let u := s.advance t
    let e := u.str x
    let hot := fun (w : State) (sens stage : Int) =>
      128 * stage ≤ sx 16 w.stage.temp ∨ ∃ (y : Str) (j : Nat), j < 64 ∧ 128 * sens ≤ (w.str y).sensor j;
    (sums.length = 12 → ∃ d : StringSt, exec (.hkaScan x sums rf t) s = .next (u.setStr x d) ∧
      (let en := e.fld Reg.HKA_CFG F.HKA_CFG.EN
        let n : Int := ((2 ^ e.fld Reg.HKA_CFG F.HKA_CFG.AVG : Nat) : Int);
        (∀ j, j < 12 → bit en j = true →
          let lo : Int := if j = 9 then -32768 else 0
          let hi : Int := if j = 9 then 32767 else 65535
          let sum := sums.getD j 0;
          (∃ r : Int, (r = 0 ∨ (r = 1 ∧ sum % n ≠ 0)) ∧ d.fld (Reg.HKA_RES j) F.HKA_RES.VALUE = wrap 16 (clampI lo hi (sum / n + r))) ∧
            d.flag (Reg.HKA_RES j) F.HKA_RES.OVR = decide (sum < lo * n ∨ hi * n < sum) ∧ d.flag (Reg.HKA_RES j) F.HKA_RES.STALE = false ∧
            (rf = true → e.fld Reg.HKA_CFG F.HKA_CFG.REF = 1 → d.flag (Reg.HKA_RES j) F.HKA_RES.UNSETTLED = true)) ∧
        (∀ j, j < 12 → bit en j = false → d.flag (Reg.HKA_RES j) F.HKA_RES.STALE = true ∧
          d.fld (Reg.HKA_RES j) F.HKA_RES.VALUE = e.fld (Reg.HKA_RES j) F.HKA_RES.VALUE) ∧
        d.fld Reg.HKA_STAT F.HKA_STAT.SCANS = (e.fld Reg.HKA_STAT F.HKA_STAT.SCANS + 1) % 65536 ∧
        d.flag Reg.HKA_STAT F.HKA_STAT.REFFAIL = (rf && decide (e.fld Reg.HKA_CFG F.HKA_CFG.REF = 1)) ∧
        (bit en 0 = true → d.fld Reg.PWR_VIN F.PWR_VIN.MIN = min (d.fld (Reg.HKA_RES 0) F.HKA_RES.VALUE) (e.fld Reg.PWR_VIN F.PWR_VIN.MIN) ∧
          d.fld Reg.PWR_VIN F.PWR_VIN.MAX = max (d.fld (Reg.HKA_RES 0) F.HKA_RES.VALUE) (e.fld Reg.PWR_VIN F.PWR_VIN.MAX)) ∧
        (bit en 0 = false → d.rd Reg.PWR_VIN = e.rd Reg.PWR_VIN) ∧
        StringSt.regsBut { e with pwr := d.pwr, free := d.free } d ((List.range 12).map Reg.HKA_RES ++ [Reg.HKA_STAT, Reg.PWR_VIN, Reg.PWR_STAT, Reg.ALV_SRC 26]))) ∧
    (∃ d : StringSt, exec (.hkaSettled x) s = .next (s.setStr x d) ∧ StringSt.regsBut { c with pwr := d.pwr } d [Reg.HKA_STAT] ∧
      d.flag Reg.HKA_STAT F.HKA_STAT.SETTLED = true ∧ (∀ p ∈ d.pwr.hkaSpans, p.2.isSome = true) ∧ d.fld Reg.HKA_STAT F.HKA_STAT.SCANS = c.fld Reg.HKA_STAT F.HKA_STAT.SCANS) ∧
    (let late := ∃ w, e.pwr.vinOut = some w ∧ w + msT ≤ e.time ∧ e.flag Reg.PWR_STAT F.PWR_STAT.VINOK = true;
      (¬late → exec (.vinOutOfRange x t) s = .next (u.setStr x e)) ∧
      (late → ∃ d : StringSt, exec (.vinOutOfRange x t) s = .next (u.setStr x (d.occur 26 (e.rd (Reg.HKA_RES 0)))) ∧
        e.regsBut d [Reg.PWR_STAT, Reg.ALV_SRC 26] ∧ d.flag Reg.PWR_STAT F.PWR_STAT.VINOK = false ∧
        d.flag (Reg.ALV_SRC 26) F.ALV_SRC.LIVE = true)) ∧
    (∃ d : StringSt, exec (.railWindowFault x ch out) s = .next (s.setStr x (if out then d.occur 27 ch else d)) ∧
      StringSt.regsBut { c with red := d.red } d [Reg.ALV_SRC 27] ∧ d.flag (Reg.ALV_SRC 27) F.ALV_SRC.LIVE = out) ∧
    (∃ w : State, exec (.powerStageFault ⟨st, bad⟩) s = .next w ∧ { w with a := s.a, b := s.b } = s ∧ ∀ y : Str, ∃ d : StringSt,
      (let o := Reg.PWR_STAGE
        let b := s.str y;
        (bit bad.toNat b.id.idx = true → w.str y = d ∧ b.counts d Reg.PSTG_LINK F.PSTG_LINK.VAL 1) ∧
        (bit bad.toNat b.id.idx = false → (∀ j, j < 16 → bit (d.rd o) j = if j = 2 then bit (b.rd o) 2 else (bit st.toNat j && !decide (5 ≤ j ∧ j < 8))) ∧
        b.regsBut d [o, Reg.ALV_SRC 30] ∧ d.flag (Reg.ALV_SRC 30) F.ALV_SRC.LIVE = decide (bits (d.rd o) 0 5 ≠ 0) ∧
        (bits (d.rd o) 0 5 = 0 → w.str y = d ∧ d.fld o F.PWR_STAGE.FAULTS = b.fld o F.PWR_STAGE.FAULTS) ∧
        (bits (d.rd o) 0 5 ≠ 0 → w.str y = d.occur 30 (bits (d.rd o) 0 16) ∧
          d.fld o F.PWR_STAGE.FAULTS = min 65535 (b.fld o F.PWR_STAGE.FAULTS + 1))))) ∧
    (u.capo = none → exec (.avsTick t) s = .next u) ∧
    (u.capo = some x → Tab.get (fun _ => 0) e.pwr.ticks 1 = e.time / msT + 1 → exec (.avsTick t) s = .next u) ∧
    (u.capo = some x → Tab.get (fun _ => 0) e.pwr.ticks 1 ≠ e.time / msT + 1 → ∃ d p : StringSt, exec (.avsTick t) s = .next ((u.setStr x d).setStr x.other p) ∧
      StringSt.regsBut { e with pwr := d.pwr } d [Reg.PWR_AVS] ∧ (u.str x.other).regsBut p [Reg.PWR_AVS] ∧
      (let old := e.fld Reg.PWR_AVS F.PWR_AVS.OWN
        let g := e.fld Reg.PWR_CFG F.PWR_CFG.GUARD
        let set := d.fld Reg.PWR_AVS F.PWR_AVS.OWN
        let on := e.flag Reg.PWR_CFG F.PWR_CFG.AVSEN;
        (State.lowRate e = none ∨ on = false → set = 800) ∧
        (∀ r, State.lowRate e = some r → on = true → 100 * r < 340 * (100 + g) → set = min 800 (old + 5)) ∧
        (∀ r, State.lowRate e = some r → on = true → 340 * (100 + g) ≤ 100 * r → 100 * r ≤ 340 * (100 + 2 * g) → set = old) ∧
        (∀ r, State.lowRate e = some r → on = true → 340 * (100 + 2 * g) < 100 * r →
          set = (Tab.get (fun _ => none) e.pwr.highAt 0).elim old fun b => if b + 100 * msT ≤ e.time then max 700 (old - 5) else old) ∧
        p.fld Reg.PWR_AVS F.PWR_AVS.PART = set ∧ d.fld Reg.PWR_AVS F.PWR_AVS.PART = p.fld Reg.PWR_AVS F.PWR_AVS.OWN)) ∧
    (∃ d : StringSt, exec (.sensorConversion x i temp) s = .next (s.setStr x d) ∧
      StringSt.regsBut { c with pwr := d.pwr } d [Reg.THM_SENS i, Reg.THM_PEAK] ∧ d.sensor i = sx 16 temp.toNat ∧
      d.fld (Reg.THM_SENS i) F.THM_SENS.RISE = c.fld (Reg.THM_SENS i) F.THM_SENS.RISE ∧
      sx 16 (d.rd Reg.THM_PEAK) = max (sx 16 (c.rd Reg.THM_PEAK)) (sx 16 temp.toNat)) ∧
    (Tab.get (fun _ => 0) e.pwr.ticks 0 = e.time / msT + 1 →
      exec (.throttleTick x stg t) s = .next { u with stage := { u.stage with temp := stg.toNat } }) ∧
    (Tab.get (fun _ => 0) e.pwr.ticks 0 ≠ e.time / msT + 1 → ∃ (d : StringSt) (downs moves : Nat) (w : State), exec (.throttleTick x stg t) s = .next w ∧
      (let b := if downs = 0 then d else d.occur 28 downs;
        w.str x = if moves = 0 then b else b.fire 168) ∧ w.str x.other = u.str x.other ∧ w.stage = { u.stage with temp := stg.toNat } ∧
      ∀ n, n < 8 →
        let o := Reg.THM_TILE n
        let f := e.fld o F.THM_TILE.F
        let cond := bits (d.rd Reg.THM_STAT) 0 3 ≠ 0 ∨ (e.flag (Reg.THM_TRES n) F.THM_TRES.EN = true ∧ (u.tile n).tover = true)
        let q := Tab.get (fun _ => 0) e.pwr.quiet n;
        d.fld o F.THM_TILE.F = (if e.flag Reg.THM_CFG F.THM_CFG.EN = false then 16
            else if cond then max (f - 1) (e.fld Reg.THM_CFG F.THM_CFG.FMIN)
            else if max 1 (e.fld Reg.THM_CFG F.THM_CFG.RELMS) ≤ q + 1 then min (f + 1) 16 else f) ∧
          d.flag o F.THM_TILE.COND = decide cond ∧ d.flag o F.THM_TILE.TOVER = (u.tile n).tover ∧
          bit downs n = decide (d.fld o F.THM_TILE.F < f) ∧ bit moves n = decide (d.fld o F.THM_TILE.F ≠ f) ∧
          w.tile n = (if (u.tile n).capo = some x ∧ (u.tile n).hold = false then { u.tile n with throttle := d.fld o F.THM_TILE.F }
            else u.tile n)) ∧
    (let w := { s with stage := { s.stage with temp := stg.toNat } }
      let trips := hot w 160 140 ∧ s.stage.drive = true;
      (¬trips → exec (.thermalTrip stg) s = .next w) ∧
      (trips → ∃ r : State, exec (.thermalTrip stg) s = .next r ∧ r.stage = { w.stage with drive := false } ∧
        (∀ n, n < 8 → r.tile n = (s.tile n).setVhtr false) ∧ ∀ y : Str, ∃ d : StringSt, r.str y = d.occur 30 (bits (d.rd Reg.PWR_STAGE) 0 16) ∧
          (s.str y).regsBut d [Reg.PWR_STAGE, Reg.PWR_STAT, Reg.ALV_SRC 30] ∧ d.flag Reg.PWR_STAGE F.PWR_STAGE.TRIP = true ∧
          d.flag Reg.PWR_STAT F.PWR_STAT.TRIP = true ∧ d.flag (Reg.ALV_SRC 30) F.ALV_SRC.LIVE = true)) ∧
    (let goes := s.a.flag Reg.PWR_STAT F.PWR_STAT.TRIP = true ∧ ¬hot s 130 120;
      (¬goes → exec (.pwrCtlRailon x) s = .next s) ∧
      (goes → ∃ r : State, exec (.pwrCtlRailon x) s = .next r ∧ r.stage = { s.stage with drive := true } ∧
        (∀ n, n < 8 → r.tile n = (s.tile n).setVhtr true) ∧ ∀ y : Str, (s.str y).regsBut (r.str y) [Reg.PWR_STAGE, Reg.PWR_STAT, Reg.ALV_SRC 30] ∧
          (r.str y).flag Reg.PWR_STAGE F.PWR_STAGE.TRIP = false ∧ (r.str y).flag Reg.PWR_STAT F.PWR_STAT.TRIP = false)) ∧
    ((c.core k).pl ≠ 2 → exec (.pwrReqWrite x k v) s = .next s) ∧
    ((c.core k).pl = 2 → ∃ d : StringSt, exec (.pwrReqWrite x k v) s = .next (s.setStr x (d.bindEff k (.pwrReq (v.toNat % 4)))) ∧
      c.regsBut d [Reg.PWR_REQ, Reg.PWR_STAT] ∧ d.rd Reg.PWR_REQ = v.toNat % 4 ∧ d.flag Reg.PWR_STAT F.PWR_STAT.PEND = true ∧
      d.fld Reg.PWR_STAT F.PWR_STAT.STATE = c.fld Reg.PWR_STAT F.PWR_STAT.STATE) ∧
    (e.flag Reg.AGE_CFG F.AGE_CFG.EN = false → exec (.marginPlannerRun x t) s = .next u) ∧
    (e.flag Reg.AGE_CFG F.AGE_CFG.EN = true → Tab.get (fun _ => 0) e.pwr.ticks 2 = e.time / (100 * msT) + 1 →
      exec (.marginPlannerRun x t) s = .next u) ∧
    (e.flag Reg.AGE_CFG F.AGE_CFG.EN = true → Tab.get (fun _ => 0) e.pwr.ticks 2 ≠ e.time / (100 * msT) + 1 → ∃ w : State, exec (.marginPlannerRun x t) s = .next w ∧
      (let cap := (((List.range 36).filter fun j => State.credited e j).map fun j => 4 * State.engRate e j).sum
        let rows := (((List.range 16384).filter fun a => e.rowOn a).map fun a => bits (e.word (xtRow a)) 16 5).sum
        let dem := ((List.range 36).map fun j => e.demand j / 1000000).sum + rows / 100 + 3300
        let d := w.str x;
        d.rd Reg.AGE_CAP = (cap / 10 + 65536 * (dem / 10)) % 4294967296 ∧
          d.flag Reg.AGE_STAT F.AGE_STAT.SHORT = decide (1000 * ((cap : Int) - dem) < e.fld Reg.AGE_CFG F.AGE_CFG.MARGIN * (cap : Int)) ∧
          (cap ≠ 0 → d.fld Reg.AGE_STAT F.AGE_STAT.MARGIN = wrap 16 (rheDiv (1000 * ((cap : Int) - dem)) cap)) ∧
          d.word 0x00F10004 = (cap / 10 + 65536 * (dem / 10)) % 4294967296))

/-- POWER_UP, 10 ms after power loss or 1 s after a surge, ends OFF with both strings and every tile cold but for pegs, wear,
flash and BROWN. BROWN_OUT and SURGE_SHUTDOWN enter OFF: every domain off, BROWN set, STATE 3. WARM_RESET, STRING_RESET, a due
WATCHDOG_RESET and a PARTNER_REQUESTED_RESET that is asked for reset the string: its line falls, its memory and cores are
cold, the registers take their warm values, the cause is set and NRST counts, pegs, flash and time stay, and no tile changes
but for the reports that waited for it; two at one instant are one. WAKE with a source, once the entry to DORMANT is complete,
resets both strings, shows the source, and powers the tiles. TILE_RESET by the line holder restarts the tiles named and
restores them. ENGINE_RESET of an engine without blocks makes it off, of another counts a refusal. HOURS_INCREMENT raises its
peg. BOOT_IMAGE_CHECK judges the slots in order and starts the first image that passes, or ends in failure. EPOCH_RETRY on the
string that serves phrases forms the epoch once the peg write goes through. -/
def Obligations.PowerAndResets : Prop :=
  ∀ (s : State) (x : Str) (flr : Bool) (mask : BitVec 8) (en : Fin 36) (faults : BitVec 2) (t : Nat),
    let c := s.str x
    let u := s.advance t
    let e := u.str x
    let h := 0x70000010
    let rises := u.stage.offAt + (if u.stage.surge = true then 1000 else 10) * msT ≤ u.now;
    ((u.stage.off = false ∨ ¬rises) → exec (.powerUp t) s = .next u) ∧
    (u.stage.off = true → rises → ∃ w : State, exec (.powerUp t) s = .next w ∧ w.stage = { u.stage with off := false, drive := true } ∧
      (∀ n, n < 8 → w.tile n = { TileSt.cold n with free := (u.tile n).free }) ∧ ∀ y : Str, ∃ d : StringSt, w.str y = d ∧
        (let b := u.str y
          let z := { StringSt.cold b.id with pegs := b.pegs, wear := b.wear, flash := b.flash, free := b.free };
          z.regsBut d [Reg.GEN_RSTCAUSE] ∧ d.flag Reg.GEN_RSTCAUSE F.GEN_RSTCAUSE.POR = true ∧
            d.fld Reg.GEN_RSTCAUSE F.GEN_RSTCAUSE.BROWN = b.fld Reg.GEN_RSTCAUSE F.GEN_RSTCAUSE.BROWN)) ∧
    (∀ i : Instr, (i = .brownOut t ∨ i = .surgeShutdown t) → (u.stage.off = true → exec i s = .next u) ∧
      (u.stage.off = false → ∃ w : State, exec i s = .next w ∧ w.stage = { u.stage with
          off := true
          surge := decide (i = .surgeShutdown t)
          offAt := u.now
          drive := false } ∧
        (∀ n, n < 8 → w.tile n = { TileSt.cold n with power := 0, free := (u.tile n).free }) ∧ ∀ y : Str,
          let b := u.str y
          let d := w.str y;
          d.pegs = b.pegs ∧ d.flash = b.flash ∧ d.sram = [] ∧ d.outbox = [] ∧ d.fld Reg.PWR_STAT F.PWR_STAT.STATE = 3 ∧
            d.flag Reg.GEN_RSTCAUSE F.GEN_RSTCAUSE.BROWN = true ∧ d.flag Reg.GEN_RSTCAUSE F.GEN_RSTCAUSE.POR = false ∧
            (∀ j, j < 3 → d.rd (Reg.PWR_SDOM j) = 0) ∧ (∀ j, j < 2 → d.rd (Reg.PWR_TDOM j) = 0) ∧
            ∀ j, j < 4 → (d.core j).run = .notReleased)) ∧
    (∀ (y : Str) (k : Cause),
      let b := u.str y
      let seize := b.holds = true ∧ (u.str y.other).role = rSTANDBY
      let v := if seize then u else u.linkDown;
      (u.stage.off = true → u.resetString y k = u) ∧
      (u.stage.off = false → b.pwr.rstAt = some u.now → ∃ d, u.resetString y k = u.setStr y d ∧ b.regsBut d [Reg.GEN_RSTCAUSE] ∧
        d.flag Reg.GEN_RSTCAUSE k.fld = true ∧ d.fld Reg.GEN_RSTCAUSE F.GEN_RSTCAUSE.NRST = b.fld Reg.GEN_RSTCAUSE F.GEN_RSTCAUSE.NRST) ∧
      (u.stage.off = false → b.pwr.rstAt ≠ some u.now → ∃ r : State, u.resetString y k = r.capoSettle ∧ r.stage = v.stage ∧
        (∀ n, n < 8 → r.tile n = (v.tile n).setReports y []) ∧ (r.str y.other) = { v.str y.other with outbox := [] } ∧
        (let d := r.str y;
          d.red.line = false ∧ d.sram = [] ∧ d.cores = [] ∧ d.pegs = b.pegs ∧ d.wear = b.wear ∧ d.flash = b.flash ∧ d.time = b.time ∧
            d.outbox = (if seize then b.outbox else []) ∧ d.ring = RingUnit.cold ∧ d.pwr.rstAt = some u.now ∧ d.flag Reg.GEN_RSTCAUSE k.fld = true ∧
            (Tab.wf (coldWord b.id) b.regs = true →
              d.fld Reg.GEN_RSTCAUSE F.GEN_RSTCAUSE.NRST = min 65535 (b.fld Reg.GEN_RSTCAUSE F.GEN_RSTCAUSE.NRST + 1) ∧
              ∀ o, o ∉ [Reg.GEN_RSTCAUSE, Reg.PWR_SDOM 0, Reg.PWR_SDOM 1, Reg.PWR_SDOM 2] →
                d.rd o = (warmWord b.id o (BitVec.ofNat 32 (b.rd o))).toNat)))) ∧
    (exec (.warmReset x flr t) s = .next (u.resetString x (if flr then .flr else .rstn)) ∧
      exec (.stringReset x t) s = .next (u.resetString x .str)) ∧
    ((∀ w, e.alv.wdAt = some w → e.time < w) → exec (.watchdogReset x t) s = .next u) ∧
    (∀ w, e.alv.wdAt = some w → w ≤ e.time → exec (.watchdogReset x t) s = .next (u.resetString x .wdog)) ∧
    (let asked := (u.str x.other).flag Reg.RED_CAPOSTAT F.RED_CAPOSTAT.PRQ = true;
      (¬asked → exec (.partnerRequestedReset x t) s = .next u) ∧
      (asked → ∃ p : StringSt, exec (.partnerRequestedReset x t) s = .next ((u.setStr x.other p).resetString x .partner) ∧
        (u.str x.other).regsBut p [Reg.RED_CAPOSTAT] ∧ p.flag Reg.RED_CAPOSTAT F.RED_CAPOSTAT.PRQ = false)) ∧
    (let src := State.wakeSources u.a ||| State.wakeSources u.b
      let wakes := u.a.fld Reg.PWR_STAT F.PWR_STAT.STATE = 2 ∧ u.b.fld Reg.PWR_STAT F.PWR_STAT.STATE = 2 ∧ u.a.pwr.dorm = none ∧ u.b.pwr.dorm = none ∧ src ≠ 0
      let r := (u.resetString .a .wake).resetString .b .wake;
      (¬wakes → exec (.wake t) s = .next u) ∧
      (wakes → ∃ w : State, exec (.wake t) s = .next w ∧ w.stage = r.stage ∧ (∀ y : Str,
          (r.str y).regsBut (w.str y) [Reg.PWR_STAT, Reg.PWR_TDOM 0, Reg.PWR_TDOM 1] ∧
          (w.str y).fld Reg.PWR_STAT F.PWR_STAT.WAKE = src % 8) ∧
        ∀ n, n < 8 → (w.tile n).power = 127 ∧ (w.tile n).pwrHold = false ∧ (w.tile n).chans = [] ∧ (w.tile n).mons = [] ∧
          (w.tile n).regs = (r.tile n).regs)) ∧
    (s.capo ≠ some x → exec (.tileReset x mask) s = .next s) ∧
    (s.capo = some x → ∃ w : State, exec (.tileReset x mask) s = .next w ∧ w.str x.other = s.str x.other ∧ ∀ n, n < 8 →
      ((bit mask.toNat n = false ∨ (s.tile n).domOn 0 = false) → w.tile n = s.tile n) ∧
      (bit mask.toNat n = true → (s.tile n).domOn 0 = true → (w.tile n).fld Reg.TILE_CALSTAT F.TILE_CALSTAT.RESTORED = 1 ∧
        (w.tile n).mirrored = true ∧ (w.tile n).bufs = [] ∧ (w.tile n).nulOn = false)) ∧
    (let o := Reg.ENG_ROLE en
      let j := 5 + en.val;
      (c.blocksOf en ≠ [] → ∃ d : StringSt, exec (.engineReset x en) s = .next (s.setStr x d) ∧
        c.counts d Reg.GEN_RSTSTAT F.GEN_RSTSTAT.EREF 1) ∧
      (c.blocksOf en = [] → ∃ d : StringSt, exec (.engineReset x en) s = .next (s.setStr x d) ∧
        StringSt.regsBut { c with pwr := d.pwr } d [o, Reg.PWR_SDOM (j / 32)] ∧ d.fld o F.ENG_ROLE.ROLE = 3 ∧ d.fld o F.ENG_ROLE.FCAUSE = 0 ∧
        ∀ i, i < 32 → bit (d.rd (Reg.PWR_SDOM (j / 32))) i = (bit (c.rd (Reg.PWR_SDOM (j / 32))) i && i != j % 32))) ∧
    (s.stage.off = true → exec (.hoursIncrement x) s = .next s) ∧
    (s.stage.off = false → ∃ d : StringSt,
      (c.pegTempOk = true → exec (.hoursIncrement x) s = .next (s.setStr x d) ∧ { d with pegs := c.pegs, wear := c.wear } = c ∧
        d.peg h = (c.peg h + 1) % 4294967296 ∧ ∀ a, a ≠ h → d.peg a = c.peg a) ∧
      (c.pegTempOk = false → exec (.hoursIncrement x) s = .next (s.setStr x (d.occur 29 h)) ∧
        c.counts d Reg.PEG_STAT F.PEG_STAT.TBLKCNT 1)) ∧
    (let old := u.stage.off = true ∨ e.fld Reg.SEC_BOOT F.SEC_BOOT.STATE ≠ 0
      let k := if e.pegTempOk = true ∧ (bits (e.peg 0x70000014) 1 2 = 1 ∨ bits (e.peg 0x70000014) 1 2 = 2)
        then bits (e.peg 0x70000014) 1 2 - 1 else bits (e.peg 0x70000014) 0 1
      let res := fun (j : Nat) => if bit faults.toNat j then 6 else e.imageCheck j
      let img := if res k = 1 then k else 1 - k
      let a := 0x400000 * img;
      (old → exec (.bootImageCheck x faults t) s = .next u) ∧
      (¬old → ∃ d : StringSt, exec (.bootImageCheck x faults t) s = .next (if res img = 1 then (u.setStr x d).flashLoad x else u.setStr x d) ∧
        d.fld Reg.SEC_BOOT (if k = 0 then F.SEC_BOOT.RES0 else F.SEC_BOOT.RES1) = res k ∧
        d.fld Reg.SEC_BOOT F.SEC_BOOT.STATE = (if res img = 1 then 1 else 2) ∧ d.flash = e.flash ∧
        (res img = 1 → d.fld Reg.SEC_BOOT F.SEC_BOOT.SLOT = img ∧ d.rd Reg.SEC_FWSVN = e.flashWord (a + 12) ∧
          (e.pegTempOk = true → d.bytes 0 (e.flashWord (a + 8)) = e.flashBytes a (e.flashWord (a + 8)) ∧
            (d.core 0).pc = BitVec.ofNat 32 (e.flashWord (a + 16)) ∧
            d.peg 0x7000000C = (e.peg 0x7000000C + 1) % 4294967296)) ∧
        (res img ≠ 1 → e.pegTempOk = true → d.cores = e.cores))) ∧
    ((e.net.retry = false ∨ e.holds = false) → exec (.epochRetry x t) s = .next (u.setStr x e)) ∧
    (e.net.retry = true → e.holds = true → ∃ d : StringSt, exec (.epochRetry x t) s = .next (u.setStr x d) ∧ (∀ j, j < 4 → d.rd (Reg.ICT_NEXT j) = 0) ∧
      d.net.retry = !e.pegTempOk ∧ (e.pegTempOk = false → d.rd Reg.ICT_EPOCH = 0) ∧
      (e.pegTempOk = true → d.peg 0x7000000C = (e.peg 0x7000000C + 1) % 4294967296 ∧
        d.rd Reg.ICT_EPOCH = (2 * ((e.peg 0x7000000C + 1) % 4294967296) + e.id.idx) % 4294967296))

/-- REFCLK_LOSS and REFCLK_RETURN set REFOK, REFLOSS and source 20. TIME_OFFS_WRITE and PARTNER_TIME_SAMPLE store the offset
and give the servo a sample where their source is the effective one. A sample steps the time, where a step is allowed and its
bound passed, or else moves INT and RATE by the gains; it locks, unlocks and ends holdover by its counts. HOLDOVER_TIMEOUT
when due, and TIME_CTL_MCHG, enter holdover from LOCKING and LOCKED. TIME_NS_WRITE sets the time where allowed, and moves the
instants that the string keeps to measure spans, else sets SETREF; TIME_NS_READ latches the other words. PTP_TX_TIMESTAMP
queues a stamp or counts an overflow; TIME_TXID_READ takes the oldest. TILE_TIME_UPDATE slews, steps or leaves free a tile's
copy. TOUT_ARM arms one pulse or a train, refuses or disarms; TOUT_PULSE and TOUT_PULSE_END start and end a pulse that is due;
TCAP_EDGE captures a selected edge of 20 ns or more; TIME_TCAPNS_READ latches the capture. With the time domain off none of
them acts. -/
def Obligations.TimeUnitCommands : Prop :=
  ∀ (s : State) (x : Str) (v : Word) (port j : Fin 2) (ident : Fin 65535) (n : Fin 8) (i : Fin 4) (rising : Bool) (held t : Nat),
    let c := s.str x
    let u := s.advance t
    let e := u.str x
    let st := e.timeState
    let src := Reg.ALV_SRC 20;
    (e.domOn 60 = false → ∀ i' ∈ [Instr.refclkLoss x t, .refclkReturn x t, .timeOffsWrite x v t,
      .partnerTimeSample x t, .holdoverTimeout x t, .timeCtlMchg x t, .timeNsWrite x v t, .timeNsRead x t, .ptpTxTimestamp x port ident t,
      .toutArm x i v t, .toutPulse x i t, .toutPulseEnd x i t, .tcapEdge x j ⟨rising, held⟩ t], exec i' s = .next u) ∧
    (c.domOn 60 = false → exec (.timeTxidRead x port) s = .next s ∧ exec (.timeTcapnsRead x j) s = .next s) ∧
    (e.brgUp = false → exec (.partnerTimeSample x t) s = .next u) ∧
    (∀ (a : StringSt) (off : Int), let d := a.sample off
      let n := max 1 (a.fld Reg.TIME_CFG F.TIME_CFG.LOCKN)
      let exit := max 1 (a.fld Reg.TIME_CFG F.TIME_CFG.HOLDEXIT)
      let small := (off.natAbs : Int) ≤ ((a.fld Reg.TIME_THR F.TIME_THR.LOCKTHR * nsT : Nat) : Int)
      let steps := a.stepAllowed = true ∧ ((a.fld Reg.TIME_THR F.TIME_THR.STEPTHR * nsT : Nat) : Int) < off.natAbs
      let int := sx 32 (a.rd Reg.TIME_INT) - rhe (off * 256) (a.fld Reg.TIME_SERVO F.TIME_SERVO.KI + 16)
      let rate := clampI (-a.slewLim) a.slewLim (int - rhe (off * 256) (a.fld Reg.TIME_SERVO F.TIME_SERVO.KP + 16));
      d.tim.lastSample = d.time ∧ (d.time = a.time → d.cores = a.cores) ∧ d.sram = a.sram ∧ d.plan = a.plan ∧
        (a.timeState = 3 → a.tim.exitRun + 1 < exit → d.timeState = 3 ∧ d.time = a.time ∧ d.rd Reg.TIME_INT = a.rd Reg.TIME_INT ∧
          d.tim.exitRun = a.tim.exitRun + 1) ∧
        (a.timeState = 3 → exit ≤ a.tim.exitRun + 1 → d.timeState = 1 ∧ d.flag (Reg.ALV_SRC 21) F.ALV_SRC.LIVE = false ∧
          d.tim.exitRun = 0) ∧
        (a.timeState = 2 → d.timeState = if ¬small ∧ n ≤ a.tim.outRun + 1 then 1 else 2) ∧
        (a.timeState < 2 → d.timeState = if small ∧ n ≤ a.tim.inRun + 1 ∧ a.timeState = 1 then 2 else 1) ∧
        (a.timeState ≠ 3 → steps → d.time = ((a.time : Int) - off).toNat ∧ d.flag Reg.TIME_STAT F.TIME_STAT.STEPPED = true ∧
          d.rd Reg.TIME_INT = a.rd Reg.TIME_INT ∧ d.rd Reg.TIME_RATE = a.rd Reg.TIME_RATE) ∧
        (a.timeState ≠ 3 → ¬steps → d.time = a.time ∧ (satS 32 int = int → d.rd Reg.TIME_INT = wrap 32 int) ∧
          (satS 32 rate = rate → d.rd Reg.TIME_RATE = wrap 32 rate))) ∧
    (let d := u.tile n
      let lim : Int := ((min usT (d.time - d.timeAt) / 10000 : Nat) : Int)
      let w := exec (.tileTimeUpdate n t) s;
      (d.slaveNow = none ∨ d.hold = true → w = .next (u.setTile n { d with freeRun := true, stepAt := none })) ∧
      (∀ y, d.slaveNow = some y → d.hold = false →
        let k := u.str y
        let diff := (k.time : Int) - d.time
        let z := ((d.time : Int) + clampI (-lim) lim diff).toNat;
        (d.stepAt = none → ¬(d.freeRun = true ∧ 3276800 < diff.natAbs) →
          w = .next (u.setTile n { d with time := z, timeAt := z, rate := k.rate, freeRun := false })) ∧
        (d.stepAt = none → d.freeRun = true → 3276800 < diff.natAbs → w = .next (u.setTile n { d with stepAt := some (ceilTo frameT (d.time + 1)) })) ∧
        (∀ b, d.stepAt = some b → d.time < b → w = .next (u.setTile n d)) ∧
        (∀ b, d.stepAt = some b → b ≤ d.time → w = .next ((u.setTile n { d with
          time := k.time
          timeAt := k.time
          rate := k.rate
          freeRun := false
          stepAt := none }).setStr y (k.occur 22 n)))) ∧
      bit (u.peek x Reg.TIME_TILE) n = (d.domOn 0 && u.tileSynced n) ∧ bit (u.peek x Reg.TIME_TILE) (8 + n) = (d.domOn 0 && d.freeNow)) ∧
    (c.domOn 60 = true →
      let q := c.txq port;
      (q = [] → exec (.timeTxidRead x port) s = .next (s.setStr x c)) ∧
      ∀ a l, q = a :: l → ∃ d : StringSt, exec (.timeTxidRead x port) s = .next (s.setStr x d) ∧ d.txq port = l ∧
        d.rd (Reg.TIME_TXNS port) = nsOf a.2 ∧ d.rd (Reg.TIME_TXSL port) = secOf a.2 % 4294967296 ∧
        StringSt.regsBut { c with tim := d.tim } d [Reg.TIME_TXNS port, Reg.TIME_TXSL port]) ∧
    (c.domOn 60 = true → ∃ d : StringSt, exec (.timeTcapnsRead x j) s = .next (s.setStr x d) ∧
      StringSt.regsBut { c with tim := d.tim } d [Reg.TIME_TCAPSL j, Reg.TIME_TCAPFNS j] ∧
      d.tcap j = { c.tcap j with unread := false, latched := true } ∧ d.rd (Reg.TIME_TCAPSL j) = secOf (c.tcap j).at_ % 4294967296 ∧
      d.rd (Reg.TIME_TCAPFNS j) = (c.tcap j).at_ % 65536) ∧
    (e.domOn 60 = true →
      (∃ d : StringSt, e.regsBut d [Reg.TIME_STAT, src] ∧ d.flag Reg.TIME_STAT F.TIME_STAT.REFOK = false ∧
        d.flag Reg.TIME_STAT F.TIME_STAT.REFLOSS = true ∧ d.flag src F.ALV_SRC.LIVE = true ∧
        exec (.refclkLoss x t) s = .next (u.setStr x (if e.flag Reg.TIME_STAT F.TIME_STAT.REFOK then d.occur 20 0 else e))) ∧
      (∃ d : StringSt, exec (.refclkReturn x t) s = .next (u.setStr x d) ∧ e.regsBut d [Reg.TIME_STAT, src] ∧
        d.flag Reg.TIME_STAT F.TIME_STAT.REFOK = true ∧ d.flag src F.ALV_SRC.LIVE = false ∧
        d.fld Reg.TIME_STAT F.TIME_STAT.REFLOSS = e.fld Reg.TIME_STAT F.TIME_STAT.REFLOSS) ∧
      (∃ d : StringSt, e.regsBut d [Reg.TIME_OFFS, Reg.TIME_MON] ∧ d.rd Reg.TIME_OFFS = v.toNat ∧ d.rd Reg.TIME_MON = v.toNat ∧
        exec (.timeOffsWrite x v t) s =
          .next (u.setStr x (if e.fld Reg.TIME_STAT F.TIME_STAT.ESRC = 0 then d.sample (sx 32 v.toNat * 4096) else d))) ∧
      (let off := (e.time : Int) - (u.str x.other).time;
        e.brgUp = true → ∃ d : StringSt, e.regsBut d [Reg.TIME_PART] ∧
          d.rd Reg.TIME_PART = wrap 32 (clampI (-2147483647) 2147483647 (rheDiv off 4096)) ∧
          exec (.partnerTimeSample x t) s = .next (u.setStr x (if e.fld Reg.TIME_STAT F.TIME_STAT.ESRC = 1 then d.sample off else d))) ∧
      (let due := e.tim.lastSample + max 1 (e.fld Reg.TIME_CFG F.TIME_CFG.HOLDTO) * 10 * msT ≤ e.time
        let from_ := st = 1 ∨ st = 2;
        (¬(due ∧ from_) → exec (.holdoverTimeout x t) s = .next (u.setStr x e)) ∧ (¬from_ → exec (.timeCtlMchg x t) s = .next (u.setStr x e)) ∧
        (from_ → ∃ d : StringSt, (due → exec (.holdoverTimeout x t) s = .next (u.setStr x ((d.occurLive 21 0).fire 130))) ∧
          exec (.timeCtlMchg x t) s = .next (u.setStr x ((d.occurLive 21 0).fire 130)) ∧
          StringSt.regsBut { e with tim := d.tim } d [Reg.TIME_STAT, Reg.TIME_RATE] ∧ d.timeState = 3 ∧
          d.rd Reg.TIME_RATE = e.rd Reg.TIME_INT ∧
          d.fld Reg.TIME_STAT F.TIME_STAT.HOLDS = min 65535 (e.fld Reg.TIME_STAT F.TIME_STAT.HOLDS + 1))) ∧
      (let w := exec (.timeNsWrite x v t) s;
        (1000000000 ≤ v.toNat → w = .next (u.setStr x e)) ∧
        (v.toNat < 1000000000 → e.stepAllowed = false → ∃ d : StringSt, w = .next (u.setStr x d) ∧ e.regsBut d [Reg.TIME_STAT] ∧
          d.flag Reg.TIME_STAT F.TIME_STAT.SETREF = true ∧ d.timeState = st) ∧
        (v.toNat < 1000000000 → e.stepAllowed = true →
          let z := ((e.tim.heldH * 4294967296 + e.tim.heldL) * 1000000000 + v.toNat) * 65536;
          ∃ d : StringSt, w = .next (u.setStr x d) ∧ d.time = z ∧ d.regs = e.regs ∧ d.sram = e.sram ∧ d.ring = e.ring ∧ d.plan = e.plan ∧
            (∀ b, e.evf.outEnd = some b → d.evf.outEnd = some (b + z - e.time)) ∧
            (∀ b, e.alv.deadline = some b → d.alv.deadline = some (b + z - e.time)) ∧
            ∀ k, (d.tout k).next = (e.tout k).next)) ∧
      (∃ d : StringSt, exec (.timeNsRead x t) s = .next (u.setStr x d) ∧ e.regsBut d [Reg.TIME_SEC_H, Reg.TIME_SEC_L, Reg.TIME_FNS] ∧
        d.rd Reg.TIME_SEC_H = secOf e.time / 4294967296 % 65536 ∧ d.rd Reg.TIME_SEC_L = secOf e.time % 4294967296 ∧
        d.rd Reg.TIME_FNS = e.time % 65536) ∧
      (let o := Reg.TIME_TXQ port
        let q := e.txq port;
        ∃ d : StringSt, exec (.ptpTxTimestamp x port ident t) s = .next (u.setStr x d) ∧
          (q.length < 16 → d.txq port = q ++ [(ident.val, e.time + e.fld (Reg.TIME_LAT port) F.TIME_LAT.EGRESS * 4096)] ∧
            d.txq (1 - port.val) = e.txq (1 - port.val) ∧ { d with tim := e.tim } = e) ∧
          (16 ≤ q.length → e.regsBut d [o] ∧ d.flag o F.TIME_TXQ.OVERFLOW = true ∧
            d.fld o F.TIME_TXQ.OVCNT = min 65535 (e.fld o F.TIME_TXQ.OVCNT + 1))) ∧
      (let o := Reg.TIME_TOUTCFG i
        let mode := v.toNat % 4
        let width := bits v.toNat 4 24
        let per := e.rd (Reg.TIME_TOUTPER i)
        let bad := mode ≠ 0 ∧ mode ≠ 3 ∧ (width = 0 ∨ (mode = 2 ∧ (per < 100 ∨ per ≤ width * 10)));
        ∃ d : StringSt, exec (.toutArm x i v t) s = .next (u.setStr x d) ∧ StringSt.regsBut { e with tim := d.tim } d [o] ∧
          (∀ k, k ≠ i.val → d.tout k = e.tout k) ∧ (d.tout i).pulseEnd = (e.tout i).pulseEnd ∧ d.fld o F.TIME_TOUTCFG.WIDTH = width ∧
          (mode = 0 ∨ mode = 3 → (d.tout i).next = none ∧ d.fld o F.TIME_TOUTCFG.MODE = mode) ∧
          (bad → d.tout i = e.tout i ∧ d.flag o F.TIME_TOUTCFG.LATE = true) ∧
          (mode = 1 → ¬bad → e.time + usT ≤ e.toutStart i → (d.tout i).next = some (e.toutStart i) ∧ (d.tout i).width = width * 10 * nsT) ∧
          (mode = 1 → ¬bad → e.toutStart i < e.time + usT → (d.tout i).next = none ∧ d.flag o F.TIME_TOUTCFG.LATE = true) ∧
          (mode = 2 → ¬bad → (d.tout i).period = per * nsT ∧ ∃ b, (d.tout i).next = some b ∧ e.time + usT ≤ b ∧ b < e.time + usT + per * nsT ∧
            ((b : Int) - e.toutStart i) % ((per * nsT : Nat) : Int) = 0)) ∧
      (let p := e.tout i;
        ((∀ b, p.next = some b → e.time < b) → exec (.toutPulse x i t) s = .next (u.setStr x e)) ∧
        (∀ b, p.next = some b → b ≤ e.time → ∃ d : StringSt, exec (.toutPulse x i t) s = .next (u.setStr x (d.fire (64 + i))) ∧
          { d with tim := e.tim } = e ∧ (d.tout i).pulseEnd = some (b + p.width) ∧
          (d.tout i).next = (if p.mode = 2 then some (b + p.period) else none) ∧ ∀ k, k ≠ i.val → d.tout k = e.tout k) ∧
        ((∀ b, p.pulseEnd = some b → e.time < b) → exec (.toutPulseEnd x i t) s = .next (u.setStr x e)) ∧
        (∀ b, p.pulseEnd = some b → b ≤ e.time → ∃ d : StringSt, exec (.toutPulseEnd x i t) s = .next (u.setStr x d) ∧ { d with tim := e.tim } = e ∧
          d.tout i = { p with pulseEnd := none } ∧ ∀ k, k ≠ i.val → d.tout k = e.tout k)) ∧
      (let o := Reg.TIME_TCAPCFG j
        let takes := bit (e.fld o F.TIME_TCAPCFG.EDGE) (if rising then 0 else 1) = true ∧ 20 * nsT ≤ held;
        (¬takes → exec (.tcapEdge x j ⟨rising, held⟩ t) s = .next (u.setStr x e)) ∧
        (takes → ∃ d : StringSt, exec (.tcapEdge x j ⟨rising, held⟩ t) s = .next (u.setStr x (d.fire (68 + j))) ∧
          StringSt.regsBut { e with tim := d.tim } d [o, Reg.TIME_TCAPSL j, Reg.TIME_TCAPFNS j] ∧
          d.tcap j = { e.tcap j with at_ := e.time - 262144, unread := true } ∧
          d.fld o F.TIME_TCAPCFG.CNT = (e.fld o F.TIME_TCAPCFG.CNT + 1) % 65536 ∧
          ((e.tcap j).unread = true → d.flag o F.TIME_TCAPCFG.OVR = true))))

/-- CALENDAR_OCCURRENCE_STAGE, once the occurrence is due, goes on to the next one and stages its chain under the next ARMSEQ
where its slots are held and its tiles have room, or skips it after a stop. CALENDAR_CYCLE_BOUNDARY fires producer 72 and
counts a cycle, of the pending image where its boundary has come, or stops the calendar. XT_SNAPSHOT takes the sources of a
multiple of 100 us once and puts the crosstalk jobs of the blocks in line, bound 100 us on; FF_FRAME takes each due stroke
once and puts the jobs of the rows that it moves in line; a job binds the feed-forward of its rows. XT_ACCUMULATE takes each
stroke whose windows have passed once. XT_MSEL_WRITE sets the selection and clears its accumulators. CAL_COMMIT_CLOSE closes a
commit interval once and places what changed in the command order, one commit at a time, without writing the record;
CAL_COMMIT_APPLY writes it at its frame. CAL_STROKE_SAMPLE and CAL_TARGET_SAMPLE take their samples once and leave the record.
-/
def Obligations.CalendarCrosstalkCalibration : Prop :=
  ∀ (s : State) (x : Str) (v : Word) (t : Nat),
    let c := s.str x
    let u := s.advance t
    let e := u.str x;
    (let i := e.plan.next.2
      let start := e.plan.next.1
      let base := if e.plan.switchAt.any (fun b => decide (b ≤ start)) then StringSt.calPend else StringSt.calRun
      let teff := start + e.word (base + 32 + 8 * i) * 65536
      let k := e.word (base + 36 + 8 * i) % 128
      let stopped := StringSt.calState e = 0 ∧ teff < e.plan.cycle + e.plan.lead
      let due := (2 ≤ StringSt.calState e ∨ stopped) ∧ e.word base % 512 ≠ 0 ∧ teff ≤ e.time + e.plan.lead
      let q := (e.rd Reg.PLAN_ARMSEQ + 1) % 4294967296
      let st := e.newStroke k q (ceilTo gridT teff) true
      let held := ∀ j ∈ st.chain, (e.slotState j = slARMED ∧ e.slotCal j = true) ∨ e.slotNow j = slSEALED
      let skipped := stopped ∨ (StringSt.calState e = 3 ∧ e.plan.cycle ≤ start) ∨ ¬held
      let room := ¬skipped ∧ ∀ m ∈ StringSt.tileList st.tiles, e.noBuffer m true = false ∧ u.stageFail (2 ^ m) = false;
      (¬due → exec (.calendarOccurrenceStage x t) s = .next u) ∧
      (due → ∃ d : StringSt, exec (.calendarOccurrenceStage x t) s = .next (u.setStr x d) ∧
        d.plan.next = (if i + 1 < e.word base % 512 then (start, i + 1) else (start + e.word (base + 16) * 65536, 0)) ∧
        d.cores = e.cores ∧ d.plan.cycle = e.plan.cycle ∧
        (room → d.rd Reg.PLAN_ARMSEQ = q ∧
          (e.holds = true → ∃ g, d.plan.arming = e.plan.arming ++ [g] ∧ g.stroke.slot = k ∧ g.stroke.armSeq = q ∧
            g.stroke.ts = ceilTo gridT teff ∧ g.stroke.cal = true) ∧
          (e.holds = false → d.plan.arming = e.plan.arming ∧ ∃ g, d.plan.strokes = e.plan.strokes ++ [g] ∧ g.slot = k ∧ g.armSeq = q)) ∧
        (skipped → d.rd Reg.PLAN_ARMSEQ = e.rd Reg.PLAN_ARMSEQ ∧
          d.plan.arming = e.plan.arming ∧ d.plan.strokes = e.plan.strokes ∧
          d.fld Reg.PLAN_CALSKIP F.PLAN_CALSKIP.CNT = min (2 ^ F.PLAN_CALSKIP.CNT.w - 1) (e.fld Reg.PLAN_CALSKIP F.PLAN_CALSKIP.CNT + 1)))) ∧
    (let due := 2 ≤ StringSt.calState e ∧ e.plan.cycle ≤ e.time
      let a := e.fire 72
      let b := e.plan.cycle;
      (¬due → exec (.calendarCycleBoundary x t) s = .next u) ∧
      (due → StringSt.calState e = 3 → ∃ w : State, exec (.calendarCycleBoundary x t) s = .next w ∧
        StringSt.calState (w.str x) = 0 ∧ (w.str x).plan.switchAt = none ∧ ∀ n, n < 8 → (u.capo = some x → (w.tile n).calRes = false) ∧
          (u.capo ≠ some x → w.tile n = u.tile n)) ∧
      (due → StringSt.calState e = 2 → ∃ d : StringSt, exec (.calendarCycleBoundary x t) s = .next (u.setStr x d) ∧
        d.fld Reg.PLAN_CALSTAT F.PLAN_CALSTAT.CYCLES = (e.fld Reg.PLAN_CALSTAT F.PLAN_CALSTAT.CYCLES + 1) % 65536 ∧
        d.plan.cycle = b + d.word (StringSt.calRun + 16) * 65536 ∧
        (e.plan.switchAt ≠ some b → StringSt.regsBut { a with plan := d.plan } d [Reg.PLAN_CALSTAT] ∧ d.plan.strokes = e.plan.strokes) ∧
        (e.plan.switchAt = some b → d.plan.switchAt = none ∧ d.flag Reg.PLAN_CALSTAT F.PLAN_CALSTAT.PEND = false))) ∧
    (let k := e.time / 6553600000 * 6553600000
      let f := k / frameT + 10
      let old := e.eng.snaps.any fun q => decide (k ≤ q.1);
      (old = true → exec (.xtSnapshot x t) s = .next (u.setStr x e)) ∧
      (old = false → ∃ (d : StringSt) (tab : Tab XtSrc), exec (.xtSnapshot x t) s = .next (u.setStr x d) ∧
        StringSt.regsBut { e with eng := d.eng, plan := d.plan } d [Reg.XT_BIND, Reg.XT_SATCNT] ∧
        d.eng.snaps = ((k, tab) :: e.eng.snaps).take 4 ∧
        (∀ r, r < 16384 → ∀ q ∈ e.rowTerms r, Tab.get (fun _ => ⟨false, 0⟩) tab q.1 = e.sourceAt q.1 k) ∧
        (e.eng.xt = [] → d.regs = e.regs ∧ d.eng.ff = e.eng.ff ∧
          (let l := e.xtBlocks ⟨2 * f, k, tab, [], []⟩;
            d.eng.xt = if l = [] then [] else [⟨2 * f, k, tab, [], l⟩])))) ∧
    (∀ (b : StringSt) (q : XtJob) (j : Nat), let d := b.xtRun q j
      StringSt.regsBut { b with eng := d.eng } d [Reg.XT_BIND, Reg.XT_SATCNT] ∧ d.rd Reg.XT_BIND = q.key / 2 % 4294967296 ∧
        (∀ r ∈ d.eng.xt, r.key = q.key → j ∉ r.left) ∧
        (∀ a, a ∉ b.xtRows q j → Tab.get (fun _ => []) d.eng.ff a = Tab.get (fun _ => []) b.eng.ff a) ∧
        ∀ a ∈ b.xtRows q j, (∀ z ∈ Tab.get (fun _ => []) b.eng.ff a, z.1 < q.key) →
          let val := (b.feedForward a (b.xtSource q)).1;
          Tab.get (fun _ => []) d.eng.ff a = if Tab.get (fun _ => []) b.eng.ff a = [] ∧ val = 0 then []
            else ((q.key, val) :: Tab.get (fun _ => []) b.eng.ff a).take 64) ∧
    (∃ d : StringSt, exec (.ffFrame x t) s = .next (u.setStr x d) ∧ { d with plan := e.plan, eng := e.eng } = e ∧
      d.plan.strokes = (e.plan.strokes.map fun k => if StringSt.ffInstant k ≤ e.time then { k with ffDone := true } else k) ∧
      (let due := e.plan.strokes.filter fun k => !k.ffDone && decide (StringSt.ffInstant k ≤ e.time);
        (e.flag Reg.XT_CFG F.XT_CFG.SFF = false ∨ due = [] → d.eng = e.eng) ∧
        ∀ k, e.plan.strokes = [k] → due = [k] → e.flag Reg.XT_CFG F.XT_CFG.SFF = true → e.eng.xt = [] →
          StringSt.ffCancelled k = false → e.cancelDue k.armSeq (StringSt.ffInstant k) = false →
          let z := (e.eng.snaps.find? fun q => decide (q.1 + 10 * frameT ≤ StringSt.ffInstant k)).getD (0, [])
          let q : XtJob := ⟨2 * frameOf (StringSt.ffInstant k) + 1, z.1, z.2, k.ents.map fun e => (e.act, e.p1), []⟩;
          d.eng.xt = if e.xtBlocks q = [] then [] else [{ q with left := e.xtBlocks q }])) ∧
    (∃ d : StringSt, exec (.xtAccumulate x t) s = .next (u.setStr x d) ∧
      StringSt.regsBut { e with sram := d.sram, plan := d.plan, rte := d.rte, free := d.free } d [Reg.XT_MSTAT] ∧
      (∀ k ∈ d.plan.strokes, k.past = true → k.withdrawn = false → State.windowsEnd k ≤ e.time → k.xtDone = true) ∧
      d.plan.strokes.map (fun k => { k with xtDone := false }) = e.plan.strokes.map (fun k => { k with xtDone := false }) ∧
      ∀ k, e.plan.strokes = [k] → k.past = true → k.withdrawn = false → k.xtDone = false → State.windowsEnd k ≤ e.time → k.missed = 0 →
        let n := fun (d : StringSt) (f : Fld) => d.fld Reg.XT_MSTAT f;
        (n d F.XT_MSTAT.STROKES = min 65535 (n e F.XT_MSTAT.STROKES + 1) ∧ n d F.XT_MSTAT.REJECT = n e F.XT_MSTAT.REJECT) ∨
          (n d F.XT_MSTAT.REJECT = min 65535 (n e F.XT_MSTAT.REJECT + 1) ∧ n d F.XT_MSTAT.STROKES = n e F.XT_MSTAT.STROKES)) ∧
    (let first := bits v.toNat 0 14
      let n := min (bits v.toNat 16 13) (min 4096 (16384 - first))
      let lo := 0x00E18000;
      ∃ d : StringSt, exec (.xtMselWrite x v) s = .next (s.setStr x d) ∧ StringSt.regsBut { c with sram := d.sram, rte := d.rte } d [Reg.XT_MSEL] ∧
        d.rd Reg.XT_MSEL = first + 65536 * n ∧ d.rte.contrib = [] ∧
        ∀ a, d.sram.byte a = if lo ≤ a ∧ a < lo + 192 * n then 0 else c.sram.byte a) ∧
    (let per := max 1 (e.fld Reg.CAL_CFG F.CAL_CFG.CPER) * 10 * msT
      let iv := e.time / per * per
      let fresh := e.cal.shut = none
      let goes := e.calOn = true ∧ State.loadPending e = false ∧ e.red.joinHeld = false ∧ e.cal.commit = none ∧ (fresh → e.cal.closed < iv)
      let f := max (ceilTo frameT (e.time + 30 * usT)) e.ring.lastEff
      let fabd := (List.range 8).map fun i => e.word (calHdr (4 + i));
      (¬goes → exec (.calCommitClose x t) s = .next u) ∧
      (goes → ∃ (d : StringSt) (l : List (Nat × Nat)),
        (let m : CalCommit := ⟨f, l, fabd, (e.cal.shut.map (·.n)).getD e.cal.nOpen, e.gseqNext⟩;
          exec (.calCommitClose x t) s = .next (u.setStr x (if l ≠ [] ∧ e.joined = true then d.send (.calCommit m) else d)) ∧
          d.cal.shut = none ∧ d.sram = e.sram ∧ d.regs = e.regs ∧ (∀ q ∈ l, e.word q.1 ≠ q.2) ∧
          (fresh → d.cal.closed = iv ∧ d.cal.nOpen = 0 ∧ d.cal.lags = []) ∧
          (¬fresh → d.cal.closed = e.cal.closed ∧ d.cal.nOpen = e.cal.nOpen ∧ d.cal.lags = e.cal.lags ∧ d.cal.work = e.cal.work) ∧
          (l = [] → d.cal.commit = none ∧ d.ring = e.ring) ∧
          (l ≠ [] → d.cal.commit = some m ∧ d.ring = { e.ring with lastEff := f })))) ∧
    (let quiet := fun (y : Str) => ∀ m ∈ (u.str y).outbox, ∀ z, m ≠ .calCommit z
      let none_ := fun (y : Str) => ∀ z, (u.str y).cal.commit = some z → (u.str y).time < z.frame;
      (quiet .a → quiet .b → none_ .a → none_ .b → exec (.calCommitApply t) s = .next u) ∧
      (quiet .a → quiet .b → none_ x.other → ∀ m, e.cal.commit = some m → m.frame ≤ e.time → ∃ (d : StringSt) (w : State),
        exec (.calCommitApply t) s = .next w ∧ w.str x = d.fire 131 ∧ w.str x.other = u.str x.other ∧ d.cal.commit = none ∧
        (let q := (e.rd Reg.CAL_CSEQ + 1) % 4294967296;
          d.rd Reg.CAL_CSEQ = q ∧ d.word (calHdr 3) = q ∧ d.fld Reg.CAL_STAT F.CAL_STAT.SRC = 1 ∧
            d.word (calHdr 12) = nsOf m.frame ∧ d.word (calHdr 13) = secOf m.frame % 4294967296) ∧
        (∀ p r a b, m.words = p ++ (a, b) :: r → (∀ z ∈ r, a + 4 ≤ z.1 ∨ z.1 + 4 ≤ a) → calHdr 14 ≤ a → d.word a = b % 4294967296) ∧
        (u.capo ≠ some x → ∀ n, n < 8 → w.tile n = u.tile n))) ∧
    (∃ w : State, exec (.calStrokeSample x t) s = .next w ∧ w.str x.other = u.str x.other ∧ w.tiles = u.tiles ∧
      (let d := w.str x;
        StringSt.regsBut { e with cal := d.cal, plan := d.plan, free := d.free } d [Reg.CAL_SAMP, Reg.CAL_DROP] ∧
        (∀ k ∈ d.plan.strokes, k.past = true → k.withdrawn = false → State.windowsEnd k ≤ e.time → k.calDone = true) ∧
        d.plan.strokes.map (fun k => { k with calDone := false }) = e.plan.strokes.map fun k => { k with calDone := false })) ∧
    (let k := e.time / sweepT
      let goes := e.calOn = true ∧ e.cal.judged < k;
      (¬goes → exec (.calTargetSample x t) s = .next (u.setStr x e)) ∧
      (goes → ∃ d : StringSt, exec (.calTargetSample x t) s = .next (u.setStr x d) ∧ d.cal.judged = k ∧
        StringSt.regsBut { e with cal := d.cal, free := d.free } d [Reg.CAL_SAMP, Reg.CAL_DROP] ∧ ∀ z ∈ d.cal.firsts, ∀ q ∈ z.2, k - 1 < q.1)) ∧
    (∀ (b : StringSt) (a st : Nat) (val : Int), st < 2 →
      let d := b.targetUpdate a st val
      let old := bits (b.calW (trimA a)) (16 * st) 16
      let new := if bit (b.calW (trimA a + 4)) (16 + st) then (old : Int) + rhe (val - old) (b.fld Reg.CAL_CFG F.CAL_CFG.TSH) else val;
      d.sram = b.sram ∧ bit (d.calW (trimA a + 4)) (16 + st) = true ∧ d.cal.nOpen = b.cal.nOpen + 1 ∧
        (0 ≤ new → new < 65536 → (bits (d.calW (trimA a)) (16 * st) 16 : Int) = new))

/-- CAPO_TAKE in its take window, from IDLE with what R288 asks, drives the line, is ACTIVE, restores the tiles that need it
and notes cause 6; CAPO_SEIZE of a standby, under R290, drives the line, is ACTIVE and notes cause 5; either does nothing
otherwise. TRANSFER_REQUEST takes a TRANSFER and answers ACCEPT where it may, else REFUSE; TRANSFER_ACCEPT notes an ACCEPT
that comes by FT - 6 us; TRANSFER_DEASSERT drops the line at its instant, or aborts without an ACCEPT; TRANSFER_ASSERT drives
the new line in the window of FT, or forgets the transfer and sends ABORT; TRANSFER_REASSERT_CHECK takes the line back where
nobody holds it; TRANSFER_COMPLETE at FT exchanges the roles by the cause. An abort is ACTIVE again and counted, and a verdict
that waited is carried out. A start needs an ACTIVE joined string and names FT, a frame of the other's parity. CAPO_FORCE_N
low starts a transfer away from an ACTIVE joined A, or sets the instant at which a lone A leaves. READY ends BOOT, TAKE asks
for a take, SWAP and a due ROLE_SWAP start a transfer or count a skip, DROP sends the standby to IDLE. -/
def Obligations.CapoAndRoles : Prop :=
  ∀ (s : State) (x : Str) (t : Nat),
    let c := s.str x
    let u := s.advance t
    let e := u.str x
    let p := u.str x.other
    let notes := fun (r : State) (k b : Nat) => ∀ y : Str, (r.str y).fld Reg.RED_XFER F.RED_XFER.CAUSE = k % 8 ∧
      (r.str y).flag Reg.RED_XFER F.RED_XFER.ABORT = false ∧ (r.str y).rd Reg.RED_XFERFR = frameOf b % 4294967296 ∧
      (r.str y).red.capoAt = (u.str y).time
    let low := p.red.line = false ∧ p.lineSeen = false
    let muted := fun (d : TileSt) => if d.cmpFrom.isSome = true ∧ d.cmpOff = none then { d with cmpOff := some ((d.time / frameT + 1) * frameT) } else d
    let forced := u.capoForceN = false ∧ x = .a;
    (let may := e.role = rIDLE ∧ (e.flag Reg.RED_CFG F.RED_CFG.AUTOTAKE = true ∨ e.red.takeReq = true) ∧
        e.red.idleSince + e.fld Reg.RED_CFG F.RED_CFG.TAKEDLY * 10 * msT ≤ e.time ∧ low ∧ (e.brgUp = false ∨ e.partnerHolds = false) ∧ ¬forced;
      (e.takeWindow = none ∨ ¬may → exec (.capoTake x t) s = .next u) ∧
      (∀ b, e.takeWindow = some b → may → ∃ r : State, exec (.capoTake x t) s = .next r.capoSettle ∧ (r.str x).red.line = true ∧
        (r.str x).role = rACTIVE ∧ (r.str x).red.claimFrom = b ∧ (r.str x).red.takeReq = false ∧ notes r 6 b ∧
        ∀ n, n < 8 → ((u.tile n).fld Reg.TILE_CALSTAT F.TILE_CALSTAT.RESTORED = 0 →
            (r.tile n).fld Reg.TILE_CALSTAT F.TILE_CALSTAT.RESTORED = 1) ∧
          ((u.tile n).fld Reg.TILE_CALSTAT F.TILE_CALSTAT.RESTORED ≠ 0 → r.tile n = u.tile n))) ∧
    (let may := e.role = rSTANDBY ∧ e.flag Reg.RED_CFG F.RED_CFG.SEIZE = true ∧ e.impaired = false ∧ e.red.xfer = none ∧
        (∀ m ∈ p.outbox, ∀ a b, m ≠ .transfer a b) ∧ low ∧ ¬forced;
      (e.takeWindow = none ∨ ¬may → exec (.capoSeize x t) s = .next u) ∧
      (∀ b, e.takeWindow = some b → may → ∃ r : State, exec (.capoSeize x t) s = .next r.capoSettle ∧ (r.str x).red.line = true ∧
        (r.str x).role = rACTIVE ∧ (r.str x).joined = false ∧ (r.str x).red.claimFrom = b ∧ notes r 5 b)) ∧
    (let isT := fun (m : BMsg) => ∃ a b, m = .transfer a b;
      ((∀ m ∈ p.outbox, ¬isT m) → exec (.transferRequest x t) s = .next u) ∧
      ∀ ft k rest, u.incoming x isT (.transfer ft k) rest → ∃ d : StringSt,
        (let w := u.setStr x.other { p with outbox := rest }
          let ok := e.role = rSTANDBY ∧ e.impaired = false ∧ e.time + 10 * usT ≤ ft;
          exec (.transferRequest x t) s = .next (w.setStr x (d.send (if ok then .accept ft else .refuse ft))) ∧ { d with red := e.red } = e ∧
            d.red.blamedAt = none ∧ d.red.xfer = if ok then some ⟨ft, k, true, false, false, e.time⟩ else e.red.xfer)) ∧
    (let isA := fun (m : BMsg) => ∃ a, m = .accept a ∨ m = .refuse a ∨ m = .abort a
      let e := s.str x
      let p := s.str x.other;
      ((∀ m ∈ p.outbox, ¬isA m) → exec (.transferAccept x) s = .next s) ∧
      ∀ m rest, s.incoming x isA m rest →
        let w := s.setStr x.other { p with outbox := rest }
        let takes := fun (v : Xfer) => e.red.xfer = some v ∧ v.giving = true ∧ m = .accept v.ft ∧ e.time + 6 * usT ≤ v.ft;
        (∀ v, takes v → exec (.transferAccept x) s =
          .next (w.setStr x (StringSt.reselect { e with red := { e.red with xfer := some { v with accepted := true } } }))) ∧
        ((¬∃ v, takes v) → exec (.transferAccept x) s = .next (w.setStr x e))) ∧
    (let give := fun (v : Xfer) => e.red.xfer = some v ∧ v.giving = true ∧ e.role = rHANDOVER;
      ((¬∃ v, give v) → exec (.transferDeassert x t) s = .next u) ∧
      ∀ v, give v → (v.accepted = true → v.ft ≤ e.time + 5 * usT → ∃ d : StringSt, exec (.transferDeassert x t) s = .next (u.setStr x d).capoSettle ∧
          d.red.line = false ∧ { d with red := e.red } = e ∧ d.red.xfer = some v) ∧
        (v.accepted = true → e.time + 5 * usT < v.ft → exec (.transferDeassert x t) s = .next u) ∧
        (v.accepted = false → v.ft ≤ e.time + 6 * usT → exec (.transferDeassert x t) s = .next (u.abortXfer x)) ∧
        (v.accepted = false → e.time + 6 * usT < v.ft → exec (.transferDeassert x t) s = .next u)) ∧
    (let deny := p.red.xfer.elim forced fun w => w.giving = true ∧ w.deny = true
      let takes := fun (v : Xfer) => e.red.xfer = some v ∧ v.giving = false ∧ e.role = rSTANDBY;
      ((¬∃ v, takes v) → exec (.transferAssert x t) s = .next u) ∧
      ∀ v, takes v → (e.time + 3 * usT ≤ v.ft → ¬deny → low → e.takeWindow = some v.ft → ∃ d : StringSt,
          exec (.transferAssert x t) s = .next (u.setStr x d).capoSettle ∧ d.red.line = true ∧ { d with red := e.red } = e) ∧
        (e.time + 3 * usT ≤ v.ft → ¬deny → ¬(low ∧ e.takeWindow = some v.ft) → exec (.transferAssert x t) s = .next u) ∧
        (v.ft < e.time + 3 * usT ∨ deny → e.red.line = true → exec (.transferAssert x t) s = .next u) ∧
        (v.ft < e.time + 3 * usT ∨ deny → e.red.line = false →
          exec (.transferAssert x t) s = .next (u.setStr x (StringSt.send { e with red := { e.red with xfer := none } } (.abort v.ft))))) ∧
    (let back := fun (v : Xfer) => e.red.xfer = some v ∧ v.giving = true ∧ e.red.line = false ∧ v.ft ≤ e.time + 2 * usT + 500 * nsT ∧ p.red.line = false;
      ((¬∃ v, back v) → exec (.transferReassertCheck x t) s = .next u) ∧
      ∀ v, back v → ∃ d : StringSt, exec (.transferReassertCheck x t) s = .next ((u.setStr x d).abortXfer x).capoSettle ∧ d.red.line = true ∧
        { d with red := e.red } = e) ∧
    (∀ w : State, ∃ d : StringSt, w.abortXfer x = ((w.setStr x d.reselect).settleOwed x).forceAct ∧
      ((w.str x).red.owed = none → w.capoForceN = true → w.abortXfer x = w.setStr x d.reselect) ∧ d.red.xfer = none ∧ d.role = rACTIVE ∧
      d.red.verdict = false ∧ d.red.line = (w.str x).red.line ∧ StringSt.regsBut { w.str x with red := d.red } d
        [Reg.RED_CAPOSTAT, Reg.RED_XFER, Reg.RED_CNT] ∧ d.flag Reg.RED_XFER F.RED_XFER.ABORT = true ∧
      d.fld Reg.RED_CNT F.RED_CNT.C3 = min 255 ((w.str x).fld Reg.RED_CNT F.RED_CNT.C3 + 1)) ∧
    (let ends := fun (v : Xfer) => e.red.xfer = some v ∧ v.giving = false ∧ e.role = rSTANDBY ∧ e.red.line = true ∧ p.red.line = false ∧ v.ft ≤ e.time;
      ((¬∃ v, ends v) → exec (.transferComplete x t) s = .next u) ∧
      ∀ v, ends v → ∃ r : State, exec (.transferComplete x t) s = .next (r.capoSettle.settleOwed x).forceAct ∧ (r.str x).role = rACTIVE ∧ (r.str x).red.xfer = none ∧
        (r.str x).red.claimFrom = v.ft ∧ notes r v.cause v.ft ∧ (((u.drainLink x).str x.other).role = rHANDOVER →
          (r.str x.other).role = (if v.cause = 3 then rFAILED else if v.cause = 4 then rIDLE else rSTANDBY) ∧ (r.str x.other).red.xfer = none ∧
            (r.str x).joined = decide (v.cause ≠ 3 ∧ v.cause ≠ 4))) ∧
    (∀ (w : State) (k : Nat), let b := w.str x
      let may := b.role = rACTIVE ∧ b.joined = true ∧ b.red.xfer = none;
      (¬may → w.startTransfer x k = w) ∧
      (may → ∃ (ft : Nat) (d : StringSt), w.startTransfer x k = w.setStr x (d.send (.transfer ft k)) ∧ d.role = rHANDOVER ∧
        d.red.xfer = some ⟨ft, k, false, true, decide (w.capoForceN = false ∧ x.other = .a), b.time⟩ ∧ ft % frameT = 0 ∧ frameOf ft % 2 = x.other.idx ∧
        b.time + 30 * usT ≤ ft ∧ ft < b.time + 30 * usT + 2 * frameT ∧ StringSt.regsBut { b with red := d.red } d [Reg.RED_CAPOSTAT])) ∧
    (let w := { u with capoForceN := false };
      (u.a.role ≠ rACTIVE → exec (.capoForceFall t) s = .next w) ∧
      (u.a.role = rACTIVE → u.a.joined = true → exec (.capoForceFall t) s = .next (w.startTransfer .a 4)) ∧
      (u.a.role = rACTIVE → u.a.joined = false → ∃ d : StringSt, exec (.capoForceFall t) s = .next { w with a := d.leaveForced }.capoSettle ∧
        { d with red := u.a.red } = u.a ∧ ∃ b, d.red.forceOut = some (max u.a.time (b - 5 * usT)) ∧ b % (2 * frameT) = 0 ∧ u.a.time + 3 * usT ≤ b ∧
          b < u.a.time + 3 * usT + 2 * frameT) ∧
      exec (.capoForceRise) s = .next { s with capoForceN := true }) ∧
    (e.role ≠ rBOOT → exec (.redCtlReady x t) s = .next (u.setStr x e)) ∧
    (e.role = rBOOT → ∃ d : StringSt, exec (.redCtlReady x t) s = .next (u.setStr x d) ∧ d.role = rIDLE ∧ d.red.idleSince = e.time ∧
      StringSt.regsBut { e with red := d.red } d [Reg.RED_CAPOSTAT]) ∧
    (exec (.redCtlTake x) s = .next (s.setStr x (if c.role = rIDLE then { c with red := { c.red with takeReq := true } } else c))) ∧
    (let step := e.fld Reg.RED_JOIN F.RED_JOIN.STEP
      let may := e.joined = true ∧ e.role = rACTIVE ∧ e.impaired = false ∧ e.partnerImpaired = false ∧ e.red.verdict = false ∧ e.red.owed = none ∧
        ¬(1 ≤ step ∧ step ≤ 14)
      let h := min 720 (e.fld Reg.RED_SWAP F.RED_SWAP.HOURS)
      let due := e.holds = true ∧ h ≠ 0 ∧ e.red.capoAt + h * 3600 * secT ≤ e.time ∧ ∀ b, e.red.skipAt = some b → b + 60 * secT ≤ e.time;
      (e.holds = false → exec (.redCtlSwap x t) s = .next u) ∧ (e.holds = true → may → exec (.redCtlSwap x t) s = .next (u.startTransfer x 2)) ∧
      (e.holds = true → ¬may → ∃ d : StringSt, exec (.redCtlSwap x t) s = .next (u.setStr x d) ∧ e.counts d Reg.RED_CNT F.RED_CNT.C2 1) ∧
      (¬due → exec (.roleSwapDue x t) s = .next u) ∧ (due → e.red.verdAt = some e.time →
        exec (.roleSwapDue x t) s = .next (u.setStr x { e with red := { e.red with capoAt := e.time } })) ∧
      (due → e.red.verdAt ≠ some e.time → may → exec (.roleSwapDue x t) s = .next (u.startTransfer x 1)) ∧
      (due → e.red.verdAt ≠ some e.time → ¬may → ∃ d : StringSt, exec (.roleSwapDue x t) s = .next (u.setStr x d) ∧ d.red.skipAt = some e.time ∧
        StringSt.counts { e with red := d.red } d Reg.RED_CNT F.RED_CNT.C2 1)) ∧
    (c.holds = false → exec (.redCtlDrop x) s = .next s) ∧
    (c.holds = true → ∃ w : State, exec (.redCtlDrop x) s = .next w ∧ (w.str x).joined = false ∧ (∀ n, n < 8 → w.tile n = muted (s.tile n)) ∧
      ((s.str x.other).role ≠ rSTANDBY → w.str x.other = s.str x.other) ∧
      ((s.str x.other).role = rSTANDBY → (w.str x.other).role = rIDLE ∧ (w.str x.other).red.line = false ∧ (w.str x.other).ring.recs = [] ∧
        (w.str x.other).ring.flights = [] ∧ (w.str x.other).outbox = [] ∧ (w.str x.other).red.idleSince = (s.str x.other).time))

/-- RED_CTL_JOIN of an IDLE string with an ACTIVE partner on the link, and JOIN_RETRY when due, enter JOINING, with step 1
where the time is LOCKED; they do nothing otherwise. JOINREQ at the active string answers 4 where it cannot serve, 1 where the
images differ, else 0 with step 2 and its bundle where the digests differ. JOIN_REPLY ends the join with the cause, with 2
where the digests differ, and else goes to step 4 in both with claims held. JOIN_CLAIM_DRAIN goes to step 5 once nothing is in
flight. JOIN_BULK_STATE copies the bulk memory, counts it and goes to step 6. JOIN_LOOP_CUT copies the loop states of a block,
or fails with 7 where history no longer reaches. JOIN_BLOCK_CURRENT, with every block current, makes the string STANDBY and
turns COMPARE on. At each step the join fails with 4 where the partner is not ACTIVE, and with 6 where the joining string is
impaired. A failure is IDLE with its cause, and the active string claims again. -/
def Obligations.Joining : Prop :=
  ∀ (s : State) (x : Str) (j : Fin 512) (t : Nat),
    let c := s.str x
    let p := s.str x.other
    let u := s.advance t
    let e := u.str x
    let step := fun (d : StringSt) => d.fld Reg.RED_JOIN F.RED_JOIN.STEP
    let cause := fun (d : StringSt) => d.fld Reg.RED_JOIN F.RED_JOIN.JCAUSE
    let digest := fun (d : StringSt) => (List.range 8).map fun i => d.rd (Reg.FAB_DIGEST i)
    let image := fun (d : StringSt) => (List.range 8).map fun i => d.rd (Reg.SEC_FWMEAS i)
    let may := fun (d : StringSt) => d.role = rIDLE ∧ d.brgUp = true ∧ d.fld Reg.RED_CAPOSTAT F.RED_CAPOSTAT.PROLE = rACTIVE
    let starts := fun (w : State) (i : Instr) => ∃ d : StringSt, d.role = rJOINING ∧ step d = (if d.timeState = 2 then 1 else 0) ∧
      StringSt.regsBut (w.str x) d [Reg.RED_CAPOSTAT, Reg.RED_JOIN] ∧
      exec i s = .next (w.setStr x (if d.timeState = 2 then d.send (.joinReq (image d) (digest d)) else d))
    (¬may c → exec (.redCtlJoin x) s = .next s) ∧ (may c → starts s (.redCtlJoin x)) ∧
    (let due := e.role = rIDLE ∧ e.flag Reg.RED_CFG F.RED_CFG.AUTOJOIN = true ∧ cause e ≠ 0 ∧ e.takeDue = true;
      (¬(due ∧ may e) → exec (.joinRetry x t) s = .next u) ∧ (due → may e → starts u (.joinRetry x t))) ∧
    (∀ (w : State) (k : Nat), let r := w.joinFail x k
      (r.str x).role = rIDLE ∧ cause (r.str x) = k % 256 ∧ step (r.str x) = 0 ∧ (r.str x).red.line = false ∧ r.tiles = w.tiles ∧
        ((w.str x.other).holds = true → (r.str x.other).red.joinHeld = false ∧ step (r.str x.other) = 0) ∧
        ((w.str x.other).holds = false → r.str x.other = w.str x.other)) ∧
    let sound := p.role = rACTIVE ∧ c.impaired = false;
    (let isR := fun (m : BMsg) => ∃ a b, m = .joinReq a b;
      ((∀ m ∈ p.outbox, ¬isR m) → exec (.joinreq x) s = .next s) ∧
      ∀ img dig rest, s.incoming x isR (.joinReq img dig) rest → ∃ d : StringSt,
        (let w := s.setStr x.other { p with outbox := rest }
          let busy := c.role ≠ rACTIVE ∨ (1 ≤ step c ∧ step c ≤ 14) ∨ c.joined = true
          let answer := if busy then 4 else if img = image c then 0 else 1;
          exec (.joinreq x) s = .next (w.setStr x (d.send (.joinReply answer (digest c)
            (if answer = 0 ∧ dig ≠ digest c then some (c.bytes fabBase (c.rd Reg.FAB_RXLEN)) else none)))) ∧
          (answer ≠ 0 → d = c) ∧ (answer = 0 → StringSt.regsBut { c with red := d.red } d [Reg.RED_JOIN] ∧ step d = 2 ∧ cause d = cause c ∧
            d.red = { c.red with bundle := if dig = digest c then 0 else (c.bytes fabBase (c.rd Reg.FAB_RXLEN)).length }))) ∧
    (let isA := fun (m : BMsg) => ∃ a b l, m = .joinReply a b l;
      (c.role ≠ rJOINING ∨ (∀ m ∈ p.outbox, ¬isA m) → exec (.joinReply x) s = .next s) ∧
      ∀ k dig l rest, c.role = rJOINING → s.incoming x isA (.joinReply k dig l) rest →
        let w := s.setStr x.other { p with outbox := rest };
        (k ≠ 0 → exec (.joinReply x) s = .next (w.joinFail x k)) ∧
        (k = 0 → p.role ≠ rACTIVE → exec (.joinReply x) s = .next (w.joinFail x 4)) ∧
        (k = 0 → p.role = rACTIVE → c.impaired = true → exec (.joinReply x) s = .next (w.joinFail x 6)) ∧
        (k = 0 → sound → l = none → dig ≠ digest c → exec (.joinReply x) s =
          .next ((w.setStr x { c with red := { c.red with bundle := 0 } }).joinFail x 2)) ∧
        (k = 0 → sound → l = none → dig = digest c → ∃ d b : StringSt, exec (.joinReply x) s = .next ((w.setStr x d).setStr x.other b) ∧
          StringSt.regsBut { c with red := { c.red with bundle := 0 } } d [Reg.RED_JOIN] ∧ step d = 4 ∧ step b = 4 ∧ b.red = { p.red with joinHeld := true } ∧
          StringSt.regsBut { p with outbox := rest, red := b.red } b [Reg.RED_JOIN]) ∧
        (∀ z, k = 0 → sound → l = some z → ∃ r : State, exec (.joinReply x) s = .next r ∧
          ((r.str x).role = rIDLE ∧ cause (r.str x) = 2 ∨ step (r.str x) = 4 ∧ digest (r.str x) = dig ∧ (r.str x.other).red.joinHeld = true))) ∧
    (let dry := c.holds = true ∧ c.red.joinHeld = true ∧ step c = 4 ∧ c.inFlight = [] ∧ c.ring.recs = [] ∧ c.rte.staged = [] ∧ c.cal.commit = none;
      (¬dry → exec (.joinClaimDrain x) s = .next s) ∧
      (dry → ∃ d b : StringSt, exec (.joinClaimDrain x) s = .next ((s.setStr x d).setStr x.other b) ∧ c.regsBut d [Reg.RED_JOIN] ∧
        p.regsBut b [Reg.RED_JOIN] ∧ step d = 5 ∧ step b = 5)) ∧
    (let goes := c.role = rJOINING ∧ step c = 5;
      (¬goes → exec (.joinBulkState x) s = .next s) ∧
      (goes → p.role ≠ rACTIVE → exec (.joinBulkState x) s = .next (s.joinFail x 4)) ∧
      (goes → p.role = rACTIVE → c.impaired = true → exec (.joinBulkState x) s = .next (s.joinFail x 6)) ∧
      (goes → sound → ∃ w : State, exec (.joinBulkState x) s = .next w ∧ (c.pegTempOk = true →
        (w.str x).role = rJOINING ∧ step (w.str x) = 6 ∧ step (w.str x.other) = 6 ∧ StringSt.regsBut p (w.str x.other) [Reg.RED_JOIN] ∧
          w.tiles = s.tiles ∧ (w.str x).time = c.time ∧ (w.str x).ring.flights = [] ∧ (w.str x).rte = p.rte ∧
          (∀ a, Mem.wf c.sram = true → Mem.wf p.sram = true → State.inRange (State.bulkMem p) a = true →
            (w.str x).sram.byte a = p.sram.byte a) ∧
          ∀ a, Mem.wf c.sram = true → Mem.wf p.sram = true → State.inRange (State.bulkMem p) a = false →
            (w.str x).sram.byte a = if 0x00800000 ≤ a ∧ a < 0x00900000 ∧ a % 64 < 16 then p.sram.byte a else c.sram.byte a))) ∧
    (let goes := c.role = rJOINING ∧ 6 ≤ step c ∧ step c ≤ 8
      let f := Tab.get (fun _ => none) p.eng.done j
      let gone := p.blkLoops j ≠ [] ∧ ∃ a r, f = some a ∧ (c.hist (j / 64)).getLast? = some r ∧ a + 1 < r.frame;
      (¬goes → exec (.joinLoopCut x j) s = .next s) ∧
      (goes → p.role ≠ rACTIVE → exec (.joinLoopCut x j) s = .next (s.joinFail x 4)) ∧
      (goes → p.role = rACTIVE → c.impaired = true → exec (.joinLoopCut x j) s = .next (s.joinFail x 6)) ∧
      (goes → sound → gone → exec (.joinLoopCut x j) s = .next (s.joinFail x 7)) ∧
      (goes → sound → ¬gone → ∃ d : StringSt, exec (.joinLoopCut x j) s = .next (s.setStr x d) ∧ step d = 8 ∧ d.red.cut.contains j.val = true ∧
        Tab.get (fun _ => none) d.eng.done j = f ∧ d.waitOf j = p.waitOf j ∧ frameOf c.time ≤ Tab.get (fun _ => 0) d.eng.behind j ∧
        (∀ a, 32 * j.val ≤ a → a < 32 * j.val + 32 → Tab.get (fun _ => []) d.eng.ff a = Tab.get (fun _ => []) p.eng.ff a ∧
          Tab.get (fun _ => []) d.eng.logs a = Tab.get (fun _ => []) p.eng.logs a) ∧
        (∀ a i, 32 * j.val ≤ a → a < 32 * j.val + 32 → i < 9 → d.word (loopRec a + 16 + 4 * i) = p.word (loopRec a + 16 + 4 * i)) ∧
        ∀ a i, (a < 32 * j.val ∨ 32 * j.val + 32 ≤ a) → i < 16 → d.word (loopRec a + 4 * i) = c.word (loopRec a + 4 * i))) ∧
    (let b := u.str x.other
      let late := e.role = rJOINING ∧ 6 ≤ step e
      let goes := late ∧ b.role = rACTIVE ∧ e.impaired = false ∧ State.blocksCurrent e b = true;
      (late → b.role ≠ rACTIVE → exec (.joinBlockCurrent x t) s = .next (u.joinFail x 4)) ∧
      (late → b.role = rACTIVE → e.impaired = true → exec (.joinBlockCurrent x t) s = .next (u.joinFail x 6)) ∧
      (¬goes → ¬(late ∧ (b.role ≠ rACTIVE ∨ e.impaired = true)) → exec (.joinBlockCurrent x t) s = .next u) ∧
      (goes → ∃ w : State, exec (.joinBlockCurrent x t) s = .next w ∧ (w.str x).role = rSTANDBY ∧ step (w.str x) = 15 ∧
        (w.str x).red.cut = [] ∧ (w.str x).red.reports = [] ∧ (w.str x.other).joined = true ∧
        step (w.str x.other) = 15 ∧ (w.str x.other).red.joinHeld = false ∧
        ∀ n, n < 8 → w.tile n = { u.tile n with cmpFrom := some (frameOf (ceilTo frameT (b.time + 20 * usT))), cmpOff := none }))

/-- MISMATCH_REPORT takes a tile's next report in both strings, notes it in RED_MM, and judges, or realigns a loop that is
LOST. A judgement by health blames the active string and starts a transfer, blames the standby, or neither, counts it in both
and drops the standby; a transfer in progress holds it up, and a swap of the same instant gives way; none starts without a
joined string or during a verdict. A realignment clears LOST in both. VERDICT_TIMEOUT after 50 us sends the blamer to IDLE.
HEALTH_REPORT forms the report with the flags raised in the last 1.024 ms and the next number, keeps it, and gives it to the
partner over the link. PARTNER_RESET_REQUEST asks where R286 allows. BRIDGE_LINK_DOWN clears the link in both, raises source
25, and ends joins and standbys; BRIDGE_LINK_UP shows the lanes; BRIDGE_HEARTBEAT notes the partner's role and the link's
counts, may start or end a join, and drops a standby that is none any more. SELF_TEST steps the scrubber and counts, or marks
the self-test flag. -/
def Obligations.HealthAndBridge : Prop :=
  ∀ (s : State) (x : Str) (n : Fin 8) (lanes : Fin 4) (crc retry : BitVec 16) (t : Nat),
    let c := s.str x
    let u := s.advance t
    let e := u.str x
    let p := u.str x.other
    let cnt := fun (d : StringSt) (f : Fld) => d.fld Reg.RED_VERD f
    let up1 := fun (c d : StringSt) (f : Fld) => cnt d f = min 255 (cnt c f + 1);
    (let d := u.tile n
      let isM := fun (r : TRep) => (∃ a f k l, r = .mismatch a f k l) ∨ (∃ k q, r = .digest k q) ∨ ∃ f o, r = .missCapo f o;
      ((∀ r ∈ d.toA, ¬isM r) → exec (.mismatchReport n t) s = .next u) ∧
      ∀ r la lb, oldest isM d.toA r la → ((∃ q, oldest isM d.toB q lb) ∨ ((∀ q ∈ d.toB, ¬isM q) ∧ lb = d.toB)) →
        ∃ a b : StringSt,
          (let w := { u.setTile n { d with toA := la, toB := lb } with a := a, b := b }
            let got := exec (.mismatchReport n t) s;
            (∀ m f k l, r = .mismatch m f k l → (let j := 2048 * n.val + m
              (∀ y : Str, (u.str y).regsBut (w.str y) [Reg.RED_MM, Reg.RED_MMCODE, Reg.RED_MMFR] ∧
                (w.str y).rd Reg.RED_MM = (j + 32768) % 4294967296 ∧ (w.str y).rd Reg.RED_MMCODE = (k + 65536 * l) % 4294967296 ∧
                (w.str y).rd Reg.RED_MMFR = f % 4294967296) ∧
              (u.active = none → got = .next w) ∧
              (∀ z, u.active = some z → (((w.str z).loopVal j).lost = true ∨ ((w.str z.other).loopVal j).lost = true) → got = .next (w.realign z j)) ∧
              (∀ z, u.active = some z → ((w.str z).loopVal j).lost = false → ((w.str z.other).loopVal j).lost = false → got = .next w.judge))) ∧
            (∀ k q, r = .digest k q → got = .next w.judge ∧ ∀ y : Str, (u.str y).regsBut (w.str y) [Reg.RED_MM] ∧
              (w.str y).rd Reg.RED_MM = (k + 49152) % 4294967296) ∧
            (∀ f o, r = .missCapo f o → a = u.a ∧ b = u.b ∧ (u.active = none → got = .next w) ∧ ∀ z, u.active = some z → got = .next (
              if max 1 ((u.str z).fld Reg.RED_CFG F.RED_CFG.MISSTHR) ≤ Tab.get (fun _ => 0) (u.str z).red.missDel n then w.judge else w)))) ∧
    (∀ (w : State) (z : Str) (j : Nat), (((w.str z).loopVal j).lost = true ∨ ((w.str z.other).loopVal j).lost = true) →
      let r := w.realign z j
      let y := if ((w.str z.other).loopVal j).lost = true then z.other else z;
      r.tiles = w.tiles ∧ (r.str y).lastJob (j / 32) = (w.str y.other).lastJob (j / 32) ∧
        (r.str y).waitOf (j / 32) = (w.str y.other).waitOf (j / 32) ∧ ∀ y : Str, ((r.str y).loopVal j).lost = false ∧ up1 (w.str y) (r.str y) F.RED_VERD.C3 ∧ (r.str y).cores = (w.str y).cores) ∧
    (∀ w : State, (w.active = none → w.judge = w) ∧ ∀ z, w.active = some z →
      let b := w.str z
      let q := w.str z.other
      let free := b.joined = true ∧ b.red.verdict = false ∧ b.red.owed = none
      let v := State.verdictOf z b.impaired b.partnerImpaired
      let f := if b.impaired = true ∧ b.partnerImpaired = false then F.RED_VERD.C0
        else if b.impaired = false ∧ b.partnerImpaired = true then F.RED_VERD.C1 else F.RED_VERD.C2
      let young := fun (k : Xfer) => (k.cause = 1 ∨ k.cause = 2) ∧ k.began = b.time ∧ k.accepted = false;
      (b.role = rACTIVE → b.joined = false → q.role = rJOINING → w.judge = w.joinFail z.other (if q.impaired then 6 else 4)) ∧
      (¬free → ¬(b.role = rACTIVE ∧ b.joined = false ∧ q.role = rJOINING) → w.judge = w) ∧
      (free → ∃ r : State, r.tiles = w.tiles ∧ (∀ y : Str, up1 (w.str y) (r.str y) f ∧
          StringSt.regsBut { w.str y with red := { (w.str y).red with verdAt := some (w.str y).time } } (r.str y) [Reg.RED_VERD]) ∧
        (b.red.xfer = none → w.judge = r.carryOut z v) ∧
        ∀ k, b.red.xfer = some k → (young k → w.judge = (r.yieldSwap z).carryOut z v) ∧
          (¬young k → w.judge.tiles = w.tiles ∧ ∀ y : Str, w.judge.str y = { r.str y with red := { (r.str y).red with owed := some v } }))) ∧
    (∀ (w : State) (z : Str),
      let muted := fun (d : TileSt) => if d.cmpFrom.isSome = true ∧ d.cmpOff = none then { d with cmpOff := some ((d.time / frameT + 1) * frameT) } else d
      let dropped := fun (r : State) => (r.str z).joined = false ∧ (∀ m, m < 8 → r.tile m = muted (w.tile m)) ∧
        ((w.str z.other).role = rSTANDBY → (r.str z.other).role = rIDLE)
      (∃ r : State, w.carryOut z (.blame z) = r.startTransfer z 3 ∧ (r.str z).red.verdict = true ∧
        (r.str z.other).red.blamedAt = some (w.str z.other).time ∧ r.tiles = w.tiles) ∧
      dropped (w.carryOut z (.blame z.other)) ∧ (∀ k, dropped (w.carryOut z (.undecided k))) ∧
      ((w.str z).flag Reg.RED_CFG F.RED_CFG.PRSTEN = true → (w.str z).red.prAt = none →
        ((w.carryOut z (.blame z.other)).str z).flag Reg.RED_CAPOSTAT F.RED_CAPOSTAT.PRQ = true) ∧
      ((w.str z).red.owed = none → w.settleOwed z = w) ∧
      (∀ k, (w.str z).red.owed = some k → ∃ r : State, { r with a := w.a, b := w.b } = w ∧
        (∀ y : Str, r.str y = { w.str y with red := { (w.str y).red with owed := none } }) ∧
        w.settleOwed z = if (w.str z).role = rACTIVE ∧ (w.str z).joined = true then r.carryOut z k else r)) ∧
    (let late := e.role = rSTANDBY ∧ ∃ b, e.red.blamedAt = some b ∧ b + 50 * usT ≤ e.time;
      (¬late → exec (.verdictTimeout x t) s = .next u) ∧
      (late → ∃ (w : State) (d : StringSt), exec (.verdictTimeout x t) s = .next (w.setStr x (d.occur 16 0)) ∧ d.role = rIDLE ∧
        d.red.line = false ∧ (w.str x.other).joined = false)) ∧
    (∃ r : State,
      (let d := r.str x
        let w := d.rd Reg.RED_HEALTH;
        exec (.healthReport x t) s = .next (if bit w 8 then r.judge else r) ∧ d.red.mine = (w :: e.red.mine).take 11 ∧ d.red.healthAt = e.time ∧
          bits w 24 8 = (bits (e.rd Reg.RED_HEALTH) 24 8 + 1) % 256 ∧ r.tiles = u.tiles ∧
          (∀ i, i < 9 → ∀ z, Tab.get (fun _ => none) e.red.flagAt i = some z → e.time ≤ z + sweepT → bit w i = true) ∧
          (∀ m, m < 8 → bit w (16 + m) = (Tab.get (fun _ => none) e.red.flagAt (16 + m)).any fun z => decide (e.time ≤ z + sweepT)) ∧
          (∀ i, i < 4 → (e.core i).run = .stopped → bit w 2 = true) ∧ (e.flag Reg.THM_STAT F.THM_STAT.MLVL = true → bit w 6 = true) ∧
          (e.brgUp = false → r.str x.other = p) ∧
          (e.brgUp = true → StringSt.regsBut { p with red := (r.str x.other).red } (r.str x.other) [Reg.RED_PHEALTH] ∧
            (r.str x.other).rd Reg.RED_PHEALTH = w ∧ (r.str x.other).red.its = (w :: p.red.its).take 11))) ∧
    (let asks := e.role = rSTANDBY ∧ p.red.line = true ∧ (∀ z, e.red.hbAt = some z → z + 100 * usT ≤ e.time) ∧
        (∀ m, m < 8 → 16 ≤ Tab.get (fun _ => 0) e.red.missAny m) ∧ e.flag Reg.RED_CFG F.RED_CFG.PRSTEN = true ∧
        ∀ z, e.red.prAt = some z → z + secT ≤ e.time;
      (asks → ∃ d : StringSt, exec (.partnerResetRequest x t) s = .next (u.setStr x d) ∧ StringSt.regsBut { e with red := d.red } d [Reg.RED_CAPOSTAT] ∧
        d.flag Reg.RED_CAPOSTAT F.RED_CAPOSTAT.PRQ = true ∧ d.red = { e.red with prAt := some e.time }) ∧
      (¬asks → exec (.partnerResetRequest x t) s = .next (u.setStr x e))) ∧
    (u.a.brgUp = false → u.b.brgUp = false → exec (.bridgeLinkDown t) s = .next u.capoSettle) ∧
    ((u.a.brgUp = true ∨ u.b.brgUp = true) → ∃ r : State, exec (.bridgeLinkDown t) s = .next r.capoSettle ∧ ∀ y : Str,
      (r.str y).rd Reg.BRG_STAT = 0 ∧ (r.str y).flag (Reg.ALV_SRC 25) F.ALV_SRC.LIVE = true ∧ (r.str y).rd Reg.TIME_PART = 0x80000000 ∧
        (r.str y).outbox = [] ∧
        ((u.str y).role = rSTANDBY → u.active = some y.other → (u.str y.other).joined = true → (r.str y).role = rIDLE ∧ (r.str y.other).joined = false) ∧
        ((u.str y).role = rSTANDBY → u.active = none → (r.str y.other).role ≠ rSTANDBY ∧ (r.str y).role = rIDLE) ∧
        ((u.str y).role = rJOINING → u.active = some y.other → (r.str y).role = rIDLE ∧ (r.str y).fld Reg.RED_JOIN F.RED_JOIN.JCAUSE = 3)) ∧
    (lanes.val = 0 → exec (.bridgeLinkUp lanes) s = .next s) ∧
    (lanes.val ≠ 0 → ∃ w : State, exec (.bridgeLinkUp lanes) s = .next w ∧ { w with a := s.a, b := s.b } = s ∧ ∀ y : Str,
      (s.str y).regsBut (w.str y) [Reg.BRG_STAT, Reg.ALV_SRC 25] ∧ (w.str y).rd Reg.BRG_STAT = 1 + 4 * lanes.val ∧
        (w.str y).flag (Reg.ALV_SRC 25) F.ALV_SRC.LIVE = false) ∧
    (e.brgUp = false → exec (.bridgeHeartbeat x ⟨crc, retry, t⟩) s = .next u.capoSettle) ∧
    (e.brgUp = true → ∃ d : StringSt, d.fld Reg.RED_CAPOSTAT F.RED_CAPOSTAT.PROLE = p.role ∧ d.red = { e.red with hbAt := some e.time } ∧
      StringSt.regsBut { e with red := d.red } d [Reg.RED_CAPOSTAT, Reg.BRG_CNT] ∧
      d.fld Reg.BRG_CNT F.BRG_CNT.CRCERR = min (2 ^ F.BRG_CNT.CRCERR.w - 1) (e.fld Reg.BRG_CNT F.BRG_CNT.CRCERR + crc.toNat) ∧
      d.fld Reg.BRG_CNT F.BRG_CNT.RETRY = min (2 ^ F.BRG_CNT.RETRY.w - 1) (e.fld Reg.BRG_CNT F.BRG_CNT.RETRY + retry.toNat) ∧
      (let w := u.setStr x d
        let v := w.runAlone x
        let gets := fun (r : State) => exec (.bridgeHeartbeat x ⟨crc, retry, t⟩) s = .next r.capoSettle
        let alone := d.role = rACTIVE ∧ d.joined = true ∧ p.role ≠ rSTANDBY
        let joins := d.flag Reg.RED_CFG F.RED_CFG.AUTOJOIN = true ∧ d.fld Reg.RED_JOIN F.RED_JOIN.JCAUSE = 0;
        (d.role = rJOINING → p.role ≠ rACTIVE → gets (w.joinFail x 4)) ∧
        (d.role = rJOINING → p.role = rACTIVE → d.impaired = true → gets (w.joinFail x 6)) ∧
        (d.role = rJOINING → p.role = rACTIVE → d.impaired = false → gets (u.setStr x (State.joinSend d))) ∧
        (alone → gets (if p.role = rFAILED then v.setStr x (State.askReset (v.str x)) else v)) ∧
        (d.role ≠ rJOINING → ¬alone → gets (if joins then w.startJoin x else w)))) ∧
    (∀ b w corr bad, b < 16 → w < 524288 → ∃ d g : StringSt,
      (let o := b * 0x200000 + 4 * w
        let v := if corr then d.occur 6 o else d;
        exec (.selfTest x (.scrub b w corr bad)) s = .next (s.setStr x (if bad then g.occur 5 o else v)) ∧
          c.regsBut d [Reg.SRB_SCRUB b, Reg.SRB_CNT b] ∧ d.fld (Reg.SRB_SCRUB b) F.SRB_SCRUB.SCRUB = (w + 1) % 524288 ∧
          d.fld (Reg.SRB_CNT b) F.SRB_CNT.CORR =
            (if corr then min 65535 (c.fld (Reg.SRB_CNT b) F.SRB_CNT.CORR + 1) else c.fld (Reg.SRB_CNT b) F.SRB_CNT.CORR) ∧
          StringSt.regsBut { v with red := g.red } g [Reg.SRB_CNT b, Reg.SRB_LASTERR b] ∧ g.rd (Reg.SRB_LASTERR b) = o ∧
          Tab.get (fun _ => none) g.red.flagAt 0 = some c.time ∧
          g.fld (Reg.SRB_CNT b) F.SRB_CNT.UNCORR = min 65535 (c.fld (Reg.SRB_CNT b) F.SRB_CNT.UNCORR + 1))) ∧
    (∀ i good, i < 4 → (c.core i).busy = true → exec (.selfTest x (.signature i good)) s = .next (s.setStr x c)) ∧
    (∀ k good, ((∃ i, i < 4 ∧ k = .signature i good ∧ (c.core i).busy = false) ∨ k = .crypto good) →
      (good = true → exec (.selfTest x k) s = .next (s.setStr x c)) ∧
      (good = false → exec (.selfTest x k) s = .next (s.setStr x ((c.markFlag 3).occur 24 0)))) ∧
    (let differs := c.holds = true ∧ c.joined = true ∧ State.divergeDigest c ≠ State.divergeDigest (s.str x.other);
      (¬differs → exec (.selfTest x .digest) s = .next s) ∧
      (differs → exec (.selfTest x .digest) s = .next { s with a := s.a.markFlag 8, b := s.b.markFlag 8 }))

/-- A frame joins the tail of its queue, its bytes in free cells, where the link is up and there is room, and is counted in
TAIL otherwise. EGRESS_PICK, with a PTP frame that joins Q7 first, on a free link sends the head of Q7 that may start, else of
Q6, else by round robin of Q0 to Q5; it does nothing on a busy or absent link. GCL_ENABLE holds a list that passes its check
for its first cycle start at least 10 us on, else sets ERR; GCL_SWITCH makes it operational then; GCL_DISABLE takes both lists
away. QUEUE_SAMPLE writes depth and delay of each queue once for each sample instant. ETH_LINK_LOSS of a link that is up
clears LINK, counts, empties the queues into TAIL and raises its source and producer; ETH_LINK_UP sets LINK and ends the
source. TELEMETRY_SNAPSHOT numbers a snapshot on the active string and mirrors the number, or holds it on the standby;
TELEMETRY_SEQ_MIRROR on the standby takes a number; TELEMETRY_SEQ_TIMEOUT drops what waited over 100 us. -/
def Obligations.EgressAndTelemetry : Prop :=
  ∀ (s : State) (x : Str) (n : Fin 2) (i : Fin 16) (nent : BitVec 7) (ptp : Option (List Byte)) (t : Nat),
    let c := s.str x
    let u := s.advance t
    let e := u.str x
    let same := fun (c d : StringSt) (m : Nat) => d.port m = c.port m
    let o := Reg.ETH_GCLCFG n
    let st := Reg.ETH_STAT n;
    (∀ (b : StringSt) (m q : Nat) (g : Cargo) (v : Option Tel), m < 2 →
      let len := b.cargoLen m g
      let d := b.enqueue m q g v;
      (b.linkUp m = true → b.hasRoom m q len = true → d.2 = true ∧ { d.1 with net := b.net, sram := b.sram } = b ∧ same b d.1 (1 - m) ∧
        (∀ a, a < 0x01800000 + 0x180000 * m ∨ 0x01980000 + 0x180000 * m ≤ a → d.1.sram.byte a = b.sram.byte a) ∧
        (∃ (h : FreeHdr) (l : List Nat), (d.1.port m).queue q = (b.port m).queue q ++ [⟨len, b.time, g, v, b.frameBytes m q h g, l⟩] ∧
          ∀ k ∈ l, k < 6144 ∧ k ∉ b.usedCells m) ∧ ∀ k, k ≠ q → (d.1.port m).queue k = (b.port m).queue k) ∧
      (b.linkUp m = false ∨ b.hasRoom m q len = false → d.2 = false ∧ b.counts d.1 (Reg.ETH_QDROP m q) F.ETH_QDROP.TAIL 1)) ∧
    (let z := e.gclSwitch n
      let b := ptp.elim z fun f => (z.enqueue n 7 (.ptp f) none).1
      let p := b.port n
      let busy := b.linkUp n = false ∨ p.inflight b.time ≠ 0
      let fits := ∀ q f l, q < 8 → p.queue q = f :: l → ∀ g w, b.gates n = some g → g.longest q = some w → b.wire n f.len ≤ 25 * w
      let sends := fun (d : StringSt) (q : Nat) (f : OutFrame) (l : List OutFrame) =>
        (∃ g : OutFrame, (d.port n).flying = some (q, g, b.time + (b.wire n f.len + 24) / 25) ∧ { g with bytes := f.bytes } = f ∧
          ((∀ k, f.cargo ≠ .ptp k) → g = f) ∧ ∀ k, f.cargo = .ptp k → g.bytes = b.stampSync n f.bytes) ∧ (d.port n).queue q = l ∧
          (∀ k, k ≠ q → (d.port n).queue k = p.queue k) ∧ StringSt.regsBut { b with net := d.net } d [Reg.ICT_TGAP] ∧
          ((∀ k, f.tel = some k → k.gap = false) → d.regs = b.regs) ∧ same b d (1 - n.val)
      let ready := fun (q : Nat) (f : OutFrame) (l : List OutFrame) => p.queue q = f :: l ∧ b.headReady n q f = true;
      (busy → exec (.egressPick x n ⟨ptp, t⟩) s = .next (u.setStr x b)) ∧
      (¬busy → ∃ d : StringSt, exec (.egressPick x n ⟨ptp, t⟩) s = .next (u.setStr x d) ∧ d.cores = e.cores ∧
        (fits → (∀ f l, ready 7 f l → sends d 7 f l) ∧ ((¬∃ f l, ready 7 f l) → ∀ f l, ready 6 f l → sends d 6 f l) ∧
          ((¬∃ f l, ready 7 f l) → (¬∃ f l, ready 6 f l) → (p.drr = [] → d = b) ∧
            ∀ q f l, p.drr = [q] → q < 6 → ready q f l →
              f.len ≤ p.deficit q + (if p.served then 0 else max 64 (b.fld (Reg.ETH_QCFG n q) F.ETH_QCFG.QUANTUM)) → sends d q f l)))) ∧
    (let a := e.gclSwitch n;
      ∃ d : StringSt, exec (.gclEnable x n nent t) s = .next (u.setStr x d) ∧ StringSt.regsBut { e with net := d.net } d [o] ∧
      d.fld o F.ETH_GCLCFG.NENT = nent.toNat ∧ d.flag o F.ETH_GCLCFG.EN = true ∧ (d.port n).op = (a.port n).op ∧
      (d.gclOk n = false → d.flag o F.ETH_GCLCFG.ERR = true ∧ (d.port n).next = (a.port n).next) ∧
      (d.gclOk n = true → d.flag o F.ETH_GCLCFG.ERR = false ∧ d.flag o F.ETH_GCLCFG.PEND = true ∧
        ∃ z, (d.port n).next = some (⟨d.gclBase n, d.rd (Reg.ETH_GCLCYC n), d.gclEnts n⟩, z) ∧ e.time + 10 * usT ≤ z ∧ d.gclBase n ≤ z ∧
          (z - d.gclBase n) % (d.rd (Reg.ETH_GCLCYC n) * nsT) = 0)) ∧
    (∃ d : StringSt, exec (.gclDisable x n nent) s = .next (s.setStr x d) ∧ StringSt.regsBut { c with net := d.net } d [o] ∧
      d.flag o F.ETH_GCLCFG.EN = false ∧ d.flag o F.ETH_GCLCFG.PEND = false ∧ (d.port n).op = none ∧ (d.port n).next = none ∧
      (∀ q, (d.port n).queue q = (c.port n).queue q) ∧ same c d (1 - n.val)) ∧
    ((∀ g z, (e.port n).next = some (g, z) → e.time < z) → exec (.gclSwitch x n t) s = .next (u.setStr x e)) ∧
    (∀ g z, (e.port n).next = some (g, z) → z ≤ e.time → ∃ d : StringSt, exec (.gclSwitch x n t) s = .next (u.setStr x d) ∧
      StringSt.regsBut { e with net := d.net } d [o] ∧ d.flag o F.ETH_GCLCFG.PEND = false ∧ (d.port n).op = some g ∧ (d.port n).next = none ∧
      same e d (1 - n.val)) ∧
    (let per := e.fld (Reg.ETH_SAMPCFG n) F.ETH_SAMPCFG.INTV * usT
      let at_ := e.time / per * per
      let off := per = 0 ∨ (e.port n).sampAt = some at_;
      (off → exec (.queueSample x n t) s = .next (u.setStr x e)) ∧
      (¬off → ∃ d : StringSt, exec (.queueSample x n t) s = .next (u.setStr x d) ∧ { d with regs := e.regs, net := e.net } = e ∧
        (d.port n).sampAt = some at_ ∧ same e d (1 - n.val) ∧ ∀ q, q < 8 →
        let depth := (e.port n).cells q
        let delay := ((e.port n).queue q).head?.elim 0 fun f => min 524287 ((at_ - f.since) / (100 * nsT));
        d.rd (Reg.ETH_QSAMP n q) = (depth + 8192 * delay) % 4294967296 ∧
          d.fld (Reg.ETH_QMAX n q) F.ETH_QMAX.DELAY = max delay (e.fld (Reg.ETH_QMAX n q) F.ETH_QMAX.DELAY) ∧
          (depth < 8192 → d.fld (Reg.ETH_QMAX n q) F.ETH_QMAX.DEPTH = max depth (e.fld (Reg.ETH_QMAX n q) F.ETH_QMAX.DEPTH)))) ∧
    (e.linkUp n = false → exec (.ethLinkLoss x n t) s = .next (u.setStr x e)) ∧
    (e.linkUp n = true → ∃ d : StringSt, exec (.ethLinkLoss x n t) s = .next (u.setStr x ((d.occurLive (18 + n.val) 0).fire (128 + n.val))) ∧
      StringSt.regsBut { e with net := d.net } d (st :: (List.range 8).map (Reg.ETH_QDROP n)) ∧ d.linkUp n = false ∧
      d.fld st F.ETH_STAT.DOWNS = min (2 ^ F.ETH_STAT.DOWNS.w - 1) (e.fld st F.ETH_STAT.DOWNS + 1) ∧ (∀ q, (d.port n).queue q = []) ∧
      (d.port n).flying = none ∧ same e d (1 - n.val) ∧ ∀ q, q < 8 → ((e.port n).flying.all fun f => decide (f.2.2 ≤ e.time)) = true →
        d.fld (Reg.ETH_QDROP n q) F.ETH_QDROP.TAIL = min (2 ^ F.ETH_QDROP.TAIL.w - 1)
          (e.fld (Reg.ETH_QDROP n q) F.ETH_QDROP.TAIL + ((e.port n).queue q).length)) ∧
    (let goes := e.flag (Reg.ETH_CFG n) F.ETH_CFG.EN = true ∧ e.domOn (57 + n.val) = true ∧ e.linkUp n = false;
      (¬goes → exec (.ethLinkUp x n t) s = .next (u.setStr x e)) ∧
      (goes → ∃ d : StringSt, exec (.ethLinkUp x n t) s = .next (u.setStr x (d.fire (128 + n.val))) ∧ e.regsBut d [st, Reg.ALV_SRC (18 + n.val)] ∧
        d.linkUp n = true ∧ d.flag (Reg.ALV_SRC (18 + n.val)) F.ALV_SRC.LIVE = false)) ∧
    (let per := e.fld (Reg.ICT_TSTR i) F.ICT_TSTR.PERIOD * 100 * usT
      let b := e.time / per * per
      let last := Tab.get (fun _ => none) e.net.snapAt i
      let goes := e.flag (Reg.ICT_TSTR i) F.ICT_TSTR.EN = true ∧ e.streamOk i = true ∧ e.flag Reg.ICT_CFG F.ICT_CFG.EN = true ∧ last ≠ some b
      let q := (e.rd (Reg.ICT_TSEQ i) + last.elim 0 fun a => (b - a) / per - 1) % 4294967296;
      (¬goes → exec (.telemetrySnapshot x i t) s = .next u) ∧
      (goes → ∃ d : StringSt, Tab.get (fun _ => none) d.net.snapAt i = some b ∧ d.sram = e.sram ∧
        (e.holds = true → exec (.telemetrySnapshot x i t) s = .next (u.setStr x (d.sendSnap i q b (u.snapLoad x i))) ∧
          d.rd (Reg.ICT_TSEQ i) = (q + 1) % 4294967296 ∧
          d.outbox = (if e.joined = true ∧ e.brgUp = true then e.outbox ++ [.telem i q b] else e.outbox)) ∧
        (e.holds = false → e.role = rSTANDBY → exec (.telemetrySnapshot x i t) s = .next (u.setStr x (d.matchSnap i)) ∧ d.regs = e.regs ∧
          d.net.snaps = e.net.snaps ++ [⟨i, b, u.snapLoad x i⟩]) ∧
        (e.holds = false → e.role ≠ rSTANDBY → exec (.telemetrySnapshot x i t) s = .next (u.setStr x d) ∧ { d with net := e.net } = e))) ∧
    (let isN := fun (m : BMsg) => ∃ k q b, m = .telem k q b;
      (c.role ≠ rSTANDBY ∨ (∀ m ∈ (s.str x.other).outbox, ¬isN m) → exec (.telemetrySeqMirror x) s = .next s) ∧
      ∀ k q b rest, c.role = rSTANDBY → s.incoming x isN (.telem k q b) rest → ∃ d : StringSt,
        exec (.telemetrySeqMirror x) s = .next ((s.setStr x.other { s.str x.other with outbox := rest }).setStr x (d.matchSnap k)) ∧
          StringSt.regsBut { c with net := d.net } d [Reg.ICT_TSEQ k] ∧ d.rd (Reg.ICT_TSEQ k) = (q + 1) % 4294967296 ∧
          d.net.nums = c.net.nums ++ [(k, q, b)] ∧ d.net.snaps = c.net.snaps) ∧
    (∃ d : StringSt, exec (.telemetrySeqTimeout x i t) s = .next (u.setStr x d) ∧ { d with net := e.net } = e ∧
      d.net.snaps = (e.net.snaps.filter fun v => !(v.stream == i.val && decide (v.t + 100 * usT < e.time))) ∧
      d.net.nums = (e.net.nums.filter fun m => !(m.1 == i.val && decide (m.2.2 + 100 * usT < e.time))) ∧ same e d n)

/-- ETH_FRAME_RECEIVE drops a frame on a down link or under 64 bytes, counts a wrong FCS, a frame over MAXLEN and one the
filter refuses; an accepted frame goes through its policer, and waits in receive space, its bytes in free cells, where it
draws something, is sound and there is room (NOBUF where not; an ICT message of a wrong length counts in BADHDR), a PTP frame
with its timestamp. A policer with both rates 0 passes every frame and counts it green; a full bucket passes any frame of
legal length; a frame over the PIR bucket is red, over the CIR bucket yellow, each counted. A store to a policer fills its
buckets and sets CFGERR by its rule. ARP, ND and echo frames draw their answers on Q6, oldest first. PHRASE, FENCE_CMD, STATUS
and RESEND take the oldest ICT message of their type: a failed check draws its code in an ACK; an accepted PHRASE fills the
slots (a pad first where it would cross the end), an accepted PHRASE or FENCE_CMD moves NEXT and gives the doorbell; STATUS
answers; RESEND sends the kept COMPLETION again, or STALE. -/
def Obligations.NetworkReception : Prop :=
  ∀ (s : State) (x : Str) (n : Fin 2) (k : Fin 4) (sel : Fin 3) (v : Word) (frame : List Byte) (t : Nat),
    let c := s.str x
    let u := s.advance t
    let e := u.str x
    let o := Reg.ETH_RXCNT n
    let len := frame.length
    let body := frame.take (len - 4)
    let rx := fun (b : StringSt) (l : List Rx) => { b with net := { b.net with rx := l } }
    let recv := exec (.ethFrameReceive x n frame t) s
    let fcs := leNat (frame.drop (len - 4)) = crc32 body
    let counted := fun (f : Fld) => ∃ d : StringSt, recv = .next (u.setStr x d) ∧ e.counts d o f 1
    let cells := (len + 255) / 256;
    ((e.linkUp n = false ∨ len < 64) → recv = .next (u.setStr x e)) ∧
    (e.linkUp n = true → 64 ≤ len →
      (¬fcs → counted F.ETH_RXCNT.FCS) ∧ (fcs → e.maxLen n < len → counted F.ETH_RXCNT.LONG) ∧
      (fcs → len ≤ e.maxLen n → (e.filter n body = none → counted F.ETH_RXCNT.DISC) ∧
        ∀ f tag, e.filter n body = some (f, tag) →
          let g := e.police n f.pol.idx len tag;
          (g.1 = false ∨ (f.pol ≠ .ptp ∧ f.kind = none) → recv = .next (u.setStr x g.2)) ∧
          (g.1 = true → f.pol ≠ .ptp → ∀ kind, f.kind = some kind →
            let waits := fun (key : Nat) (q : List Byte) => ∃ (d : StringSt) (at_ : List Nat), recv = .next (u.setStr x d) ∧
              d = { g.2 with
                sram := d.sram
                net := { g.2.net with
                  drawn := g.2.net.drawn + 1
                  rx := e.net.rx ++ [⟨kind, ⟨n, f.v6, f.mac, f.ip, f.udp, key⟩, cells, q, at_⟩] } } ∧
              (∀ k ∈ at_, k < 4096 ∧ ∀ r ∈ e.net.rx, k ∉ r.place) ∧
              ∀ a, a < 0x01B00000 ∨ 0x01C00000 ≤ a → d.sram.byte a = e.sram.byte a
            let off := kind = .ict ∧ e.flag Reg.ICT_CFG F.ICT_CFG.EN = false;
            (off → recv = .next (u.setStr x g.2)) ∧
            (¬off → f.lens = false → kind = .ict → ∃ d : StringSt, recv = .next (u.setStr x d) ∧ g.2.counts d Reg.ICT_CNT2 F.ICT_CNT2.HI 1) ∧
            (¬off → f.lens = false → kind ≠ .ict → recv = .next (u.setStr x g.2)) ∧
            (¬off → f.lens = true → f.sound = false → recv = .next (u.setStr x g.2)) ∧
            (¬off → f.lens = true → f.sound = true →
              (4096 < e.rxCells + cells → ∃ d : StringSt, recv = .next (u.setStr x d) ∧ g.2.counts d o F.ETH_RXCNT.NOBUF 1) ∧
              (e.rxCells + cells ≤ 4096 → (kind ≠ .ict → waits 0 f.body) ∧
                (kind = .ict → ((e.ictCheck f.body).1 = none → recv = .next (u.setStr x (g.2.ictCheck f.body).2)) ∧
                  ∀ key, (e.ictCheck f.body).1 = some key → waits key (f.body.take (f.body.length - 16)))))) ∧
          (g.1 = true → f.pol = .ptp →
            let profile := e.fld Reg.TIME_PTPCFG F.TIME_PTPCFG.PROFILE
            let on := f.lens = true ∧ f.sound = true ∧ (profile = 1 ∨ profile = 2) ∧ e.flag Reg.TIME_PTPCFG F.TIME_PTPCFG.CFGERR = false;
            (¬on → recv = .next (u.setStr x g.2)) ∧
            (on → recv = .next (u.setStr x { g.2 with net := { g.2.net with ptpRx :=
              e.net.ptpRx ++ [(n.val, e.time - e.fld (Reg.TIME_LAT n) F.TIME_LAT.INGRESS * 4096, frame)] } }))))) ∧
    (∀ f : List Byte, f.take 6 ≠ c.ownMac n → beAt f 0 1 % 2 = 0 → c.filter n f = none) ∧
    (∀ f : List Byte, [0x8808, 0x88A8].contains (beAt f 12 2) = true → c.filter n f = none) ∧
    (∀ m : List Byte,
      let w := leNat ((m.drop 12).take 2);
      (m.length ≠ 48 + w → (c.ictCheck m).1 = none ∧ c.counts (c.ictCheck m).2 Reg.ICT_CNT2 F.ICT_CNT2.HI 1) ∧
      (m.length = 48 + w → (c.ictTag (leNat (m.take 4) / 1048576 % 8) (m.take (32 + w)) ≠ m.drop (32 + w)) →
        (c.ictCheck m).1 = none ∧ c.counts (c.ictCheck m).2 Reg.ICT_CNT F.ICT_CNT.LO 1)) ∧
    (∀ (l : Nat) (tag : Option VTag),
      let g := c.police n k l tag
      let cir := (c.polRates n k).1
      let pir := (c.polRates n k).2
      let level := fun (burst rate had since : Nat) => min (256 * burst) (had + (c.time - since) * (rate * 8000 * 256) / secT)
      let one := fun (f : Fld) => StringSt.regsBut { c with net := g.2.net } g.2 [Reg.ETH_POLTOK n k, Reg.ETH_POLYR n k] ∧
        g.2.net.rx = c.net.rx ∧ g.2.fld (Reg.ETH_POLYR n k) f = min (2 ^ f.w - 1) (c.fld (Reg.ETH_POLYR n k) f + 1)
      (cir = 0 → pir = 0 → g.1 = true ∧ g.2 = c.wr (Reg.ETH_POLG n k) (c.rd (Reg.ETH_POLG n k) + 1)) ∧
      (pir ≠ 0 → tag = none → Tab.get (fun _ => none) (c.port n).pol k.val = none → l ≤ c.maxLen n → g.1 = true) ∧
      (pir ≠ 0 → tag = none → ∀ tc tp z, Tab.get (fun _ => none) (c.port n).pol k.val = some (tc, tp, z) →
        let hasC := 256 * l ≤ level (c.polBursts n k).1 cir tc z
        let hasP := 256 * l ≤ level (c.polBursts n k).2 pir tp z;
        (¬hasP → g.1 = false ∧ one F.ETH_POLYR.RED) ∧
        (hasP → ¬hasC → (g.1 = true ↔ (c.rd (Reg.ETH_POLCFG n k)).testBit 21 = false) ∧ one F.ETH_POLYR.YELLOW) ∧
        (hasP → hasC → g.1 = true ∧ g.2.rd (Reg.ETH_POLG n k) = (c.rd (Reg.ETH_POLG n k) + 1) % 4294967296))) ∧
    (∃ d : StringSt, exec (.policerConfigWrite x n k sel v) s = .next (s.setStr x d) ∧
      StringSt.regsBut { c with net := d.net } d [Reg.ETH_POLCFG n k, Reg.ETH_POLPIR n k, Reg.ETH_POLBS n k] ∧
      d.rd (Reg.ETH_POLCFG n k) = (if sel.val = 0 then v.toNat % 1073741824 else c.rd (Reg.ETH_POLCFG n k)) ∧
      d.fld (Reg.ETH_POLPIR n k) F.ETH_POLPIR.RATE =
        (if sel.val = 1 then v.toNat % 2 ^ F.ETH_POLPIR.RATE.w else c.fld (Reg.ETH_POLPIR n k) F.ETH_POLPIR.RATE) ∧
      d.rd (Reg.ETH_POLBS n k) = (if sel.val = 2 then v.toNat else c.rd (Reg.ETH_POLBS n k)) ∧
      (d.flag (Reg.ETH_POLPIR n k) F.ETH_POLPIR.CFGERR = true ↔
        d.fld (Reg.ETH_POLPIR n k) F.ETH_POLPIR.RATE < d.fld (Reg.ETH_POLCFG n k) F.ETH_POLCFG.RATE ∨
          64 * d.fld (Reg.ETH_POLBS n k) F.ETH_POLBS.C < d.maxLen n ∨ 64 * d.fld (Reg.ETH_POLBS n k) F.ETH_POLBS.P < d.maxLen n) ∧
      d.net.rx = c.net.rx ∧ ∀ j, Tab.get (fun _ => none) (d.port n).pol j = if j = k.val then none else Tab.get (fun _ => none) (c.port n).pol j) ∧
    (let drawn := fun (i : Instr) (kind : RxKind) (answer : Rx → Cargo) =>
      ((∀ r ∈ c.net.rx, r.kind ≠ kind) → exec i s = .next (s.setStr x c)) ∧
      ∀ r l, oldest (fun q => q.kind = kind) c.net.rx r l → exec i s = .next (s.setStr x ((rx c l).enqueue r.peer.port 6 (answer r) none).1);
      drawn (.arpRequest x) .arp (fun r => .arp r.peer.mac r.peer.ip) ∧ drawn (.ndSolicitation x) .nd (fun r => .nd r.peer.mac r.peer.ip) ∧
      drawn (.echoRequest x) .echo (fun r => .echo r.peer.v6 r.peer.mac r.peer.ip r.body)) ∧
    (let idle := fun (i : Instr) (typ : Nat) => (∀ r l, oldest (fun q => q.kind = .ict) e.net.rx r l → StringSt.Rx.typ r ≠ typ) → exec i s = .next u;
      idle (.phrase x t) 1 ∧ idle (.fenceCmd x t) 3 ∧ idle (.status x t) 4 ∧ idle (.resend x t) 5) ∧
    (∀ r l, oldest (fun q => q.kind = .ict) e.net.rx r l →
      let b := rx e l
      let m := StringSt.Rx.ring r
      let seq := StringSt.Rx.word r 2
      let res := b.cmdCheck r
      let load := StringSt.Rx.load r
      let h := Hdr.of (leWords 8 load)
      let prod := b.netProd m
      let at_ := prod % 256
      let pad := if 256 < at_ + h.nslot then 256 - at_ else 0
      let prod2 := (prod + pad + h.nslot) % 65536
      let bad := load.length < 32 ∨ load.length < 32 + 4 * h.ninsn ∨ 256 * h.nslot < load.length
      let full := 256 < cntSub prod (b.ringCons m) + pad + h.nslot
      let taken := fun (d : StringSt) (p cmd slot : Nat) => StringSt.regsBut { b with net := d.net, sram := d.sram } d [Reg.ICT_NEXT (m - 12)] ∧
        d.rd (Reg.ICT_NEXT (m - 12)) = (seq + 1) % 4294967296 ∧ Tab.get (fun _ => none) d.net.peers m = some r.peer ∧ d.net.rx = l ∧
        d.net.acks = e.net.acks ++ [⟨m, p, cmd, r.peer, seq, slot⟩]
      let fcmd := leNat (load.take 4)
      let cmd := if fcmd = 1 ∨ fcmd = 2 then fcmd else 3
      let live := e.holds = true
      let keyed := e.rd Reg.ICT_EPOCH ≠ 0 ∧ StringSt.Rx.word r 1 = e.rd Reg.ICT_EPOCH
      let mine := 12 ≤ m ∧ (e.netKeyWord r.peer.key).testBit (8 + (m - 12)) = true ∧ e.ringEn m = true;
      (¬live → res = 6) ∧ (live → ¬keyed → res = 4) ∧ (live → keyed → ¬mine → res = 7) ∧
      (live → keyed → mine → (seq = e.ictNext m → res = 0) ∧ (seq < 4294967296 → e.ictNext m < seq → seq < e.ictNext m + 2147483648 → res = 2) ∧
        (seq < e.ictNext m → e.ictNext m ≤ seq + 64 → res = 1) ∧ (seq + 64 < e.ictNext m → e.ictNext m < seq + 2147483648 → res = 3)) ∧
      (∀ a, a ≠ 0 → ∃ d : StringSt, b.nack r a = d.sendIct r.peer
          (b.ictMsg 0x81 m r.peer.key seq a false e.time (StringSt.wordBytes [e.ictNext m, 0xFFFFFFFF])) ∧
        (a = 1 → b.counts d Reg.ICT_CNT2 F.ICT_CNT2.LO 1) ∧ (a ≠ 1 → b.counts d Reg.ICT_CNT F.ICT_CNT.HI 1)) ∧
      (StringSt.Rx.typ r = 1 → (res ≠ 0 → exec (.phrase x t) s = .next (u.setStr x (b.nack r res))) ∧
        (res = 0 → bad → exec (.phrase x t) s = .next (u.setStr x (b.nack r 8))) ∧
        (res = 0 → ¬bad → full → exec (.phrase x t) s = .next (u.setStr x (b.nack r 5))) ∧
        (res = 0 → ¬bad → ¬full → ∃ d : StringSt, exec (.phrase x t) s = .next ((u.setStr x d).netDoorbell x m prod2 0) ∧
          taken d prod2 0 ((at_ + pad) % 256) ∧
          d.bytes (slotAddr m (at_ + pad)) (256 * h.nslot) = load ++ List.replicate (256 * h.nslot - load.length) 0 ∧
          (pad ≠ 0 → (Hdr.of (d.words (slotAddr m at_) 8)).magic = 0x5A ∧ (Hdr.of (d.words (slotAddr m at_) 8)).nslot = pad))) ∧
      (StringSt.Rx.typ r = 3 → (res ≠ 0 → exec (.fenceCmd x t) s = .next (u.setStr x (b.nack r res))) ∧
        (res = 0 → ∃ d : StringSt, exec (.fenceCmd x t) s = .next ((u.setStr x d).netDoorbell x m prod cmd) ∧ d.sram = e.sram ∧
          taken d prod cmd 0xFFFFFFFF)) ∧
      (StringSt.Rx.typ r = 4 → exec (.status x t) s = .next (u.setStr x (b.sendIct r.peer (b.ictMsg 0x84 0 r.peer.key 0 0 false e.time (StringSt.wordBytes
        ([e.rd Reg.ICT_EPOCH] ++ (List.range 4).map (fun i => e.rd (Reg.ICT_NEXT i)) ++ [(u.setStr x b).peek x Reg.RED_CAPOSTAT] ++
          (List.range 4).map (fun i => e.ringStat (12 + i)) ++
          ((List.range 4).map fun i => [e.rd (Reg.RING_LSEQ_L (12 + i)), e.rd (Reg.RING_LSEQ_H (12 + i))]).flatten)))))) ∧
      (StringSt.Rx.typ r = 5 →
        let g := leNat (load.take 8);
        let kept := (Tab.get (fun _ => []) e.net.kept m).find? fun w => w.1 == g;
        (¬live → exec (.resend x t) s = .next (u.setStr x (b.nack r 6))) ∧
        (live → kept = none → exec (.resend x t) s = .next (u.setStr x (b.nack r 3))) ∧
        (live → ∀ w, kept = some w → (Tab.get (fun _ => none) e.net.peers m ≠ none → exec (.resend x t) s = .next (u.setStr x (b.sendCompletion m w.2))) ∧
          (Tab.get (fun _ => none) e.net.peers m = none → exec (.resend x t) s = .next (u.setStr x
            (b.sendIct r.peer (b.ictMsg 0x85 m r.peer.key 0 0 ((w.2.getD 0 0).testBit 29) e.time (StringSt.wordBytes w.2))))))))
end

