-- ==== Sys2Proof/Laws/Bits.lean ====
section
/-! SUPPORT. Laws of bit fields: a field reads as it was written, and writing it leaves every other field alone. -/

namespace Sys2Proof.Machine

/-- A field reads as it was written. -/
theorem bits_putBits_self (v lo w f : Nat) : bits (putBits v lo w f) lo w = f % 2 ^ w := by
  unfold bits putBits
  have h1 : v % 2 ^ lo < 2 ^ lo := Nat.mod_lt _ (Nat.two_pow_pos _)
  rw [Nat.pow_add]
  have e : v % 2 ^ lo + f % 2 ^ w * 2 ^ lo + v / (2 ^ lo * 2 ^ w) * (2 ^ lo * 2 ^ w) =
      v % 2 ^ lo + 2 ^ lo * (f % 2 ^ w + 2 ^ w * (v / (2 ^ lo * 2 ^ w))) := by
    rw [Nat.mul_add, Nat.mul_comm (f % 2 ^ w), ← Nat.mul_assoc, Nat.mul_comm (v / _), Nat.add_assoc, Nat.mul_right_comm, Nat.mul_assoc]
  rw [e, Nat.add_mul_div_left _ _ (Nat.two_pow_pos _), Nat.div_eq_of_lt h1, Nat.zero_add, Nat.add_mul_mod_self_left]
  exact Nat.mod_mod _ _

/-- Bit `j` of a number with a field written. -/
theorem testBit_putBits (v lo w f j : Nat) :
    (putBits v lo w f).testBit j = if lo ≤ j ∧ j < lo + w then f.testBit (j - lo) else v.testBit j := by
  have e : putBits v lo w f = (v % 2 ^ lo) + 2 ^ lo * ((f % 2 ^ w) + 2 ^ w * (v / 2 ^ (lo + w))) := by
    unfold putBits
    rw [Nat.pow_add, Nat.mul_add, Nat.mul_comm (f % 2 ^ w), ← Nat.mul_assoc, Nat.mul_comm (v / _), Nat.add_assoc, Nat.mul_right_comm, Nat.mul_assoc]
  have h1 : v % 2 ^ lo < 2 ^ lo := Nat.mod_lt _ (Nat.two_pow_pos _)
  have h2 : f % 2 ^ w < 2 ^ w := Nat.mod_lt _ (Nat.two_pow_pos _)
  rw [e, Nat.add_comm, Nat.testBit_two_pow_mul_add _ h1]
  by_cases a : j < lo
  · have n : ¬ (lo ≤ j ∧ j < lo + w) := by omega
    rw [if_pos a, if_neg n, Nat.testBit_mod_two_pow]
    simp [a]
  · rw [if_neg a, Nat.add_comm (f % 2 ^ w), Nat.testBit_two_pow_mul_add _ h2]
    by_cases b : j - lo < w
    · have n : lo ≤ j ∧ j < lo + w := by omega
      rw [if_pos b, if_pos n, Nat.testBit_mod_two_pow]
      simp [b]
    · have n : ¬ (lo ≤ j ∧ j < lo + w) := by omega
      rw [if_neg b, if_neg n, ← Nat.shiftRight_eq_div_pow, Nat.testBit_shiftRight]
      congr 1
      omega

/-- Bit `j` of a field. -/
theorem testBit_bits (v lo w j : Nat) : (bits v lo w).testBit j = (decide (j < w) && v.testBit (lo + j)) := by
  unfold bits
  rw [Nat.testBit_mod_two_pow, ← Nat.shiftRight_eq_div_pow, Nat.testBit_shiftRight]

/-- Writing a field leaves every other field alone. -/
theorem bits_putBits_ne (v lo w f lo' w' : Nat) (h : lo' + w' ≤ lo ∨ lo + w ≤ lo') : bits (putBits v lo w f) lo' w' = bits v lo' w' := by
  apply Nat.eq_of_testBit_eq
  intro j
  rw [testBit_bits, testBit_bits, testBit_putBits]
  by_cases b : j < w'
  · have n : ¬ (lo ≤ lo' + j ∧ lo' + j < lo + w) := by omega
    rw [if_neg n]
  · simp [b]

theorem bit_eq_testBit (v i : Nat) : bit v i = v.testBit i := by
  unfold bit
  rw [Nat.testBit_eq_decide_div_mod_eq]
  rfl

theorem bit_putBits_ne (v lo w f i : Nat) (h : i < lo ∨ lo + w ≤ i) : bit (putBits v lo w f) i = bit v i := by
  rw [bit_eq_testBit, bit_eq_testBit, testBit_putBits]
  have n : ¬ (lo ≤ i ∧ i < lo + w) := by omega
  rw [if_neg n]

/-- A bit reads as it was written. -/
@[simp] theorem bit_putBit_self (v i : Nat) (b : Bool) : bit (putBit v i b) i = b := by
  rw [bit_eq_testBit, putBit, testBit_putBits]
  cases b <;> simp

/-- Writing a bit leaves every other bit alone. -/
theorem bit_putBit_ne (v : Nat) {i j : Nat} (b : Bool) (h : j ≠ i) : bit (putBit v i b) j = bit v j :=
  bit_putBits_ne v i 1 _ j (by omega)

theorem bits_putBit_ne (v i lo w : Nat) (b : Bool) (h : i < lo ∨ lo + w ≤ i) : bits (putBit v i b) lo w = bits v lo w :=
  bits_putBits_ne v i 1 _ lo w (by omega)

/-- A number of `n` bits with a field of it written is one of `n` bits. -/
theorem putBits_lt (v lo w f n : Nat) (hv : v < 2 ^ n) (h : lo + w ≤ n) : putBits v lo w f < 2 ^ n := by
  apply Nat.lt_pow_two_of_testBit
  intro j hj
  rw [testBit_putBits]
  have b : ¬ (lo ≤ j ∧ j < lo + w) := by omega
  rw [if_neg b]
  exact Nat.testBit_lt_two_pow (Nat.lt_of_lt_of_le hv (Nat.pow_le_pow_right (by decide) hj))

end Sys2Proof.Machine
end

