-- ==== Sys2Proof/Laws/Tab.lean ====
section
/-! SUPPORT. Laws of the sparse tables and of memory: a read after a write, and the canonical form that every operation keeps. -/

namespace Sys2Proof.Machine

/-! ## Tables -/

theorem Tab.get_insert_self {α : Type} (d : Nat → α) (m : Tab α) (k : Nat) (v : α) : Tab.get d (Tab.insert m k v) k = v := by
  induction m with
  | nil => simp [Tab.insert, Tab.get]
  | cons e m ih =>
    obtain ⟨i, w⟩ := e
    simp only [Tab.insert]
    split
    · simp [Tab.get]
    · split
      · simp [Tab.get]
      · rename_i h
        rw [Tab.get, if_neg (fun e => h e.symm), ih]

theorem Tab.get_insert_ne {α : Type} (d : Nat → α) (m : Tab α) {k n : Nat} (v : α) (h : n ≠ k) :
    Tab.get d (Tab.insert m k v) n = Tab.get d m n := by
  induction m with
  | nil => simp [Tab.insert, Tab.get, h.symm]
  | cons e m ih =>
    obtain ⟨i, w⟩ := e
    simp only [Tab.insert]
    split
    · simp [Tab.get, h.symm]
    · split
      · rename_i e
        simp [Tab.get, ← e, h.symm]
      · simp [Tab.get, ih]

theorem Tab.get_erase_self {α : Type} (d : Nat → α) (m : Tab α) (k : Nat) : Tab.get d (Tab.erase m k) k = d k := by
  induction m with
  | nil => simp [Tab.erase, Tab.get]
  | cons e m ih =>
    obtain ⟨i, w⟩ := e
    simp only [Tab.erase]
    split <;> simp_all [Tab.get]

theorem Tab.get_erase_ne {α : Type} (d : Nat → α) (m : Tab α) {k n : Nat} (h : n ≠ k) :
    Tab.get d (Tab.erase m k) n = Tab.get d m n := by
  induction m with
  | nil => simp [Tab.erase, Tab.get]
  | cons e m ih =>
    obtain ⟨i, w⟩ := e
    simp only [Tab.erase]
    split
    · rename_i e
      simp [Tab.get, ih, e, h.symm]
    · simp [Tab.get, ih]

/-- A key reads as it was written. -/
@[simp] theorem Tab.get_set_self {α : Type} [DecidableEq α] (d : Nat → α) (m : Tab α) (k : Nat) (v : α) :
    Tab.get d (Tab.set d m k v) k = v := by
  unfold Tab.set
  split
  · rename_i e
    simp [Tab.get_erase_self, e]
  · exact Tab.get_insert_self d m k v

/-- A write leaves every other key alone. -/
@[simp] theorem Tab.get_set_ne {α : Type} [DecidableEq α] (d : Nat → α) (m : Tab α) {k n : Nat} (v : α) (h : n ≠ k) :
    Tab.get d (Tab.set d m k v) n = Tab.get d m n := by
  unfold Tab.set
  split
  · exact Tab.get_erase_ne d m h
  · exact Tab.get_insert_ne d m v h

theorem Tab.wfAbove_weaken {α : Type} [DecidableEq α] (d : Nat → α) (m : Tab α) {lo hi : Nat} (h : lo ≤ hi)
    (w : Tab.wfAbove d (some hi) m = true) : Tab.wfAbove d (some lo) m = true := by
  cases m with
  | nil => rfl
  | cons e m =>
    obtain ⟨i, v⟩ := e
    simp only [Tab.wfAbove, Bool.and_eq_true, decide_eq_true_eq] at w ⊢
    exact ⟨⟨by omega, w.1.2⟩, w.2⟩

theorem Tab.wf_of_wfAbove {α : Type} [DecidableEq α] (d : Nat → α) (m : Tab α) {lo : Nat}
    (w : Tab.wfAbove d (some lo) m = true) : Tab.wf d m = true := by
  cases m with
  | nil => rfl
  | cons e m =>
    obtain ⟨i, v⟩ := e
    simp only [Tab.wf, Tab.wfAbove, Bool.and_eq_true, decide_eq_true_eq] at w ⊢
    exact ⟨w.1.2, w.2⟩

theorem Tab.wfAbove_insert {α : Type} [DecidableEq α] (d : Nat → α) (m : Tab α) (k : Nat) (v : α) (hv : v ≠ d k) :
    ∀ lo : Nat, lo < k → Tab.wfAbove d (some lo) m = true → Tab.wfAbove d (some lo) (Tab.insert m k v) = true := by
  induction m with
  | nil =>
    intro lo h _
    simp [Tab.insert, Tab.wfAbove, h, hv]
  | cons e m ih =>
    obtain ⟨i, w⟩ := e
    intro lo h wf
    simp only [Tab.wfAbove, Bool.and_eq_true, decide_eq_true_eq] at wf
    simp only [Tab.insert]
    split
    · rename_i lt
      simp only [Tab.wfAbove, Bool.and_eq_true, decide_eq_true_eq]
      exact ⟨⟨h, hv⟩, ⟨lt, wf.1.2⟩, wf.2⟩
    · split
      · rename_i e
        subst e
        simp only [Tab.wfAbove, Bool.and_eq_true, decide_eq_true_eq]
        exact ⟨⟨h, hv⟩, wf.2⟩
      · rename_i h1 h2
        simp only [Tab.wfAbove, Bool.and_eq_true, decide_eq_true_eq]
        exact ⟨wf.1, ih i (by omega) wf.2⟩

theorem Tab.wfAbove_erase {α : Type} [DecidableEq α] (d : Nat → α) (m : Tab α) (k : Nat) :
    ∀ lo : Nat, Tab.wfAbove d (some lo) m = true → Tab.wfAbove d (some lo) (Tab.erase m k) = true := by
  induction m with
  | nil => intro lo _; rfl
  | cons e m ih =>
    obtain ⟨i, w⟩ := e
    intro lo wf
    simp only [Tab.wfAbove, Bool.and_eq_true, decide_eq_true_eq] at wf
    simp only [Tab.erase]
    split
    · exact ih lo (Tab.wfAbove_weaken d m (by omega) wf.2)
    · simp only [Tab.wfAbove, Bool.and_eq_true, decide_eq_true_eq]
      exact ⟨wf.1, ih i wf.2⟩

/-- A write keeps the canonical form of a table. -/
theorem Tab.wf_set {α : Type} [DecidableEq α] (d : Nat → α) (m : Tab α) (k : Nat) (v : α) (h : Tab.wf d m = true) :
    Tab.wf d (Tab.set d m k v) = true := by
  unfold Tab.set
  cases m with
  | nil =>
    split
    · rfl
    · rename_i e
      simp [Tab.insert, Tab.wf, Tab.wfAbove, e]
  | cons e m =>
    obtain ⟨i, w⟩ := e
    simp only [Tab.wf, Tab.wfAbove, Bool.and_eq_true, decide_eq_true_eq] at h
    split
    · simp only [Tab.erase]
      split
      · exact Tab.wf_of_wfAbove d _ (Tab.wfAbove_erase d m k i h.2)
      · simp only [Tab.wf, Tab.wfAbove, Bool.and_eq_true, decide_eq_true_eq]
        exact ⟨h.1, Tab.wfAbove_erase d m k i h.2⟩
    · rename_i hv
      simp only [Tab.insert]
      split
      · rename_i lt
        simp only [Tab.wf, Tab.wfAbove, Bool.and_eq_true, decide_eq_true_eq]
        exact ⟨hv, ⟨lt, h.1⟩, h.2⟩
      · split
        · rename_i e
          subst e
          simp only [Tab.wf, Tab.wfAbove, Bool.and_eq_true, decide_eq_true_eq]
          exact ⟨hv, h.2⟩
        · simp only [Tab.wf, Tab.wfAbove, Bool.and_eq_true, decide_eq_true_eq]
          exact ⟨h.1, Tab.wfAbove_insert d m k v hv i (by omega) h.2⟩

/-- Taking entries out keeps the canonical form. -/
theorem Tab.wfAbove_filter {α : Type} [DecidableEq α] (d : Nat → α) (p : Nat × α → Bool) (m : Tab α) :
    ∀ lo : Nat, Tab.wfAbove d (some lo) m = true → Tab.wfAbove d (some lo) (m.filter p) = true := by
  induction m with
  | nil => intro lo _; rfl
  | cons e m ih =>
    obtain ⟨i, w⟩ := e
    intro lo wf
    simp only [Tab.wfAbove, Bool.and_eq_true, decide_eq_true_eq] at wf
    simp only [List.filter]
    split
    · simp only [Tab.wfAbove, Bool.and_eq_true, decide_eq_true_eq]
      exact ⟨wf.1, ih i wf.2⟩
    · exact ih lo (Tab.wfAbove_weaken d m (by omega) wf.2)

theorem Tab.wf_filter {α : Type} [DecidableEq α] (d : Nat → α) (p : Nat × α → Bool) (m : Tab α) (h : Tab.wf d m = true) :
    Tab.wf d (m.filter p) = true := by
  cases m with
  | nil => rfl
  | cons e m =>
    obtain ⟨i, w⟩ := e
    simp only [Tab.wf, Tab.wfAbove, Bool.and_eq_true, decide_eq_true_eq] at h
    simp only [List.filter]
    split
    · simp only [Tab.wf, Tab.wfAbove, Bool.and_eq_true, decide_eq_true_eq]
      exact ⟨h.1, Tab.wfAbove_filter d p m i h.2⟩
    · exact Tab.wf_of_wfAbove d _ (Tab.wfAbove_filter d p m i h.2)

/-! ## Memory -/

/-- A byte reads as it was written. -/
@[simp] theorem Mem.byte_setByte_self (m : Mem) (a : Nat) (v : Byte) : (m.setByte a v).byte a = v :=
  Tab.get_set_self zeroByte m a v

/-- Writing a byte leaves every other byte alone. -/
@[simp] theorem Mem.byte_setByte_ne (m : Mem) {a b : Nat} (v : Byte) (h : b ≠ a) : (m.setByte a v).byte b = m.byte b :=
  Tab.get_set_ne zeroByte m v h

theorem Mem.wf_setByte (m : Mem) (a : Nat) (v : Byte) (h : m.wf = true) : (m.setByte a v).wf = true :=
  Tab.wf_set zeroByte m a v h

theorem Mem.wf_write (m : Mem) (a n v : Nat) (h : m.wf = true) : (m.write a n v).wf = true := by
  induction n generalizing m a v with
  | zero => exact h
  | succ n ih => exact ih _ _ _ (Mem.wf_setByte m a _ h)

theorem Mem.wf_writeBytes (m : Mem) (a : Nat) (l : List Byte) (h : m.wf = true) : (m.writeBytes a l).wf = true := by
  induction l generalizing m a with
  | nil => exact h
  | cons v l ih => exact ih _ _ (Mem.wf_setByte m a v h)

theorem Mem.wf_setWord (m : Mem) (a v : Nat) (h : m.wf = true) : (m.setWord a v).wf = true := Mem.wf_write m a 4 v h

theorem Mem.wf_writeWords (m : Mem) (a : Nat) (l : List Nat) (h : m.wf = true) : (m.writeWords a l).wf = true := by
  induction l generalizing m a with
  | nil => exact h
  | cons v l ih => exact ih _ _ (Mem.wf_setWord m a v h)

theorem Mem.wf_filter (m : Mem) (p : Host.Cell → Bool) (h : m.wf = true) : Mem.wf (m.filter p) = true :=
  Tab.wf_filter zeroByte p m h

/-- A write of `n` bytes leaves every byte outside them alone. -/
theorem Mem.byte_write_out (m : Mem) (a n v b : Nat) (h : b < a ∨ a + n ≤ b) : (m.write a n v).byte b = m.byte b := by
  induction n generalizing m a v with
  | zero => rfl
  | succ n ih =>
    rw [Mem.write, ih _ _ _ (by omega), Mem.byte_setByte_ne _ _ (by omega)]

/-- The number written is the number read. -/
theorem Mem.read_write (m : Mem) (a n v : Nat) : (m.write a n v).read a n = v % 256 ^ n := by
  induction n generalizing m a v with
  | zero => simp [Mem.read, Nat.mod_one]
  | succ n ih =>
    rw [Mem.write, Mem.read, ih, Mem.byte_write_out _ _ _ _ _ (by omega), Mem.byte_setByte_self, BitVec.toNat_ofNat]
    show v % 256 + 256 * (v / 256 % 256 ^ n) = v % 256 ^ (n + 1)
    rw [Nat.pow_succ', Nat.mod_mul]

@[simp] theorem Mem.word_setWord (m : Mem) (a v : Nat) : (m.setWord a v).word a = v % 4294967296 := Mem.read_write m a 4 v

end Sys2Proof.Machine
end

