-- ==== Sys2Proof/Laws/Regs.lean ====
section
/-! SUPPORT. What a store to a register, a field or a counter does, said once for strings and for tiles, and what taking the oldest
message of a kind answers. -/

namespace Sys2Proof.Machine

/-! ## Registers of a string -/

theorem StringSt.rd_lt (c : StringSt) (o : Nat) : c.rd o < 4294967296 := (Tab.get (coldWord c.id) c.regs o).isLt

@[simp] theorem StringSt.rd_wr_self (c : StringSt) (o v : Nat) : (c.wr o v).rd o = v % 4294967296 := by
  simp [StringSt.rd, StringSt.wr]

theorem StringSt.rd_wr_ne (c : StringSt) {o p : Nat} (v : Nat) (h : p ≠ o) : (c.wr o v).rd p = c.rd p := by
  simp [StringSt.rd, StringSt.wr, h]

theorem StringSt.regsBut_refl (c : StringSt) (l : List Nat) : c.regsBut c l := ⟨rfl, fun _ _ => rfl⟩

theorem StringSt.regsBut_wr (c : StringSt) (o v : Nat) : c.regsBut (c.wr o v) [o] :=
  ⟨rfl, fun _ h => c.rd_wr_ne v (by simpa using h)⟩

theorem StringSt.regsBut_setFld (c : StringSt) (o : Nat) (f : Fld) (v : Nat) : c.regsBut (c.setFld o f v) [o] := c.regsBut_wr _ _

/-- Two changes of registers one after the other. -/
theorem StringSt.regsBut_trans {c d e : StringSt} {l m : List Nat} (h : c.regsBut d l) (k : d.regsBut e m) : c.regsBut e (l ++ m) := by
  refine ⟨?_, fun o ho => ?_⟩
  · have := h.1; have hk := k.1
    cases c; cases d; cases e
    simp only [StringSt.mk.injEq] at this hk ⊢
    simp_all
  · simp only [List.mem_append, not_or] at ho
    rw [k.2 o ho.2, h.2 o ho.1]

theorem StringSt.rd_setFld_self (c : StringSt) (o : Nat) (f : Fld) (v : Nat) (hf : f.lo + f.w ≤ 32) :
    (c.setFld o f v).rd o = putBits (c.rd o) f.lo f.w v := by
  unfold StringSt.setFld
  rw [StringSt.rd_wr_self]
  exact Nat.mod_eq_of_lt (putBits_lt _ _ _ _ 32 (c.rd_lt o) hf)

theorem StringSt.rd_setFld_ne (c : StringSt) {o p : Nat} (f : Fld) (v : Nat) (h : p ≠ o) : (c.setFld o f v).rd p = c.rd p :=
  c.rd_wr_ne _ h

theorem StringSt.fld_setFld_self (c : StringSt) (o : Nat) (f : Fld) (v : Nat) (hf : f.lo + f.w ≤ 32) :
    (c.setFld o f v).fld o f = v % 2 ^ f.w := by
  unfold StringSt.fld
  rw [c.rd_setFld_self o f v hf]
  exact bits_putBits_self _ _ _ _

theorem StringSt.fld_setFld_apart (c : StringSt) (o : Nat) (f g : Fld) (v : Nat) (hf : f.lo + f.w ≤ 32)
    (h : g.lo + g.w ≤ f.lo ∨ f.lo + f.w ≤ g.lo) : (c.setFld o f v).fld o g = c.fld o g := by
  unfold StringSt.fld
  rw [c.rd_setFld_self o f v hf]
  exact bits_putBits_ne _ _ _ _ _ _ h

theorem StringSt.fld_setFld_ne (c : StringSt) {o p : Nat} (f g : Fld) (v : Nat) (h : p ≠ o) : (c.setFld o f v).fld p g = c.fld p g := by
  unfold StringSt.fld
  rw [c.rd_setFld_ne f v h]

/-- A counter that stops at its top. -/
theorem StringSt.counts_addSat (c : StringSt) (o : Nat) (f : Fld) (k : Nat) (hf : f.lo + f.w ≤ 32) : c.counts (c.addSat o f k) o f k :=
  ⟨c.regsBut_setFld o f _, c.rd_setFld_self o f _ hf⟩

/-! ## Registers of a tile -/

theorem TileSt.rd_lt (d : TileSt) (o : Nat) : d.rd o < 4294967296 := (Tab.get coldTile d.regs o).isLt

@[simp] theorem TileSt.rd_wr_self (d : TileSt) (o v : Nat) : (d.wr o v).rd o = v % 4294967296 := by
  simp [TileSt.rd, TileSt.wr]

theorem TileSt.rd_wr_ne (d : TileSt) {o p : Nat} (v : Nat) (h : p ≠ o) : (d.wr o v).rd p = d.rd p := by
  simp [TileSt.rd, TileSt.wr, h]

theorem TileSt.rd_setFld_self (d : TileSt) (o : Nat) (f : Fld) (v : Nat) (hf : f.lo + f.w ≤ 32) :
    (d.setFld o f v).rd o = putBits (d.rd o) f.lo f.w v := by
  unfold TileSt.setFld
  rw [TileSt.rd_wr_self]
  exact Nat.mod_eq_of_lt (putBits_lt _ _ _ _ 32 (d.rd_lt o) hf)

theorem TileSt.fld_setFld_self (d : TileSt) (o : Nat) (f : Fld) (v : Nat) (hf : f.lo + f.w ≤ 32) :
    (d.setFld o f v).fld o f = v % 2 ^ f.w := by
  unfold TileSt.fld
  rw [d.rd_setFld_self o f v hf]
  exact bits_putBits_self _ _ _ _

@[simp] theorem TileSt.chan_setChan_self (d : TileSt) (a : Nat) (k : Chan) : (d.setChan a k).chan a = k := by
  simp [TileSt.chan, TileSt.setChan]

theorem TileSt.chan_setChan_ne (d : TileSt) {a b : Nat} (k : Chan) (h : b ≠ a) : (d.setChan a k).chan b = d.chan b := by
  simp [TileSt.chan, TileSt.setChan, h]

@[simp] theorem TileSt.mon_setMon_self (d : TileSt) (a : Nat) (k : Mon) : (d.setMon a k).mon a = k := by
  simp [TileSt.mon, TileSt.setMon]

theorem TileSt.mon_setMon_ne (d : TileSt) {a b : Nat} (k : Mon) (h : b ≠ a) : (d.setMon a k).mon b = d.mon b := by
  simp [TileSt.mon, TileSt.setMon, h]

/-! ## Taking the oldest message of a kind -/

theorem takeFirst_none {α β : Type} {p : α → Option β} {l : List α} : takeFirst p l = none ↔ ∀ q ∈ l, p q = none := by
  induction l with
  | nil => simp [takeFirst]
  | cons a l ih =>
    unfold takeFirst
    cases h : p a with
    | some v => simp [h]
    | none =>
      cases h2 : takeFirst p l with
      | none => simpa [h] using ih.mp h2
      | some r =>
        simp only [List.mem_cons, forall_eq_or_imp, h, true_and, reduceCtorEq, false_iff]
        exact fun hh => by simp [ih.mpr hh] at h2

/-- What `takeFirst` answers is the oldest element that it accepts, and the list without it. -/
theorem takeFirst_some {α β : Type} {p : α → Option β} {l r : List α} {v : β} (h : takeFirst p l = some (v, r)) :
    ∃ m, oldest (fun q => (p q).isSome = true) l m r ∧ p m = some v := by
  induction l generalizing r with
  | nil => simp [takeFirst] at h
  | cons a l ih =>
    unfold takeFirst at h
    cases ha : p a with
    | some w =>
      simp only [ha, Option.some.injEq, Prod.mk.injEq] at h
      obtain ⟨rfl, rfl⟩ := h
      exact ⟨a, ⟨[], l, rfl, rfl, by simp [ha], by simp⟩, ha⟩
    | none =>
      cases ht : takeFirst p l with
      | none => simp [ha, ht] at h
      | some z =>
        obtain ⟨w, t⟩ := z
        simp only [ha, ht, Option.some.injEq, Prod.mk.injEq] at h
        obtain ⟨rfl, rfl⟩ := h
        obtain ⟨m, ⟨u, x, rfl, rfl, hm, hu⟩, hv⟩ := ih ht
        refine ⟨m, ⟨a :: u, x, rfl, rfl, hm, fun q hq => ?_⟩, hv⟩
        rcases List.mem_cons.mp hq with rfl | hq
        · simp [ha]
        · exact hu q hq

theorem takeFirst_oldest {α β : Type} {p : α → Option β} {l r : List α} {m : α} {v : β}
    (h : oldest (fun q => (p q).isSome = true) l m r) (hv : p m = some v) : takeFirst p l = some (v, r) := by
  obtain ⟨u, w, rfl, rfl, -, hu⟩ := h
  induction u with
  | nil => simp [takeFirst, hv]
  | cons a u ih =>
    have ha : p a = none := by simpa using hu a (by simp)
    have := ih fun q hq => hu q (by simp [hq])
    simp [takeFirst, ha, this]

end Sys2Proof.Machine
end

