-- ==== Sys2Proof/Laws/Events.lean ====
section
/-! SUPPORT. What an event and a recording may change of a string, said once: a fire changes registers, cores, the phrases in flight,
the fabric, the time pins and the messages to the partner, a recording the log in SRAM, the recorder and the capo line as well, and
neither changes anything else. A FATAL recording also drops the calibration's samples that are not committed. -/

namespace Sys2Proof.Machine

/-- `d` is `c` but for what a recording may change. -/
structure StringSt.RecFrame (c d : StringSt) : Prop where
  id : d.id = c.id
  pegs : d.pegs = c.pegs
  wear : d.wear = c.wear
  flash : d.flash = c.flash
  time : d.time = c.time
  eng : d.eng = c.eng
  plan : d.plan = c.plan
  rte : d.rte = c.rte
  pwr : d.pwr = c.pwr
  net : d.net = c.net
  dbgReq : d.dbgReq = c.dbgReq
  dlLen : d.dlLen = c.dlLen
  dlPrev : d.dlPrev = c.dlPrev
  jtag : d.jtag = c.jtag
  toTile : d.toTile = c.toTile
  free : d.free = c.free

/-- `d` is `c` but for what an event of the fabric may change. -/
structure StringSt.EvFrame (c d : StringSt) : Prop extends StringSt.RecFrame c d where
  sram : d.sram = c.sram
  cal : d.cal = c.cal
  alv : d.alv = c.alv
  red : d.red = c.red

namespace StringSt

/-- The same as one equation. -/
theorem EvFrame.eq {c d : StringSt} (h : c.EvFrame d) :
    { d with regs := c.regs, cores := c.cores, ring := c.ring, evf := c.evf, tim := c.tim, outbox := c.outbox } = c := by
  obtain ⟨⟨⟩⟩ := h
  cases c; cases d
  simp_all

/-- The same as one equation. -/
theorem RecFrame.eq {c d : StringSt} (h : c.RecFrame d) :
    { d with regs := c.regs, cores := c.cores, ring := c.ring, evf := c.evf, tim := c.tim, outbox := c.outbox, sram := c.sram, cal := c.cal, alv := c.alv, red := c.red } = c := by
  obtain ⟨⟩ := h
  cases c; cases d
  simp_all

theorem RecFrame.refl (c : StringSt) : c.RecFrame c := by constructor <;> rfl
theorem RecFrame.trans {c d e : StringSt} (h : c.RecFrame d) (k : d.RecFrame e) : c.RecFrame e :=
  ⟨k.id.trans h.id, k.pegs.trans h.pegs, k.wear.trans h.wear, k.flash.trans h.flash, k.time.trans h.time, k.eng.trans h.eng, k.plan.trans h.plan, k.rte.trans h.rte,
    k.pwr.trans h.pwr, k.net.trans h.net, k.dbgReq.trans h.dbgReq, k.dlLen.trans h.dlLen, k.dlPrev.trans h.dlPrev, k.jtag.trans h.jtag, k.toTile.trans h.toTile, k.free.trans h.free⟩
theorem EvFrame.refl (c : StringSt) : c.EvFrame c := ⟨.refl c, rfl, rfl, rfl, rfl⟩
theorem EvFrame.trans {c d e : StringSt} (h : c.EvFrame d) (k : d.EvFrame e) : c.EvFrame e :=
  ⟨h.toRecFrame.trans k.toRecFrame, k.sram.trans h.sram, k.cal.trans h.cal, k.alv.trans h.alv, k.red.trans h.red⟩

/-- A change of what a frame leaves out. -/
theorem EvFrame.of (c : StringSt) (r : Tab Word) (k : Tab CoreSt) (g : RingUnit) (e : EvfUnit) (t : TimeUnit) (o : List BMsg) :
    c.EvFrame { c with regs := r, cores := k, ring := g, evf := e, tim := t, outbox := o } := by
  constructor
  · constructor <;> rfl
  all_goals rfl

/-- A change repeated over a list keeps what each change keeps. -/
theorem foldl_keeps {α σ : Type} (R : σ → σ → Prop) (hr : ∀ s, R s s) (ht : ∀ {a b c}, R a b → R b c → R a c) (f : σ → α → σ)
    (hf : ∀ s a, R s (f s a)) : ∀ (l : List α) (s : σ), R s (l.foldl f s)
  | [], s => hr s
  | a :: l, s => ht (hf s a) (foldl_keeps R hr ht f hf l (f s a))

theorem evFrame_foldl {α : Type} (f : StringSt → α → StringSt) (hf : ∀ (s : StringSt) (a : α), s.EvFrame (f s a)) (l : List α) (c : StringSt) :
    c.EvFrame (l.foldl f c) := foldl_keeps EvFrame EvFrame.refl EvFrame.trans f hf l c

theorem evFrame_wr (c : StringSt) (o v : Nat) : c.EvFrame (c.wr o v) := EvFrame.of c _ c.cores c.ring c.evf c.tim c.outbox
theorem evFrame_setFld (c : StringSt) (o : Nat) (f : Fld) (v : Nat) : c.EvFrame (c.setFld o f v) := evFrame_wr c o _
theorem evFrame_addSat (c : StringSt) (o : Nat) (f : Fld) (k : Nat) : c.EvFrame (c.addSat o f k) := evFrame_wr c o _
theorem evFrame_addMod (c : StringSt) (o : Nat) (f : Fld) (k : Nat) : c.EvFrame (c.addMod o f k) := evFrame_wr c o _
theorem evFrame_orBit (c : StringSt) (b : Nat → Nat) (k : Nat) : c.EvFrame (c.orBit b k) := evFrame_wr c _ _
theorem evFrame_evf (c : StringSt) (e : EvfUnit) : c.EvFrame { c with evf := e } := EvFrame.of c c.regs c.cores c.ring e c.tim c.outbox
theorem evFrame_setLatch (c : StringSt) (k : Nat) (on : Bool) : c.EvFrame (c.setLatch k on) := evFrame_evf c _
theorem evFrame_tim (c : StringSt) (t : TimeUnit) : c.EvFrame { c with tim := t } := EvFrame.of c c.regs c.cores c.ring c.evf t c.outbox
theorem evFrame_setTout (c : StringSt) (i : Nat) (p : Tout) : c.EvFrame (c.setTout i p) := evFrame_tim c _
theorem evFrame_setTcap (c : StringSt) (i : Nat) (p : Tcap) : c.EvFrame (c.setTcap i p) := evFrame_tim c _
theorem evFrame_updCore (c : StringSt) (i : Nat) (f : CoreSt → CoreSt) : c.EvFrame (c.updCore i f) :=
  EvFrame.of c c.regs _ c.ring c.evf c.tim c.outbox
theorem evFrame_updFlight (c : StringSt) (r : Nat) (f : Flight → Flight) : c.EvFrame (c.updFlight r f) := by
  unfold updFlight
  split
  · exact EvFrame.of c c.regs c.cores _ c.evf c.tim c.outbox
  · exact .refl c
theorem evFrame_send (c : StringSt) (m : BMsg) : c.EvFrame (c.send m) := by
  unfold send
  split
  · exact EvFrame.of c c.regs c.cores c.ring c.evf c.tim _
  · exact .refl c

/-- A completion changes its core and the count of its phrase (R55, R81). -/
theorem evFrame_finish (c : StringSt) (i gd v : Nat) : c.EvFrame (c.finish i gd v) := by
  refine .trans ?_ (evFrame_updCore _ i _)
  refine .trans ?_ (evFrame_updCore _ i _)
  unfold countInsn
  dsimp only
  split
  · exact evFrame_updFlight _ _ _
  · exact .refl c

theorem evFrame_finishOut (c : StringSt) (i gd v : Nat) : c.EvFrame (c.finishOut i gd v) := by
  refine .trans ?_ (evFrame_finish _ i gd v)
  unfold sendOutcome
  split
  · exact evFrame_send _ _
  · exact .refl c

/-- A store that arms or disarms a pin (14_time.md R337). -/
theorem evFrame_toutStore (c : StringSt) (i v : Nat) : c.EvFrame (c.toutStore i v) := by
  have h (a b d : Nat) : c.EvFrame (((c.setFld (Reg.TIME_TOUTCFG i) F.TIME_TOUTCFG.POL a).setFld (Reg.TIME_TOUTCFG i) F.TIME_TOUTCFG.WIDTH b).setFld
      (Reg.TIME_TOUTCFG i) F.TIME_TOUTCFG.LATE d) := ((evFrame_setFld _ _ _ _).trans (evFrame_setFld _ _ _ _)).trans (evFrame_setFld _ _ _ _)
  unfold toutStore
  dsimp only
  split
  · exact ((h _ _ _).trans (evFrame_setFld _ _ _ _)).trans (evFrame_setTout _ _ _)
  · split
    · exact (h _ _ _).trans (evFrame_setFld _ _ _ _)
    · split
      · split
        · exact ((h _ _ _).trans (evFrame_setFld _ _ _ _)).trans (evFrame_setTout _ _ _)
        · exact (((h _ _ _).trans (evFrame_setFld _ _ _ _)).trans (evFrame_setFld _ _ _ _)).trans (evFrame_setTout _ _ _)
      · exact ((h _ _ _).trans (evFrame_setFld _ _ _ _)).trans (evFrame_setTout _ _ _)

/-- A capture (R338). -/
theorem evFrame_tcapCapture (c : StringSt) (j : Nat) : c.EvFrame (c.tcapCapture j) := by
  have h (s : StringSt) : s.EvFrame (if (c.tcap j).unread = true then s.setFld (Reg.TIME_TCAPCFG j) F.TIME_TCAPCFG.OVR 1 else s) := by
    split
    · exact evFrame_setFld _ _ _ _
    · exact .refl s
  unfold tcapCapture
  dsimp only
  have k := ((evFrame_addMod c (Reg.TIME_TCAPCFG j) F.TIME_TCAPCFG.CNT 1).trans (h _)).trans
    (evFrame_setTcap _ j { c.tcap j with at_ := c.time - 4 * nsT, unread := true })
  split
  · exact k
  · exact (k.trans (evFrame_wr _ _ _)).trans (evFrame_wr _ _ _)

theorem evFrame_consumerAct (c : StringSt) (k : Nat) (via : List Nat) : c.EvFrame (c.consumerAct k via).1 := by
  unfold consumerAct
  split
  · exact .refl c
  split
  · exact (evFrame_wr _ _ _).trans (evFrame_setLatch _ _ _)
  split
  · exact (evFrame_wr _ _ _).trans (evFrame_setLatch _ _ _)
  split
  · exact evFrame_wr _ _ _
  split
  · exact evFrame_evf _ _
  split
  · exact (evFrame_toutStore _ _ _).trans (evFrame_setLatch _ _ _)
  split
  · exact evFrame_tcapCapture _ _
  split
  · split
    · exact evFrame_evf _ _
    · exact evFrame_setLatch _ _ _
  · exact .refl c

theorem evFrame_consume (c : StringSt) (k : Nat) (cs : List Nat) (coinc : Bool) (via : List Nat) : c.EvFrame (c.consume k cs coinc via).1 := by
  have h0 : c.EvFrame (if coinc then c.orBit Reg.EVF_KCOINC k else c) := by
    split
    · exact evFrame_orBit _ _ _
    · exact .refl c
  unfold consume
  refine h0.trans ?_
  generalize (if coinc = true then c.orBit Reg.EVF_KCOINC k else c) = s
  dsimp only
  have h1 : s.EvFrame ((s.orBit Reg.EVF_KOVR k).addSat Reg.EVF_CNT F.EVF_CNT.DROP 1) := (evFrame_orBit _ _ _).trans (evFrame_addSat _ _ _ _)
  split
  · split
    · exact h1.trans (evFrame_foldl _ (fun _ _ => evFrame_setFld _ _ _ _) cs _)
    · exact h1
  · split
    · split
      · exact (evFrame_setLatch s k true).trans (evFrame_consumerAct _ _ _)
      · exact (evFrame_setLatch s k true).trans (evFrame_evf _ _)
    · exact (evFrame_setLatch s k true).trans (evFrame_consumerAct _ _ _)

theorem evFrame_wakeWaiter (c : StringSt) (i : Nat) : c.EvFrame (c.wakeWaiter i) := by
  unfold wakeWaiter
  split
  · split
    · dsimp only
      split
      · exact (evFrame_finishOut _ _ _ _).trans (evFrame_setFld _ _ _ _)
      · exact evFrame_finishOut _ _ _ _
    · exact .refl c
  · exact .refl c

theorem evFrame_activate (c : StringSt) (cs dup via : List Nat) : c.EvFrame (c.activate cs dup via).1 := by
  have key (s : StringSt) : s.EvFrame ((List.range 92).foldl (fun (p : StringSt × List (Nat × List Nat)) k =>
      let reach := cs.filter fun c => s.joins c k
      if reach.isEmpty then p
      else
        let r := p.1.consume k reach (decide (2 ≤ reach.length) || reach.any dup.contains) via
        (r.1, p.2 ++ r.2)) (s, [])).1 :=
    foldl_keeps (fun (a b : StringSt × List (Nat × List Nat)) => a.1.EvFrame b.1) (fun p => .refl p.1) (fun h k => h.trans k) _ (fun p k => by
      dsimp only
      split
      · exact .refl p.1
      · exact evFrame_consume _ _ _ _ _) (List.range 92) (s, [])
  exact ((evFrame_foldl (fun s n => (s.setFld (Reg.EVF_CH n) F.EVF_CH.SEEN 1).addSat (Reg.EVF_CH n) F.EVF_CH.COUNT 1)
    (fun _ _ => (evFrame_setFld _ _ _ _).trans (evFrame_addSat _ _ _ _)) cs c).trans
      (evFrame_foldl wakeWaiter evFrame_wakeWaiter (List.range 4) _)).trans (key _)

theorem evFrame_gate (c : StringSt) (n : Nat) : c.EvFrame (c.gate n) := (evFrame_addSat _ _ _ _).trans (evFrame_setFld _ _ _ _)

theorem evFrame_produce (c : StringSt) (ps via : List Nat) : c.EvFrame (c.produce ps via).1 := by
  unfold produce
  exact (evFrame_foldl gate evFrame_gate _ c).trans (evFrame_activate _ _ _ _)

theorem evFrame_settleEvents : ∀ (n : Nat) (q : StringSt × List (Nat × List Nat)), q.1.EvFrame (settleEvents n q)
  | 0, q => .refl q.1
  | _ + 1, (s, []) => .refl s
  | n + 1, (s, (p, via) :: q) => (evFrame_produce s [p] via).trans (evFrame_settleEvents n (_, q ++ (s.produce [p] via).2))

theorem evFrame_endCaptures (c : StringSt) : c.EvFrame c.endCaptures := by
  unfold endCaptures
  exact (evFrame_setLatch _ _ _).trans (evFrame_setLatch _ _ _)

/-- What producers that fire may change (15_events_mailboxes.md R343 to R350). -/
theorem evFrame_fireAll (c : StringSt) (ps : List Nat) : c.EvFrame (c.fireAll ps) := by
  unfold fireAll
  split
  · exact .refl c
  · exact ((evFrame_produce _ _ _).trans (evFrame_settleEvents _ _)).trans (evFrame_endCaptures _)

theorem evFrame_fire (c : StringSt) (p : Nat) : c.EvFrame (c.fire p) := evFrame_fireAll c [p]

/-- What a software fire may change (R347). -/
theorem evFrame_softFire (c : StringSt) (n : Nat) : c.EvFrame (c.softFire n).1 := by
  unfold softFire
  split
  · exact ((evFrame_activate _ _ _ _).trans (evFrame_settleEvents _ _)).trans (evFrame_endCaptures _)
  · exact evFrame_gate _ _

/-! ## The recorder -/

theorem recFrame_redAlv (c : StringSt) (m : Mem) (r : RedUnit) (a : AlvUnit) : c.RecFrame { c with sram := m, red := r, alv := a } := by
  constructor <;> rfl

/-- Samples that are dropped change the calibration's own state and CAL_DROP (11_calibration.md R266). -/
theorem recFrame_dropOpen (c : StringSt) (lost : Bool) : c.RecFrame (c.dropOpen lost) := by
  constructor <;> rfl

/-- The string reaction (16_faults.md R371). -/
theorem recFrame_fatal (c : StringSt) : c.RecFrame c.fatal := by
  unfold fatal
  have h : c.RecFrame ((c.setLine false).dropOpen (!c.joined)) := (recFrame_redAlv c c.sram _ c.alv).trans (recFrame_dropOpen _ _)
  exact (h.trans (recFrame_redAlv _ _ _ _)).trans (((evFrame_setFld _ _ _ _).trans (evFrame_setFld _ _ _ _)).trans (evFrame_wr _ _ _)).toRecFrame

/-- What one recording may change (R365). -/
theorem recFrame_record (c : StringSt) (co : Bool) (e : Nat × Nat × Bool) : c.RecFrame (c.record co e) := by
  have first (s : StringSt) (f : Fld) (o a b d g : Nat) : s.RecFrame (let s := s.setFld o f 1
      if s.flag Reg.ALV_FIRSTFAULT F.ALV_FIRSTFAULT.VALID then s
      else (((s.wr Reg.ALV_FIRSTFAULT a).wr Reg.ALV_FIRSTINFO b).wr Reg.ALV_FIRSTNS d).wr Reg.ALV_FIRSTSL g) := by
    dsimp only
    refine (evFrame_setFld s o f 1).toRecFrame.trans ?_
    split
    · exact .refl _
    · exact ((((evFrame_wr _ _ _).trans (evFrame_wr _ _ _)).trans (evFrame_wr _ _ _)).trans (evFrame_wr _ _ _)).toRecFrame
  have wrap : c.RecFrame (if 256 ≤ c.alv.total then c.addSat Reg.ALV_LOG F.ALV_LOG.WRAP 1 else c) := by
    split
    · exact (evFrame_addSat _ _ _ _).toRecFrame
    · exact .refl c
  have last (s : StringSt) (sev : Nat) (p : Prop) [Decidable p] : s.RecFrame (if p then (s.fire sev).fatal else s.fire sev) := by
    split
    · exact (evFrame_fire _ _).toRecFrame.trans (recFrame_fatal _)
    · exact (evFrame_fire _ _).toRecFrame
  unfold record
  dsimp only
  refine .trans ?_ (last _ _ _)
  refine .trans ?_ (first _ _ _ _ _ _ _)
  refine wrap.trans ?_
  generalize (if 256 ≤ c.alv.total then c.addSat Reg.ALV_LOG F.ALV_LOG.WRAP 1 else c) = s
  have h1 (a : Nat) (l : List Nat) : s.RecFrame (s.setWords a l) := recFrame_redAlv s _ s.red s.alv
  exact ((h1 _ _).trans (evFrame_setFld _ _ _ _).toRecFrame).trans (recFrame_redAlv _ _ _ _)

/-- What occurrences may change (R365, R366). -/
theorem recFrame_occurs (c : StringSt) (l : List (Nat × Nat × Bool)) : c.RecFrame (c.occurs l) := by
  unfold occurs
  dsimp only
  refine .trans (evFrame_foldl (fun (s : StringSt) (e : Nat × Nat × Bool) => s.addSat (Reg.ALV_SRC e.1) F.ALV_SRC.COUNT 1) (fun _ _ => evFrame_addSat _ _ _ _) (l.filter fun e => (severity e.1).isSome) c).toRecFrame ?_
  exact foldl_keeps RecFrame RecFrame.refl RecFrame.trans _ (fun _ _ => recFrame_record _ _ _) _ _

theorem recFrame_occur (c : StringSt) (src info : Nat) : c.RecFrame (c.occur src info) := recFrame_occurs _ _
theorem recFrame_occurLive (c : StringSt) (src info : Nat) : c.RecFrame (c.occurLive src info) :=
  (evFrame_setFld _ _ _ _).toRecFrame.trans (recFrame_occurs _ _)

end StringSt
end Sys2Proof.Machine
end

