-- ==== Sys2Proof/Laws/State.lean ====
section
/-! SUPPORT. What each update of the state leaves of every field, so that no proof unfolds a record update. -/

namespace Sys2Proof.Machine

/-! ## The module -/

@[simp] theorem State.str_setStr (s : State) (x : Str) (c : StringSt) : (s.setStr x c).str x = c := by cases x <;> rfl
@[simp] theorem State.str_setStr_other (s : State) (x : Str) (c : StringSt) : (s.setStr x c).str x.other = s.str x.other := by
  cases x <;> rfl
@[simp] theorem State.str_updStr (s : State) (x : Str) (f : StringSt → StringSt) : (s.updStr x f).str x = f (s.str x) := by
  cases x <;> rfl
@[simp] theorem State.str_updStr_other (s : State) (x : Str) (f : StringSt → StringSt) :
    (s.updStr x f).str x.other = s.str x.other := by cases x <;> rfl
@[simp] theorem State.setStr_str (s : State) (x : Str) : s.setStr x (s.str x) = s := by cases x <;> rfl
@[simp] theorem State.setStr_setStr (s : State) (x : Str) (c d : StringSt) : (s.setStr x c).setStr x d = s.setStr x d := by
  cases x <;> rfl
/-- Two changes of one string are one. -/
@[simp] theorem State.updStr_updStr (s : State) (x : Str) (f g : StringSt → StringSt) :
    (s.updStr x f).updStr x g = s.updStr x fun c => g (f c) := by cases x <;> rfl
/-- A change of a string matters only at what it is. -/
theorem State.updStr_congr (s : State) (x : Str) (f g : StringSt → StringSt) (h : f (s.str x) = g (s.str x)) :
    s.updStr x f = s.updStr x g := by simp [State.updStr, h]
@[simp] theorem State.str_setTile (s : State) (n : Nat) (d : TileSt) (x : Str) : (s.setTile n d).str x = s.str x := by
  cases x <;> rfl
@[simp] theorem State.str_updTile (s : State) (n : Nat) (f : TileSt → TileSt) (x : Str) : (s.updTile n f).str x = s.str x := by
  cases x <;> rfl
@[simp] theorem State.tile_setStr (s : State) (x : Str) (c : StringSt) (n : Nat) : (s.setStr x c).tile n = s.tile n := by
  cases x <;> rfl
@[simp] theorem State.tile_updStr (s : State) (x : Str) (f : StringSt → StringSt) (n : Nat) : (s.updStr x f).tile n = s.tile n := by
  cases x <;> rfl
@[simp] theorem State.setStr_now (s : State) (x : Str) (c : StringSt) : (s.setStr x c).now = s.now := by cases x <;> rfl
@[simp] theorem State.setStr_tiles (s : State) (x : Str) (c : StringSt) : (s.setStr x c).tiles = s.tiles := by cases x <;> rfl
@[simp] theorem State.setStr_stage (s : State) (x : Str) (c : StringSt) : (s.setStr x c).stage = s.stage := by cases x <;> rfl
@[simp] theorem State.setStr_capoForceN (s : State) (x : Str) (c : StringSt) : (s.setStr x c).capoForceN = s.capoForceN := by cases x <;> rfl
@[simp] theorem State.setStr_evtIn (s : State) (x : Str) (c : StringSt) : (s.setStr x c).evtIn = s.evtIn := by cases x <;> rfl
@[simp] theorem State.setStr_hostMem (s : State) (x : Str) (c : StringSt) : (s.setStr x c).hostMem = s.hostMem := by cases x <;> rfl
@[simp] theorem State.setStr_pending (s : State) (x : Str) (c : StringSt) : (s.setStr x c).pending = s.pending := by cases x <;> rfl
@[simp] theorem State.updStr_now (s : State) (x : Str) (f : StringSt → StringSt) : (s.updStr x f).now = s.now := by cases x <;> rfl
@[simp] theorem State.updStr_tiles (s : State) (x : Str) (f : StringSt → StringSt) : (s.updStr x f).tiles = s.tiles := by cases x <;> rfl
@[simp] theorem State.updStr_stage (s : State) (x : Str) (f : StringSt → StringSt) : (s.updStr x f).stage = s.stage := by cases x <;> rfl
@[simp] theorem State.updStr_capoForceN (s : State) (x : Str) (f : StringSt → StringSt) : (s.updStr x f).capoForceN = s.capoForceN := by cases x <;> rfl
@[simp] theorem State.updStr_evtIn (s : State) (x : Str) (f : StringSt → StringSt) : (s.updStr x f).evtIn = s.evtIn := by cases x <;> rfl
@[simp] theorem State.updStr_hostMem (s : State) (x : Str) (f : StringSt → StringSt) : (s.updStr x f).hostMem = s.hostMem := by cases x <;> rfl
@[simp] theorem State.updStr_pending (s : State) (x : Str) (f : StringSt → StringSt) : (s.updStr x f).pending = s.pending := by cases x <;> rfl
@[simp] theorem State.updBoth_now (s : State) (f : StringSt → StringSt) : (s.updBoth f).now = s.now := rfl
@[simp] theorem State.updBoth_tiles (s : State) (f : StringSt → StringSt) : (s.updBoth f).tiles = s.tiles := rfl
@[simp] theorem State.updBoth_stage (s : State) (f : StringSt → StringSt) : (s.updBoth f).stage = s.stage := rfl
@[simp] theorem State.updBoth_capoForceN (s : State) (f : StringSt → StringSt) : (s.updBoth f).capoForceN = s.capoForceN := rfl
@[simp] theorem State.updBoth_evtIn (s : State) (f : StringSt → StringSt) : (s.updBoth f).evtIn = s.evtIn := rfl
@[simp] theorem State.updBoth_hostMem (s : State) (f : StringSt → StringSt) : (s.updBoth f).hostMem = s.hostMem := rfl
@[simp] theorem State.updBoth_pending (s : State) (f : StringSt → StringSt) : (s.updBoth f).pending = s.pending := rfl
@[simp] theorem State.setTile_now (s : State) (n : Nat) (d : TileSt) : (s.setTile n d).now = s.now := rfl
@[simp] theorem State.setTile_a (s : State) (n : Nat) (d : TileSt) : (s.setTile n d).a = s.a := rfl
@[simp] theorem State.setTile_b (s : State) (n : Nat) (d : TileSt) : (s.setTile n d).b = s.b := rfl
@[simp] theorem State.setTile_stage (s : State) (n : Nat) (d : TileSt) : (s.setTile n d).stage = s.stage := rfl
@[simp] theorem State.setTile_capoForceN (s : State) (n : Nat) (d : TileSt) : (s.setTile n d).capoForceN = s.capoForceN := rfl
@[simp] theorem State.setTile_evtIn (s : State) (n : Nat) (d : TileSt) : (s.setTile n d).evtIn = s.evtIn := rfl
@[simp] theorem State.setTile_hostMem (s : State) (n : Nat) (d : TileSt) : (s.setTile n d).hostMem = s.hostMem := rfl
@[simp] theorem State.setTile_pending (s : State) (n : Nat) (d : TileSt) : (s.setTile n d).pending = s.pending := rfl
@[simp] theorem State.updTile_now (s : State) (n : Nat) (f : TileSt → TileSt) : (s.updTile n f).now = s.now := rfl
@[simp] theorem State.updTile_a (s : State) (n : Nat) (f : TileSt → TileSt) : (s.updTile n f).a = s.a := rfl
@[simp] theorem State.updTile_b (s : State) (n : Nat) (f : TileSt → TileSt) : (s.updTile n f).b = s.b := rfl
@[simp] theorem State.updTile_stage (s : State) (n : Nat) (f : TileSt → TileSt) : (s.updTile n f).stage = s.stage := rfl
@[simp] theorem State.updTile_capoForceN (s : State) (n : Nat) (f : TileSt → TileSt) : (s.updTile n f).capoForceN = s.capoForceN := rfl
@[simp] theorem State.updTile_evtIn (s : State) (n : Nat) (f : TileSt → TileSt) : (s.updTile n f).evtIn = s.evtIn := rfl
@[simp] theorem State.updTile_hostMem (s : State) (n : Nat) (f : TileSt → TileSt) : (s.updTile n f).hostMem = s.hostMem := rfl
@[simp] theorem State.updTile_pending (s : State) (n : Nat) (f : TileSt → TileSt) : (s.updTile n f).pending = s.pending := rfl

/-! ## A string -/

@[simp] theorem StringSt.wr_id (s : StringSt) (o v : Nat) : (s.wr o v).id = s.id := rfl
@[simp] theorem StringSt.wr_cores (s : StringSt) (o v : Nat) : (s.wr o v).cores = s.cores := rfl
@[simp] theorem StringSt.wr_sram (s : StringSt) (o v : Nat) : (s.wr o v).sram = s.sram := rfl
@[simp] theorem StringSt.wr_pegs (s : StringSt) (o v : Nat) : (s.wr o v).pegs = s.pegs := rfl
@[simp] theorem StringSt.wr_wear (s : StringSt) (o v : Nat) : (s.wr o v).wear = s.wear := rfl
@[simp] theorem StringSt.wr_flash (s : StringSt) (o v : Nat) : (s.wr o v).flash = s.flash := rfl
@[simp] theorem StringSt.wr_time (s : StringSt) (o v : Nat) : (s.wr o v).time = s.time := rfl
@[simp] theorem StringSt.wr_ring (s : StringSt) (o v : Nat) : (s.wr o v).ring = s.ring := rfl
@[simp] theorem StringSt.wr_eng (s : StringSt) (o v : Nat) : (s.wr o v).eng = s.eng := rfl
@[simp] theorem StringSt.wr_plan (s : StringSt) (o v : Nat) : (s.wr o v).plan = s.plan := rfl
@[simp] theorem StringSt.wr_rte (s : StringSt) (o v : Nat) : (s.wr o v).rte = s.rte := rfl
@[simp] theorem StringSt.wr_cal (s : StringSt) (o v : Nat) : (s.wr o v).cal = s.cal := rfl
@[simp] theorem StringSt.wr_red (s : StringSt) (o v : Nat) : (s.wr o v).red = s.red := rfl
@[simp] theorem StringSt.wr_evf (s : StringSt) (o v : Nat) : (s.wr o v).evf = s.evf := rfl
@[simp] theorem StringSt.wr_alv (s : StringSt) (o v : Nat) : (s.wr o v).alv = s.alv := rfl
@[simp] theorem StringSt.wr_tim (s : StringSt) (o v : Nat) : (s.wr o v).tim = s.tim := rfl
@[simp] theorem StringSt.wr_pwr (s : StringSt) (o v : Nat) : (s.wr o v).pwr = s.pwr := rfl
@[simp] theorem StringSt.wr_net (s : StringSt) (o v : Nat) : (s.wr o v).net = s.net := rfl
@[simp] theorem StringSt.wr_dbgReq (s : StringSt) (o v : Nat) : (s.wr o v).dbgReq = s.dbgReq := rfl
@[simp] theorem StringSt.wr_dlLen (s : StringSt) (o v : Nat) : (s.wr o v).dlLen = s.dlLen := rfl
@[simp] theorem StringSt.wr_dlPrev (s : StringSt) (o v : Nat) : (s.wr o v).dlPrev = s.dlPrev := rfl
@[simp] theorem StringSt.wr_jtag (s : StringSt) (o v : Nat) : (s.wr o v).jtag = s.jtag := rfl
@[simp] theorem StringSt.wr_outbox (s : StringSt) (o v : Nat) : (s.wr o v).outbox = s.outbox := rfl
@[simp] theorem StringSt.wr_toTile (s : StringSt) (o v : Nat) : (s.wr o v).toTile = s.toTile := rfl
@[simp] theorem StringSt.wr_free (s : StringSt) (o v : Nat) : (s.wr o v).free = s.free := rfl
@[simp] theorem StringSt.setFld_id (s : StringSt) (o : Nat) (f : Fld) (v : Nat) : (s.setFld o f v).id = s.id := rfl
@[simp] theorem StringSt.setFld_cores (s : StringSt) (o : Nat) (f : Fld) (v : Nat) : (s.setFld o f v).cores = s.cores := rfl
@[simp] theorem StringSt.setFld_sram (s : StringSt) (o : Nat) (f : Fld) (v : Nat) : (s.setFld o f v).sram = s.sram := rfl
@[simp] theorem StringSt.setFld_pegs (s : StringSt) (o : Nat) (f : Fld) (v : Nat) : (s.setFld o f v).pegs = s.pegs := rfl
@[simp] theorem StringSt.setFld_wear (s : StringSt) (o : Nat) (f : Fld) (v : Nat) : (s.setFld o f v).wear = s.wear := rfl
@[simp] theorem StringSt.setFld_flash (s : StringSt) (o : Nat) (f : Fld) (v : Nat) : (s.setFld o f v).flash = s.flash := rfl
@[simp] theorem StringSt.setFld_time (s : StringSt) (o : Nat) (f : Fld) (v : Nat) : (s.setFld o f v).time = s.time := rfl
@[simp] theorem StringSt.setFld_ring (s : StringSt) (o : Nat) (f : Fld) (v : Nat) : (s.setFld o f v).ring = s.ring := rfl
@[simp] theorem StringSt.setFld_eng (s : StringSt) (o : Nat) (f : Fld) (v : Nat) : (s.setFld o f v).eng = s.eng := rfl
@[simp] theorem StringSt.setFld_plan (s : StringSt) (o : Nat) (f : Fld) (v : Nat) : (s.setFld o f v).plan = s.plan := rfl
@[simp] theorem StringSt.setFld_rte (s : StringSt) (o : Nat) (f : Fld) (v : Nat) : (s.setFld o f v).rte = s.rte := rfl
@[simp] theorem StringSt.setFld_cal (s : StringSt) (o : Nat) (f : Fld) (v : Nat) : (s.setFld o f v).cal = s.cal := rfl
@[simp] theorem StringSt.setFld_red (s : StringSt) (o : Nat) (f : Fld) (v : Nat) : (s.setFld o f v).red = s.red := rfl
@[simp] theorem StringSt.setFld_evf (s : StringSt) (o : Nat) (f : Fld) (v : Nat) : (s.setFld o f v).evf = s.evf := rfl
@[simp] theorem StringSt.setFld_alv (s : StringSt) (o : Nat) (f : Fld) (v : Nat) : (s.setFld o f v).alv = s.alv := rfl
@[simp] theorem StringSt.setFld_tim (s : StringSt) (o : Nat) (f : Fld) (v : Nat) : (s.setFld o f v).tim = s.tim := rfl
@[simp] theorem StringSt.setFld_pwr (s : StringSt) (o : Nat) (f : Fld) (v : Nat) : (s.setFld o f v).pwr = s.pwr := rfl
@[simp] theorem StringSt.setFld_net (s : StringSt) (o : Nat) (f : Fld) (v : Nat) : (s.setFld o f v).net = s.net := rfl
@[simp] theorem StringSt.setFld_dbgReq (s : StringSt) (o : Nat) (f : Fld) (v : Nat) : (s.setFld o f v).dbgReq = s.dbgReq := rfl
@[simp] theorem StringSt.setFld_dlLen (s : StringSt) (o : Nat) (f : Fld) (v : Nat) : (s.setFld o f v).dlLen = s.dlLen := rfl
@[simp] theorem StringSt.setFld_dlPrev (s : StringSt) (o : Nat) (f : Fld) (v : Nat) : (s.setFld o f v).dlPrev = s.dlPrev := rfl
@[simp] theorem StringSt.setFld_jtag (s : StringSt) (o : Nat) (f : Fld) (v : Nat) : (s.setFld o f v).jtag = s.jtag := rfl
@[simp] theorem StringSt.setFld_outbox (s : StringSt) (o : Nat) (f : Fld) (v : Nat) : (s.setFld o f v).outbox = s.outbox := rfl
@[simp] theorem StringSt.setFld_toTile (s : StringSt) (o : Nat) (f : Fld) (v : Nat) : (s.setFld o f v).toTile = s.toTile := rfl
@[simp] theorem StringSt.setFld_free (s : StringSt) (o : Nat) (f : Fld) (v : Nat) : (s.setFld o f v).free = s.free := rfl
@[simp] theorem StringSt.setCore_id (s : StringSt) (i : Nat) (c : CoreSt) : (s.setCore i c).id = s.id := rfl
@[simp] theorem StringSt.setCore_regs (s : StringSt) (i : Nat) (c : CoreSt) : (s.setCore i c).regs = s.regs := rfl
@[simp] theorem StringSt.setCore_sram (s : StringSt) (i : Nat) (c : CoreSt) : (s.setCore i c).sram = s.sram := rfl
@[simp] theorem StringSt.setCore_pegs (s : StringSt) (i : Nat) (c : CoreSt) : (s.setCore i c).pegs = s.pegs := rfl
@[simp] theorem StringSt.setCore_wear (s : StringSt) (i : Nat) (c : CoreSt) : (s.setCore i c).wear = s.wear := rfl
@[simp] theorem StringSt.setCore_flash (s : StringSt) (i : Nat) (c : CoreSt) : (s.setCore i c).flash = s.flash := rfl
@[simp] theorem StringSt.setCore_time (s : StringSt) (i : Nat) (c : CoreSt) : (s.setCore i c).time = s.time := rfl
@[simp] theorem StringSt.setCore_ring (s : StringSt) (i : Nat) (c : CoreSt) : (s.setCore i c).ring = s.ring := rfl
@[simp] theorem StringSt.setCore_eng (s : StringSt) (i : Nat) (c : CoreSt) : (s.setCore i c).eng = s.eng := rfl
@[simp] theorem StringSt.setCore_plan (s : StringSt) (i : Nat) (c : CoreSt) : (s.setCore i c).plan = s.plan := rfl
@[simp] theorem StringSt.setCore_rte (s : StringSt) (i : Nat) (c : CoreSt) : (s.setCore i c).rte = s.rte := rfl
@[simp] theorem StringSt.setCore_cal (s : StringSt) (i : Nat) (c : CoreSt) : (s.setCore i c).cal = s.cal := rfl
@[simp] theorem StringSt.setCore_red (s : StringSt) (i : Nat) (c : CoreSt) : (s.setCore i c).red = s.red := rfl
@[simp] theorem StringSt.setCore_evf (s : StringSt) (i : Nat) (c : CoreSt) : (s.setCore i c).evf = s.evf := rfl
@[simp] theorem StringSt.setCore_alv (s : StringSt) (i : Nat) (c : CoreSt) : (s.setCore i c).alv = s.alv := rfl
@[simp] theorem StringSt.setCore_tim (s : StringSt) (i : Nat) (c : CoreSt) : (s.setCore i c).tim = s.tim := rfl
@[simp] theorem StringSt.setCore_pwr (s : StringSt) (i : Nat) (c : CoreSt) : (s.setCore i c).pwr = s.pwr := rfl
@[simp] theorem StringSt.setCore_net (s : StringSt) (i : Nat) (c : CoreSt) : (s.setCore i c).net = s.net := rfl
@[simp] theorem StringSt.setCore_dbgReq (s : StringSt) (i : Nat) (c : CoreSt) : (s.setCore i c).dbgReq = s.dbgReq := rfl
@[simp] theorem StringSt.setCore_dlLen (s : StringSt) (i : Nat) (c : CoreSt) : (s.setCore i c).dlLen = s.dlLen := rfl
@[simp] theorem StringSt.setCore_dlPrev (s : StringSt) (i : Nat) (c : CoreSt) : (s.setCore i c).dlPrev = s.dlPrev := rfl
@[simp] theorem StringSt.setCore_jtag (s : StringSt) (i : Nat) (c : CoreSt) : (s.setCore i c).jtag = s.jtag := rfl
@[simp] theorem StringSt.setCore_outbox (s : StringSt) (i : Nat) (c : CoreSt) : (s.setCore i c).outbox = s.outbox := rfl
@[simp] theorem StringSt.setCore_toTile (s : StringSt) (i : Nat) (c : CoreSt) : (s.setCore i c).toTile = s.toTile := rfl
@[simp] theorem StringSt.setCore_free (s : StringSt) (i : Nat) (c : CoreSt) : (s.setCore i c).free = s.free := rfl
@[simp] theorem StringSt.updCore_id (s : StringSt) (i : Nat) (f : CoreSt → CoreSt) : (s.updCore i f).id = s.id := rfl
@[simp] theorem StringSt.updCore_regs (s : StringSt) (i : Nat) (f : CoreSt → CoreSt) : (s.updCore i f).regs = s.regs := rfl
@[simp] theorem StringSt.updCore_sram (s : StringSt) (i : Nat) (f : CoreSt → CoreSt) : (s.updCore i f).sram = s.sram := rfl
@[simp] theorem StringSt.updCore_pegs (s : StringSt) (i : Nat) (f : CoreSt → CoreSt) : (s.updCore i f).pegs = s.pegs := rfl
@[simp] theorem StringSt.updCore_wear (s : StringSt) (i : Nat) (f : CoreSt → CoreSt) : (s.updCore i f).wear = s.wear := rfl
@[simp] theorem StringSt.updCore_flash (s : StringSt) (i : Nat) (f : CoreSt → CoreSt) : (s.updCore i f).flash = s.flash := rfl
@[simp] theorem StringSt.updCore_time (s : StringSt) (i : Nat) (f : CoreSt → CoreSt) : (s.updCore i f).time = s.time := rfl
@[simp] theorem StringSt.updCore_ring (s : StringSt) (i : Nat) (f : CoreSt → CoreSt) : (s.updCore i f).ring = s.ring := rfl
@[simp] theorem StringSt.updCore_eng (s : StringSt) (i : Nat) (f : CoreSt → CoreSt) : (s.updCore i f).eng = s.eng := rfl
@[simp] theorem StringSt.updCore_plan (s : StringSt) (i : Nat) (f : CoreSt → CoreSt) : (s.updCore i f).plan = s.plan := rfl
@[simp] theorem StringSt.updCore_rte (s : StringSt) (i : Nat) (f : CoreSt → CoreSt) : (s.updCore i f).rte = s.rte := rfl
@[simp] theorem StringSt.updCore_cal (s : StringSt) (i : Nat) (f : CoreSt → CoreSt) : (s.updCore i f).cal = s.cal := rfl
@[simp] theorem StringSt.updCore_red (s : StringSt) (i : Nat) (f : CoreSt → CoreSt) : (s.updCore i f).red = s.red := rfl
@[simp] theorem StringSt.updCore_evf (s : StringSt) (i : Nat) (f : CoreSt → CoreSt) : (s.updCore i f).evf = s.evf := rfl
@[simp] theorem StringSt.updCore_alv (s : StringSt) (i : Nat) (f : CoreSt → CoreSt) : (s.updCore i f).alv = s.alv := rfl
@[simp] theorem StringSt.updCore_tim (s : StringSt) (i : Nat) (f : CoreSt → CoreSt) : (s.updCore i f).tim = s.tim := rfl
@[simp] theorem StringSt.updCore_pwr (s : StringSt) (i : Nat) (f : CoreSt → CoreSt) : (s.updCore i f).pwr = s.pwr := rfl
@[simp] theorem StringSt.updCore_net (s : StringSt) (i : Nat) (f : CoreSt → CoreSt) : (s.updCore i f).net = s.net := rfl
@[simp] theorem StringSt.updCore_dbgReq (s : StringSt) (i : Nat) (f : CoreSt → CoreSt) : (s.updCore i f).dbgReq = s.dbgReq := rfl
@[simp] theorem StringSt.updCore_dlLen (s : StringSt) (i : Nat) (f : CoreSt → CoreSt) : (s.updCore i f).dlLen = s.dlLen := rfl
@[simp] theorem StringSt.updCore_dlPrev (s : StringSt) (i : Nat) (f : CoreSt → CoreSt) : (s.updCore i f).dlPrev = s.dlPrev := rfl
@[simp] theorem StringSt.updCore_jtag (s : StringSt) (i : Nat) (f : CoreSt → CoreSt) : (s.updCore i f).jtag = s.jtag := rfl
@[simp] theorem StringSt.updCore_outbox (s : StringSt) (i : Nat) (f : CoreSt → CoreSt) : (s.updCore i f).outbox = s.outbox := rfl
@[simp] theorem StringSt.updCore_toTile (s : StringSt) (i : Nat) (f : CoreSt → CoreSt) : (s.updCore i f).toTile = s.toTile := rfl
@[simp] theorem StringSt.updCore_free (s : StringSt) (i : Nat) (f : CoreSt → CoreSt) : (s.updCore i f).free = s.free := rfl
@[simp] theorem StringSt.setFlight_id (s : StringSt) (n : Nat) (f : Option Flight) : (s.setFlight n f).id = s.id := rfl
@[simp] theorem StringSt.setFlight_regs (s : StringSt) (n : Nat) (f : Option Flight) : (s.setFlight n f).regs = s.regs := rfl
@[simp] theorem StringSt.setFlight_cores (s : StringSt) (n : Nat) (f : Option Flight) : (s.setFlight n f).cores = s.cores := rfl
@[simp] theorem StringSt.setFlight_sram (s : StringSt) (n : Nat) (f : Option Flight) : (s.setFlight n f).sram = s.sram := rfl
@[simp] theorem StringSt.setFlight_pegs (s : StringSt) (n : Nat) (f : Option Flight) : (s.setFlight n f).pegs = s.pegs := rfl
@[simp] theorem StringSt.setFlight_wear (s : StringSt) (n : Nat) (f : Option Flight) : (s.setFlight n f).wear = s.wear := rfl
@[simp] theorem StringSt.setFlight_flash (s : StringSt) (n : Nat) (f : Option Flight) : (s.setFlight n f).flash = s.flash := rfl
@[simp] theorem StringSt.setFlight_time (s : StringSt) (n : Nat) (f : Option Flight) : (s.setFlight n f).time = s.time := rfl
@[simp] theorem StringSt.setFlight_eng (s : StringSt) (n : Nat) (f : Option Flight) : (s.setFlight n f).eng = s.eng := rfl
@[simp] theorem StringSt.setFlight_plan (s : StringSt) (n : Nat) (f : Option Flight) : (s.setFlight n f).plan = s.plan := rfl
@[simp] theorem StringSt.setFlight_rte (s : StringSt) (n : Nat) (f : Option Flight) : (s.setFlight n f).rte = s.rte := rfl
@[simp] theorem StringSt.setFlight_cal (s : StringSt) (n : Nat) (f : Option Flight) : (s.setFlight n f).cal = s.cal := rfl
@[simp] theorem StringSt.setFlight_red (s : StringSt) (n : Nat) (f : Option Flight) : (s.setFlight n f).red = s.red := rfl
@[simp] theorem StringSt.setFlight_evf (s : StringSt) (n : Nat) (f : Option Flight) : (s.setFlight n f).evf = s.evf := rfl
@[simp] theorem StringSt.setFlight_alv (s : StringSt) (n : Nat) (f : Option Flight) : (s.setFlight n f).alv = s.alv := rfl
@[simp] theorem StringSt.setFlight_tim (s : StringSt) (n : Nat) (f : Option Flight) : (s.setFlight n f).tim = s.tim := rfl
@[simp] theorem StringSt.setFlight_pwr (s : StringSt) (n : Nat) (f : Option Flight) : (s.setFlight n f).pwr = s.pwr := rfl
@[simp] theorem StringSt.setFlight_net (s : StringSt) (n : Nat) (f : Option Flight) : (s.setFlight n f).net = s.net := rfl
@[simp] theorem StringSt.setFlight_dbgReq (s : StringSt) (n : Nat) (f : Option Flight) : (s.setFlight n f).dbgReq = s.dbgReq := rfl
@[simp] theorem StringSt.setFlight_dlLen (s : StringSt) (n : Nat) (f : Option Flight) : (s.setFlight n f).dlLen = s.dlLen := rfl
@[simp] theorem StringSt.setFlight_dlPrev (s : StringSt) (n : Nat) (f : Option Flight) : (s.setFlight n f).dlPrev = s.dlPrev := rfl
@[simp] theorem StringSt.setFlight_jtag (s : StringSt) (n : Nat) (f : Option Flight) : (s.setFlight n f).jtag = s.jtag := rfl
@[simp] theorem StringSt.setFlight_outbox (s : StringSt) (n : Nat) (f : Option Flight) : (s.setFlight n f).outbox = s.outbox := rfl
@[simp] theorem StringSt.setFlight_toTile (s : StringSt) (n : Nat) (f : Option Flight) : (s.setFlight n f).toTile = s.toTile := rfl
@[simp] theorem StringSt.setFlight_free (s : StringSt) (n : Nat) (f : Option Flight) : (s.setFlight n f).free = s.free := rfl
@[simp] theorem StringSt.setWord_id (s : StringSt) (a v : Nat) : (s.setWord a v).id = s.id := rfl
@[simp] theorem StringSt.setWord_regs (s : StringSt) (a v : Nat) : (s.setWord a v).regs = s.regs := rfl
@[simp] theorem StringSt.setWord_cores (s : StringSt) (a v : Nat) : (s.setWord a v).cores = s.cores := rfl
@[simp] theorem StringSt.setWord_pegs (s : StringSt) (a v : Nat) : (s.setWord a v).pegs = s.pegs := rfl
@[simp] theorem StringSt.setWord_wear (s : StringSt) (a v : Nat) : (s.setWord a v).wear = s.wear := rfl
@[simp] theorem StringSt.setWord_flash (s : StringSt) (a v : Nat) : (s.setWord a v).flash = s.flash := rfl
@[simp] theorem StringSt.setWord_time (s : StringSt) (a v : Nat) : (s.setWord a v).time = s.time := rfl
@[simp] theorem StringSt.setWord_ring (s : StringSt) (a v : Nat) : (s.setWord a v).ring = s.ring := rfl
@[simp] theorem StringSt.setWord_eng (s : StringSt) (a v : Nat) : (s.setWord a v).eng = s.eng := rfl
@[simp] theorem StringSt.setWord_plan (s : StringSt) (a v : Nat) : (s.setWord a v).plan = s.plan := rfl
@[simp] theorem StringSt.setWord_rte (s : StringSt) (a v : Nat) : (s.setWord a v).rte = s.rte := rfl
@[simp] theorem StringSt.setWord_cal (s : StringSt) (a v : Nat) : (s.setWord a v).cal = s.cal := rfl
@[simp] theorem StringSt.setWord_red (s : StringSt) (a v : Nat) : (s.setWord a v).red = s.red := rfl
@[simp] theorem StringSt.setWord_evf (s : StringSt) (a v : Nat) : (s.setWord a v).evf = s.evf := rfl
@[simp] theorem StringSt.setWord_alv (s : StringSt) (a v : Nat) : (s.setWord a v).alv = s.alv := rfl
@[simp] theorem StringSt.setWord_tim (s : StringSt) (a v : Nat) : (s.setWord a v).tim = s.tim := rfl
@[simp] theorem StringSt.setWord_pwr (s : StringSt) (a v : Nat) : (s.setWord a v).pwr = s.pwr := rfl
@[simp] theorem StringSt.setWord_net (s : StringSt) (a v : Nat) : (s.setWord a v).net = s.net := rfl
@[simp] theorem StringSt.setWord_dbgReq (s : StringSt) (a v : Nat) : (s.setWord a v).dbgReq = s.dbgReq := rfl
@[simp] theorem StringSt.setWord_dlLen (s : StringSt) (a v : Nat) : (s.setWord a v).dlLen = s.dlLen := rfl
@[simp] theorem StringSt.setWord_dlPrev (s : StringSt) (a v : Nat) : (s.setWord a v).dlPrev = s.dlPrev := rfl
@[simp] theorem StringSt.setWord_jtag (s : StringSt) (a v : Nat) : (s.setWord a v).jtag = s.jtag := rfl
@[simp] theorem StringSt.setWord_outbox (s : StringSt) (a v : Nat) : (s.setWord a v).outbox = s.outbox := rfl
@[simp] theorem StringSt.setWord_toTile (s : StringSt) (a v : Nat) : (s.setWord a v).toTile = s.toTile := rfl
@[simp] theorem StringSt.setWord_free (s : StringSt) (a v : Nat) : (s.setWord a v).free = s.free := rfl
@[simp] theorem StringSt.setWords_id (s : StringSt) (a : Nat) (l : List Nat) : (s.setWords a l).id = s.id := rfl
@[simp] theorem StringSt.setWords_regs (s : StringSt) (a : Nat) (l : List Nat) : (s.setWords a l).regs = s.regs := rfl
@[simp] theorem StringSt.setWords_cores (s : StringSt) (a : Nat) (l : List Nat) : (s.setWords a l).cores = s.cores := rfl
@[simp] theorem StringSt.setWords_pegs (s : StringSt) (a : Nat) (l : List Nat) : (s.setWords a l).pegs = s.pegs := rfl
@[simp] theorem StringSt.setWords_wear (s : StringSt) (a : Nat) (l : List Nat) : (s.setWords a l).wear = s.wear := rfl
@[simp] theorem StringSt.setWords_flash (s : StringSt) (a : Nat) (l : List Nat) : (s.setWords a l).flash = s.flash := rfl
@[simp] theorem StringSt.setWords_time (s : StringSt) (a : Nat) (l : List Nat) : (s.setWords a l).time = s.time := rfl
@[simp] theorem StringSt.setWords_ring (s : StringSt) (a : Nat) (l : List Nat) : (s.setWords a l).ring = s.ring := rfl
@[simp] theorem StringSt.setWords_eng (s : StringSt) (a : Nat) (l : List Nat) : (s.setWords a l).eng = s.eng := rfl
@[simp] theorem StringSt.setWords_plan (s : StringSt) (a : Nat) (l : List Nat) : (s.setWords a l).plan = s.plan := rfl
@[simp] theorem StringSt.setWords_rte (s : StringSt) (a : Nat) (l : List Nat) : (s.setWords a l).rte = s.rte := rfl
@[simp] theorem StringSt.setWords_cal (s : StringSt) (a : Nat) (l : List Nat) : (s.setWords a l).cal = s.cal := rfl
@[simp] theorem StringSt.setWords_red (s : StringSt) (a : Nat) (l : List Nat) : (s.setWords a l).red = s.red := rfl
@[simp] theorem StringSt.setWords_evf (s : StringSt) (a : Nat) (l : List Nat) : (s.setWords a l).evf = s.evf := rfl
@[simp] theorem StringSt.setWords_alv (s : StringSt) (a : Nat) (l : List Nat) : (s.setWords a l).alv = s.alv := rfl
@[simp] theorem StringSt.setWords_tim (s : StringSt) (a : Nat) (l : List Nat) : (s.setWords a l).tim = s.tim := rfl
@[simp] theorem StringSt.setWords_pwr (s : StringSt) (a : Nat) (l : List Nat) : (s.setWords a l).pwr = s.pwr := rfl
@[simp] theorem StringSt.setWords_net (s : StringSt) (a : Nat) (l : List Nat) : (s.setWords a l).net = s.net := rfl
@[simp] theorem StringSt.setWords_dbgReq (s : StringSt) (a : Nat) (l : List Nat) : (s.setWords a l).dbgReq = s.dbgReq := rfl
@[simp] theorem StringSt.setWords_dlLen (s : StringSt) (a : Nat) (l : List Nat) : (s.setWords a l).dlLen = s.dlLen := rfl
@[simp] theorem StringSt.setWords_dlPrev (s : StringSt) (a : Nat) (l : List Nat) : (s.setWords a l).dlPrev = s.dlPrev := rfl
@[simp] theorem StringSt.setWords_jtag (s : StringSt) (a : Nat) (l : List Nat) : (s.setWords a l).jtag = s.jtag := rfl
@[simp] theorem StringSt.setWords_outbox (s : StringSt) (a : Nat) (l : List Nat) : (s.setWords a l).outbox = s.outbox := rfl
@[simp] theorem StringSt.setWords_toTile (s : StringSt) (a : Nat) (l : List Nat) : (s.setWords a l).toTile = s.toTile := rfl
@[simp] theorem StringSt.setWords_free (s : StringSt) (a : Nat) (l : List Nat) : (s.setWords a l).free = s.free := rfl
@[simp] theorem StringSt.setBytes_id (s : StringSt) (a : Nat) (l : List Byte) : (s.setBytes a l).id = s.id := rfl
@[simp] theorem StringSt.setBytes_regs (s : StringSt) (a : Nat) (l : List Byte) : (s.setBytes a l).regs = s.regs := rfl
@[simp] theorem StringSt.setBytes_cores (s : StringSt) (a : Nat) (l : List Byte) : (s.setBytes a l).cores = s.cores := rfl
@[simp] theorem StringSt.setBytes_pegs (s : StringSt) (a : Nat) (l : List Byte) : (s.setBytes a l).pegs = s.pegs := rfl
@[simp] theorem StringSt.setBytes_wear (s : StringSt) (a : Nat) (l : List Byte) : (s.setBytes a l).wear = s.wear := rfl
@[simp] theorem StringSt.setBytes_flash (s : StringSt) (a : Nat) (l : List Byte) : (s.setBytes a l).flash = s.flash := rfl
@[simp] theorem StringSt.setBytes_time (s : StringSt) (a : Nat) (l : List Byte) : (s.setBytes a l).time = s.time := rfl
@[simp] theorem StringSt.setBytes_ring (s : StringSt) (a : Nat) (l : List Byte) : (s.setBytes a l).ring = s.ring := rfl
@[simp] theorem StringSt.setBytes_eng (s : StringSt) (a : Nat) (l : List Byte) : (s.setBytes a l).eng = s.eng := rfl
@[simp] theorem StringSt.setBytes_plan (s : StringSt) (a : Nat) (l : List Byte) : (s.setBytes a l).plan = s.plan := rfl
@[simp] theorem StringSt.setBytes_rte (s : StringSt) (a : Nat) (l : List Byte) : (s.setBytes a l).rte = s.rte := rfl
@[simp] theorem StringSt.setBytes_cal (s : StringSt) (a : Nat) (l : List Byte) : (s.setBytes a l).cal = s.cal := rfl
@[simp] theorem StringSt.setBytes_red (s : StringSt) (a : Nat) (l : List Byte) : (s.setBytes a l).red = s.red := rfl
@[simp] theorem StringSt.setBytes_evf (s : StringSt) (a : Nat) (l : List Byte) : (s.setBytes a l).evf = s.evf := rfl
@[simp] theorem StringSt.setBytes_alv (s : StringSt) (a : Nat) (l : List Byte) : (s.setBytes a l).alv = s.alv := rfl
@[simp] theorem StringSt.setBytes_tim (s : StringSt) (a : Nat) (l : List Byte) : (s.setBytes a l).tim = s.tim := rfl
@[simp] theorem StringSt.setBytes_pwr (s : StringSt) (a : Nat) (l : List Byte) : (s.setBytes a l).pwr = s.pwr := rfl
@[simp] theorem StringSt.setBytes_net (s : StringSt) (a : Nat) (l : List Byte) : (s.setBytes a l).net = s.net := rfl
@[simp] theorem StringSt.setBytes_dbgReq (s : StringSt) (a : Nat) (l : List Byte) : (s.setBytes a l).dbgReq = s.dbgReq := rfl
@[simp] theorem StringSt.setBytes_dlLen (s : StringSt) (a : Nat) (l : List Byte) : (s.setBytes a l).dlLen = s.dlLen := rfl
@[simp] theorem StringSt.setBytes_dlPrev (s : StringSt) (a : Nat) (l : List Byte) : (s.setBytes a l).dlPrev = s.dlPrev := rfl
@[simp] theorem StringSt.setBytes_jtag (s : StringSt) (a : Nat) (l : List Byte) : (s.setBytes a l).jtag = s.jtag := rfl
@[simp] theorem StringSt.setBytes_outbox (s : StringSt) (a : Nat) (l : List Byte) : (s.setBytes a l).outbox = s.outbox := rfl
@[simp] theorem StringSt.setBytes_toTile (s : StringSt) (a : Nat) (l : List Byte) : (s.setBytes a l).toTile = s.toTile := rfl
@[simp] theorem StringSt.setBytes_free (s : StringSt) (a : Nat) (l : List Byte) : (s.setBytes a l).free = s.free := rfl
@[simp] theorem StringSt.sendTile_id (s : StringSt) (n : Nat) (m : TMsg) : (s.sendTile n m).id = s.id := rfl
@[simp] theorem StringSt.sendTile_regs (s : StringSt) (n : Nat) (m : TMsg) : (s.sendTile n m).regs = s.regs := rfl
@[simp] theorem StringSt.sendTile_cores (s : StringSt) (n : Nat) (m : TMsg) : (s.sendTile n m).cores = s.cores := rfl
@[simp] theorem StringSt.sendTile_sram (s : StringSt) (n : Nat) (m : TMsg) : (s.sendTile n m).sram = s.sram := rfl
@[simp] theorem StringSt.sendTile_pegs (s : StringSt) (n : Nat) (m : TMsg) : (s.sendTile n m).pegs = s.pegs := rfl
@[simp] theorem StringSt.sendTile_wear (s : StringSt) (n : Nat) (m : TMsg) : (s.sendTile n m).wear = s.wear := rfl
@[simp] theorem StringSt.sendTile_flash (s : StringSt) (n : Nat) (m : TMsg) : (s.sendTile n m).flash = s.flash := rfl
@[simp] theorem StringSt.sendTile_time (s : StringSt) (n : Nat) (m : TMsg) : (s.sendTile n m).time = s.time := rfl
@[simp] theorem StringSt.sendTile_ring (s : StringSt) (n : Nat) (m : TMsg) : (s.sendTile n m).ring = s.ring := rfl
@[simp] theorem StringSt.sendTile_eng (s : StringSt) (n : Nat) (m : TMsg) : (s.sendTile n m).eng = s.eng := rfl
@[simp] theorem StringSt.sendTile_plan (s : StringSt) (n : Nat) (m : TMsg) : (s.sendTile n m).plan = s.plan := rfl
@[simp] theorem StringSt.sendTile_rte (s : StringSt) (n : Nat) (m : TMsg) : (s.sendTile n m).rte = s.rte := rfl
@[simp] theorem StringSt.sendTile_cal (s : StringSt) (n : Nat) (m : TMsg) : (s.sendTile n m).cal = s.cal := rfl
@[simp] theorem StringSt.sendTile_red (s : StringSt) (n : Nat) (m : TMsg) : (s.sendTile n m).red = s.red := rfl
@[simp] theorem StringSt.sendTile_evf (s : StringSt) (n : Nat) (m : TMsg) : (s.sendTile n m).evf = s.evf := rfl
@[simp] theorem StringSt.sendTile_alv (s : StringSt) (n : Nat) (m : TMsg) : (s.sendTile n m).alv = s.alv := rfl
@[simp] theorem StringSt.sendTile_tim (s : StringSt) (n : Nat) (m : TMsg) : (s.sendTile n m).tim = s.tim := rfl
@[simp] theorem StringSt.sendTile_pwr (s : StringSt) (n : Nat) (m : TMsg) : (s.sendTile n m).pwr = s.pwr := rfl
@[simp] theorem StringSt.sendTile_net (s : StringSt) (n : Nat) (m : TMsg) : (s.sendTile n m).net = s.net := rfl
@[simp] theorem StringSt.sendTile_dbgReq (s : StringSt) (n : Nat) (m : TMsg) : (s.sendTile n m).dbgReq = s.dbgReq := rfl
@[simp] theorem StringSt.sendTile_dlLen (s : StringSt) (n : Nat) (m : TMsg) : (s.sendTile n m).dlLen = s.dlLen := rfl
@[simp] theorem StringSt.sendTile_dlPrev (s : StringSt) (n : Nat) (m : TMsg) : (s.sendTile n m).dlPrev = s.dlPrev := rfl
@[simp] theorem StringSt.sendTile_jtag (s : StringSt) (n : Nat) (m : TMsg) : (s.sendTile n m).jtag = s.jtag := rfl
@[simp] theorem StringSt.sendTile_outbox (s : StringSt) (n : Nat) (m : TMsg) : (s.sendTile n m).outbox = s.outbox := rfl
@[simp] theorem StringSt.sendTile_free (s : StringSt) (n : Nat) (m : TMsg) : (s.sendTile n m).free = s.free := rfl
@[simp] theorem StringSt.markFlag_id (s : StringSt) (i : Nat) : (s.markFlag i).id = s.id := rfl
@[simp] theorem StringSt.markFlag_regs (s : StringSt) (i : Nat) : (s.markFlag i).regs = s.regs := rfl
@[simp] theorem StringSt.markFlag_cores (s : StringSt) (i : Nat) : (s.markFlag i).cores = s.cores := rfl
@[simp] theorem StringSt.markFlag_sram (s : StringSt) (i : Nat) : (s.markFlag i).sram = s.sram := rfl
@[simp] theorem StringSt.markFlag_pegs (s : StringSt) (i : Nat) : (s.markFlag i).pegs = s.pegs := rfl
@[simp] theorem StringSt.markFlag_wear (s : StringSt) (i : Nat) : (s.markFlag i).wear = s.wear := rfl
@[simp] theorem StringSt.markFlag_flash (s : StringSt) (i : Nat) : (s.markFlag i).flash = s.flash := rfl
@[simp] theorem StringSt.markFlag_time (s : StringSt) (i : Nat) : (s.markFlag i).time = s.time := rfl
@[simp] theorem StringSt.markFlag_ring (s : StringSt) (i : Nat) : (s.markFlag i).ring = s.ring := rfl
@[simp] theorem StringSt.markFlag_eng (s : StringSt) (i : Nat) : (s.markFlag i).eng = s.eng := rfl
@[simp] theorem StringSt.markFlag_plan (s : StringSt) (i : Nat) : (s.markFlag i).plan = s.plan := rfl
@[simp] theorem StringSt.markFlag_rte (s : StringSt) (i : Nat) : (s.markFlag i).rte = s.rte := rfl
@[simp] theorem StringSt.markFlag_cal (s : StringSt) (i : Nat) : (s.markFlag i).cal = s.cal := rfl
@[simp] theorem StringSt.markFlag_evf (s : StringSt) (i : Nat) : (s.markFlag i).evf = s.evf := rfl
@[simp] theorem StringSt.markFlag_alv (s : StringSt) (i : Nat) : (s.markFlag i).alv = s.alv := rfl
@[simp] theorem StringSt.markFlag_tim (s : StringSt) (i : Nat) : (s.markFlag i).tim = s.tim := rfl
@[simp] theorem StringSt.markFlag_pwr (s : StringSt) (i : Nat) : (s.markFlag i).pwr = s.pwr := rfl
@[simp] theorem StringSt.markFlag_net (s : StringSt) (i : Nat) : (s.markFlag i).net = s.net := rfl
@[simp] theorem StringSt.markFlag_dbgReq (s : StringSt) (i : Nat) : (s.markFlag i).dbgReq = s.dbgReq := rfl
@[simp] theorem StringSt.markFlag_dlLen (s : StringSt) (i : Nat) : (s.markFlag i).dlLen = s.dlLen := rfl
@[simp] theorem StringSt.markFlag_dlPrev (s : StringSt) (i : Nat) : (s.markFlag i).dlPrev = s.dlPrev := rfl
@[simp] theorem StringSt.markFlag_jtag (s : StringSt) (i : Nat) : (s.markFlag i).jtag = s.jtag := rfl
@[simp] theorem StringSt.markFlag_outbox (s : StringSt) (i : Nat) : (s.markFlag i).outbox = s.outbox := rfl
@[simp] theorem StringSt.markFlag_toTile (s : StringSt) (i : Nat) : (s.markFlag i).toTile = s.toTile := rfl
@[simp] theorem StringSt.markFlag_free (s : StringSt) (i : Nat) : (s.markFlag i).free = s.free := rfl

/-! ## A tile -/

@[simp] theorem TileSt.wr_chans (d : TileSt) (o v : Nat) : (d.wr o v).chans = d.chans := rfl
@[simp] theorem TileSt.wr_mons (d : TileSt) (o v : Nat) : (d.wr o v).mons = d.mons := rfl
@[simp] theorem TileSt.wr_thmSticky (d : TileSt) (o v : Nat) : (d.wr o v).thmSticky = d.thmSticky := rfl
@[simp] theorem TileSt.wr_bufs (d : TileSt) (o v : Nat) : (d.wr o v).bufs = d.bufs := rfl
@[simp] theorem TileSt.wr_time (d : TileSt) (o v : Nat) : (d.wr o v).time = d.time := rfl
@[simp] theorem TileSt.wr_freeRun (d : TileSt) (o v : Nat) : (d.wr o v).freeRun = d.freeRun := rfl
@[simp] theorem TileSt.wr_stepAt (d : TileSt) (o v : Nat) : (d.wr o v).stepAt = d.stepAt := rfl
@[simp] theorem TileSt.wr_timeAt (d : TileSt) (o v : Nat) : (d.wr o v).timeAt = d.timeAt := rfl
@[simp] theorem TileSt.wr_rate (d : TileSt) (o v : Nat) : (d.wr o v).rate = d.rate := rfl
@[simp] theorem TileSt.wr_capoA (d : TileSt) (o v : Nat) : (d.wr o v).capoA = d.capoA := rfl
@[simp] theorem TileSt.wr_capoB (d : TileSt) (o v : Nat) : (d.wr o v).capoB = d.capoB := rfl
@[simp] theorem TileSt.wr_master (d : TileSt) (o v : Nat) : (d.wr o v).master = d.master := rfl
@[simp] theorem TileSt.wr_slave (d : TileSt) (o v : Nat) : (d.wr o v).slave = d.slave := rfl
@[simp] theorem TileSt.wr_slaveAt (d : TileSt) (o v : Nat) : (d.wr o v).slaveAt = d.slaveAt := rfl
@[simp] theorem TileSt.wr_hold (d : TileSt) (o v : Nat) : (d.wr o v).hold = d.hold := rfl
@[simp] theorem TileSt.wr_missRun (d : TileSt) (o v : Nat) : (d.wr o v).missRun = d.missRun := rfl
@[simp] theorem TileSt.wr_missed (d : TileSt) (o v : Nat) : (d.wr o v).missed = d.missed := rfl
@[simp] theorem TileSt.wr_codesA (d : TileSt) (o v : Nat) : (d.wr o v).codesA = d.codesA := rfl
@[simp] theorem TileSt.wr_codesB (d : TileSt) (o v : Nat) : (d.wr o v).codesB = d.codesB := rfl
@[simp] theorem TileSt.wr_cmpFrom (d : TileSt) (o v : Nat) : (d.wr o v).cmpFrom = d.cmpFrom := rfl
@[simp] theorem TileSt.wr_cmpOff (d : TileSt) (o v : Nat) : (d.wr o v).cmpOff = d.cmpOff := rfl
@[simp] theorem TileSt.wr_mmLast (d : TileSt) (o v : Nat) : (d.wr o v).mmLast = d.mmLast := rfl
@[simp] theorem TileSt.wr_adopted (d : TileSt) (o v : Nat) : (d.wr o v).adopted = d.adopted := rfl
@[simp] theorem TileSt.wr_mirror (d : TileSt) (o v : Nat) : (d.wr o v).mirror = d.mirror := rfl
@[simp] theorem TileSt.wr_mirrored (d : TileSt) (o v : Nat) : (d.wr o v).mirrored = d.mirrored := rfl
@[simp] theorem TileSt.wr_restart (d : TileSt) (o v : Nat) : (d.wr o v).restart = d.restart := rfl
@[simp] theorem TileSt.wr_restart0 (d : TileSt) (o v : Nat) : (d.wr o v).restart0 = d.restart0 := rfl
@[simp] theorem TileSt.wr_restart1 (d : TileSt) (o v : Nat) : (d.wr o v).restart1 = d.restart1 := rfl
@[simp] theorem TileSt.wr_nul (d : TileSt) (o v : Nat) : (d.wr o v).nul = d.nul := rfl
@[simp] theorem TileSt.wr_nulOn (d : TileSt) (o v : Nat) : (d.wr o v).nulOn = d.nulOn := rfl
@[simp] theorem TileSt.wr_settle0 (d : TileSt) (o v : Nat) : (d.wr o v).settle0 = d.settle0 := rfl
@[simp] theorem TileSt.wr_settle1 (d : TileSt) (o v : Nat) : (d.wr o v).settle1 = d.settle1 := rfl
@[simp] theorem TileSt.wr_trig (d : TileSt) (o v : Nat) : (d.wr o v).trig = d.trig := rfl
@[simp] theorem TileSt.wr_calRes (d : TileSt) (o v : Nat) : (d.wr o v).calRes = d.calRes := rfl
@[simp] theorem TileSt.wr_sent (d : TileSt) (o v : Nat) : (d.wr o v).sent = d.sent := rfl
@[simp] theorem TileSt.wr_vis (d : TileSt) (o v : Nat) : (d.wr o v).vis = d.vis := rfl
@[simp] theorem TileSt.wr_power (d : TileSt) (o v : Nat) : (d.wr o v).power = d.power := rfl
@[simp] theorem TileSt.wr_pwrHold (d : TileSt) (o v : Nat) : (d.wr o v).pwrHold = d.pwrHold := rfl
@[simp] theorem TileSt.wr_throttle (d : TileSt) (o v : Nat) : (d.wr o v).throttle = d.throttle := rfl
@[simp] theorem TileSt.wr_applied (d : TileSt) (o v : Nat) : (d.wr o v).applied = d.applied := rfl
@[simp] theorem TileSt.wr_tres (d : TileSt) (o v : Nat) : (d.wr o v).tres = d.tres := rfl
@[simp] theorem TileSt.wr_tmask (d : TileSt) (o v : Nat) : (d.wr o v).tmask = d.tmask := rfl
@[simp] theorem TileSt.wr_toA (d : TileSt) (o v : Nat) : (d.wr o v).toA = d.toA := rfl
@[simp] theorem TileSt.wr_toB (d : TileSt) (o v : Nat) : (d.wr o v).toB = d.toB := rfl
@[simp] theorem TileSt.wr_free (d : TileSt) (o v : Nat) : (d.wr o v).free = d.free := rfl
@[simp] theorem TileSt.setFld_chans (d : TileSt) (o : Nat) (f : Fld) (v : Nat) : (d.setFld o f v).chans = d.chans := rfl
@[simp] theorem TileSt.setFld_mons (d : TileSt) (o : Nat) (f : Fld) (v : Nat) : (d.setFld o f v).mons = d.mons := rfl
@[simp] theorem TileSt.setFld_thmSticky (d : TileSt) (o : Nat) (f : Fld) (v : Nat) : (d.setFld o f v).thmSticky = d.thmSticky := rfl
@[simp] theorem TileSt.setFld_bufs (d : TileSt) (o : Nat) (f : Fld) (v : Nat) : (d.setFld o f v).bufs = d.bufs := rfl
@[simp] theorem TileSt.setFld_time (d : TileSt) (o : Nat) (f : Fld) (v : Nat) : (d.setFld o f v).time = d.time := rfl
@[simp] theorem TileSt.setFld_freeRun (d : TileSt) (o : Nat) (f : Fld) (v : Nat) : (d.setFld o f v).freeRun = d.freeRun := rfl
@[simp] theorem TileSt.setFld_stepAt (d : TileSt) (o : Nat) (f : Fld) (v : Nat) : (d.setFld o f v).stepAt = d.stepAt := rfl
@[simp] theorem TileSt.setFld_timeAt (d : TileSt) (o : Nat) (f : Fld) (v : Nat) : (d.setFld o f v).timeAt = d.timeAt := rfl
@[simp] theorem TileSt.setFld_rate (d : TileSt) (o : Nat) (f : Fld) (v : Nat) : (d.setFld o f v).rate = d.rate := rfl
@[simp] theorem TileSt.setFld_capoA (d : TileSt) (o : Nat) (f : Fld) (v : Nat) : (d.setFld o f v).capoA = d.capoA := rfl
@[simp] theorem TileSt.setFld_capoB (d : TileSt) (o : Nat) (f : Fld) (v : Nat) : (d.setFld o f v).capoB = d.capoB := rfl
@[simp] theorem TileSt.setFld_master (d : TileSt) (o : Nat) (f : Fld) (v : Nat) : (d.setFld o f v).master = d.master := rfl
@[simp] theorem TileSt.setFld_slave (d : TileSt) (o : Nat) (f : Fld) (v : Nat) : (d.setFld o f v).slave = d.slave := rfl
@[simp] theorem TileSt.setFld_slaveAt (d : TileSt) (o : Nat) (f : Fld) (v : Nat) : (d.setFld o f v).slaveAt = d.slaveAt := rfl
@[simp] theorem TileSt.setFld_hold (d : TileSt) (o : Nat) (f : Fld) (v : Nat) : (d.setFld o f v).hold = d.hold := rfl
@[simp] theorem TileSt.setFld_missRun (d : TileSt) (o : Nat) (f : Fld) (v : Nat) : (d.setFld o f v).missRun = d.missRun := rfl
@[simp] theorem TileSt.setFld_missed (d : TileSt) (o : Nat) (f : Fld) (v : Nat) : (d.setFld o f v).missed = d.missed := rfl
@[simp] theorem TileSt.setFld_codesA (d : TileSt) (o : Nat) (f : Fld) (v : Nat) : (d.setFld o f v).codesA = d.codesA := rfl
@[simp] theorem TileSt.setFld_codesB (d : TileSt) (o : Nat) (f : Fld) (v : Nat) : (d.setFld o f v).codesB = d.codesB := rfl
@[simp] theorem TileSt.setFld_cmpFrom (d : TileSt) (o : Nat) (f : Fld) (v : Nat) : (d.setFld o f v).cmpFrom = d.cmpFrom := rfl
@[simp] theorem TileSt.setFld_cmpOff (d : TileSt) (o : Nat) (f : Fld) (v : Nat) : (d.setFld o f v).cmpOff = d.cmpOff := rfl
@[simp] theorem TileSt.setFld_mmLast (d : TileSt) (o : Nat) (f : Fld) (v : Nat) : (d.setFld o f v).mmLast = d.mmLast := rfl
@[simp] theorem TileSt.setFld_adopted (d : TileSt) (o : Nat) (f : Fld) (v : Nat) : (d.setFld o f v).adopted = d.adopted := rfl
@[simp] theorem TileSt.setFld_mirror (d : TileSt) (o : Nat) (f : Fld) (v : Nat) : (d.setFld o f v).mirror = d.mirror := rfl
@[simp] theorem TileSt.setFld_mirrored (d : TileSt) (o : Nat) (f : Fld) (v : Nat) : (d.setFld o f v).mirrored = d.mirrored := rfl
@[simp] theorem TileSt.setFld_restart (d : TileSt) (o : Nat) (f : Fld) (v : Nat) : (d.setFld o f v).restart = d.restart := rfl
@[simp] theorem TileSt.setFld_restart0 (d : TileSt) (o : Nat) (f : Fld) (v : Nat) : (d.setFld o f v).restart0 = d.restart0 := rfl
@[simp] theorem TileSt.setFld_restart1 (d : TileSt) (o : Nat) (f : Fld) (v : Nat) : (d.setFld o f v).restart1 = d.restart1 := rfl
@[simp] theorem TileSt.setFld_nul (d : TileSt) (o : Nat) (f : Fld) (v : Nat) : (d.setFld o f v).nul = d.nul := rfl
@[simp] theorem TileSt.setFld_nulOn (d : TileSt) (o : Nat) (f : Fld) (v : Nat) : (d.setFld o f v).nulOn = d.nulOn := rfl
@[simp] theorem TileSt.setFld_settle0 (d : TileSt) (o : Nat) (f : Fld) (v : Nat) : (d.setFld o f v).settle0 = d.settle0 := rfl
@[simp] theorem TileSt.setFld_settle1 (d : TileSt) (o : Nat) (f : Fld) (v : Nat) : (d.setFld o f v).settle1 = d.settle1 := rfl
@[simp] theorem TileSt.setFld_trig (d : TileSt) (o : Nat) (f : Fld) (v : Nat) : (d.setFld o f v).trig = d.trig := rfl
@[simp] theorem TileSt.setFld_calRes (d : TileSt) (o : Nat) (f : Fld) (v : Nat) : (d.setFld o f v).calRes = d.calRes := rfl
@[simp] theorem TileSt.setFld_sent (d : TileSt) (o : Nat) (f : Fld) (v : Nat) : (d.setFld o f v).sent = d.sent := rfl
@[simp] theorem TileSt.setFld_vis (d : TileSt) (o : Nat) (f : Fld) (v : Nat) : (d.setFld o f v).vis = d.vis := rfl
@[simp] theorem TileSt.setFld_power (d : TileSt) (o : Nat) (f : Fld) (v : Nat) : (d.setFld o f v).power = d.power := rfl
@[simp] theorem TileSt.setFld_pwrHold (d : TileSt) (o : Nat) (f : Fld) (v : Nat) : (d.setFld o f v).pwrHold = d.pwrHold := rfl
@[simp] theorem TileSt.setFld_throttle (d : TileSt) (o : Nat) (f : Fld) (v : Nat) : (d.setFld o f v).throttle = d.throttle := rfl
@[simp] theorem TileSt.setFld_applied (d : TileSt) (o : Nat) (f : Fld) (v : Nat) : (d.setFld o f v).applied = d.applied := rfl
@[simp] theorem TileSt.setFld_tres (d : TileSt) (o : Nat) (f : Fld) (v : Nat) : (d.setFld o f v).tres = d.tres := rfl
@[simp] theorem TileSt.setFld_tmask (d : TileSt) (o : Nat) (f : Fld) (v : Nat) : (d.setFld o f v).tmask = d.tmask := rfl
@[simp] theorem TileSt.setFld_toA (d : TileSt) (o : Nat) (f : Fld) (v : Nat) : (d.setFld o f v).toA = d.toA := rfl
@[simp] theorem TileSt.setFld_toB (d : TileSt) (o : Nat) (f : Fld) (v : Nat) : (d.setFld o f v).toB = d.toB := rfl
@[simp] theorem TileSt.setFld_free (d : TileSt) (o : Nat) (f : Fld) (v : Nat) : (d.setFld o f v).free = d.free := rfl
@[simp] theorem TileSt.setChan_regs (d : TileSt) (a : Nat) (c : Chan) : (d.setChan a c).regs = d.regs := rfl
@[simp] theorem TileSt.setChan_mons (d : TileSt) (a : Nat) (c : Chan) : (d.setChan a c).mons = d.mons := rfl
@[simp] theorem TileSt.setChan_thmSticky (d : TileSt) (a : Nat) (c : Chan) : (d.setChan a c).thmSticky = d.thmSticky := rfl
@[simp] theorem TileSt.setChan_bufs (d : TileSt) (a : Nat) (c : Chan) : (d.setChan a c).bufs = d.bufs := rfl
@[simp] theorem TileSt.setChan_time (d : TileSt) (a : Nat) (c : Chan) : (d.setChan a c).time = d.time := rfl
@[simp] theorem TileSt.setChan_freeRun (d : TileSt) (a : Nat) (c : Chan) : (d.setChan a c).freeRun = d.freeRun := rfl
@[simp] theorem TileSt.setChan_stepAt (d : TileSt) (a : Nat) (c : Chan) : (d.setChan a c).stepAt = d.stepAt := rfl
@[simp] theorem TileSt.setChan_timeAt (d : TileSt) (a : Nat) (c : Chan) : (d.setChan a c).timeAt = d.timeAt := rfl
@[simp] theorem TileSt.setChan_rate (d : TileSt) (a : Nat) (c : Chan) : (d.setChan a c).rate = d.rate := rfl
@[simp] theorem TileSt.setChan_capoA (d : TileSt) (a : Nat) (c : Chan) : (d.setChan a c).capoA = d.capoA := rfl
@[simp] theorem TileSt.setChan_capoB (d : TileSt) (a : Nat) (c : Chan) : (d.setChan a c).capoB = d.capoB := rfl
@[simp] theorem TileSt.setChan_master (d : TileSt) (a : Nat) (c : Chan) : (d.setChan a c).master = d.master := rfl
@[simp] theorem TileSt.setChan_slave (d : TileSt) (a : Nat) (c : Chan) : (d.setChan a c).slave = d.slave := rfl
@[simp] theorem TileSt.setChan_slaveAt (d : TileSt) (a : Nat) (c : Chan) : (d.setChan a c).slaveAt = d.slaveAt := rfl
@[simp] theorem TileSt.setChan_hold (d : TileSt) (a : Nat) (c : Chan) : (d.setChan a c).hold = d.hold := rfl
@[simp] theorem TileSt.setChan_missRun (d : TileSt) (a : Nat) (c : Chan) : (d.setChan a c).missRun = d.missRun := rfl
@[simp] theorem TileSt.setChan_missed (d : TileSt) (a : Nat) (c : Chan) : (d.setChan a c).missed = d.missed := rfl
@[simp] theorem TileSt.setChan_codesA (d : TileSt) (a : Nat) (c : Chan) : (d.setChan a c).codesA = d.codesA := rfl
@[simp] theorem TileSt.setChan_codesB (d : TileSt) (a : Nat) (c : Chan) : (d.setChan a c).codesB = d.codesB := rfl
@[simp] theorem TileSt.setChan_cmpFrom (d : TileSt) (a : Nat) (c : Chan) : (d.setChan a c).cmpFrom = d.cmpFrom := rfl
@[simp] theorem TileSt.setChan_cmpOff (d : TileSt) (a : Nat) (c : Chan) : (d.setChan a c).cmpOff = d.cmpOff := rfl
@[simp] theorem TileSt.setChan_mmLast (d : TileSt) (a : Nat) (c : Chan) : (d.setChan a c).mmLast = d.mmLast := rfl
@[simp] theorem TileSt.setChan_adopted (d : TileSt) (a : Nat) (c : Chan) : (d.setChan a c).adopted = d.adopted := rfl
@[simp] theorem TileSt.setChan_mirror (d : TileSt) (a : Nat) (c : Chan) : (d.setChan a c).mirror = d.mirror := rfl
@[simp] theorem TileSt.setChan_mirrored (d : TileSt) (a : Nat) (c : Chan) : (d.setChan a c).mirrored = d.mirrored := rfl
@[simp] theorem TileSt.setChan_restart (d : TileSt) (a : Nat) (c : Chan) : (d.setChan a c).restart = d.restart := rfl
@[simp] theorem TileSt.setChan_restart0 (d : TileSt) (a : Nat) (c : Chan) : (d.setChan a c).restart0 = d.restart0 := rfl
@[simp] theorem TileSt.setChan_restart1 (d : TileSt) (a : Nat) (c : Chan) : (d.setChan a c).restart1 = d.restart1 := rfl
@[simp] theorem TileSt.setChan_nul (d : TileSt) (a : Nat) (c : Chan) : (d.setChan a c).nul = d.nul := rfl
@[simp] theorem TileSt.setChan_nulOn (d : TileSt) (a : Nat) (c : Chan) : (d.setChan a c).nulOn = d.nulOn := rfl
@[simp] theorem TileSt.setChan_settle0 (d : TileSt) (a : Nat) (c : Chan) : (d.setChan a c).settle0 = d.settle0 := rfl
@[simp] theorem TileSt.setChan_settle1 (d : TileSt) (a : Nat) (c : Chan) : (d.setChan a c).settle1 = d.settle1 := rfl
@[simp] theorem TileSt.setChan_trig (d : TileSt) (a : Nat) (c : Chan) : (d.setChan a c).trig = d.trig := rfl
@[simp] theorem TileSt.setChan_calRes (d : TileSt) (a : Nat) (c : Chan) : (d.setChan a c).calRes = d.calRes := rfl
@[simp] theorem TileSt.setChan_sent (d : TileSt) (a : Nat) (c : Chan) : (d.setChan a c).sent = d.sent := rfl
@[simp] theorem TileSt.setChan_vis (d : TileSt) (a : Nat) (c : Chan) : (d.setChan a c).vis = d.vis := rfl
@[simp] theorem TileSt.setChan_power (d : TileSt) (a : Nat) (c : Chan) : (d.setChan a c).power = d.power := rfl
@[simp] theorem TileSt.setChan_pwrHold (d : TileSt) (a : Nat) (c : Chan) : (d.setChan a c).pwrHold = d.pwrHold := rfl
@[simp] theorem TileSt.setChan_throttle (d : TileSt) (a : Nat) (c : Chan) : (d.setChan a c).throttle = d.throttle := rfl
@[simp] theorem TileSt.setChan_applied (d : TileSt) (a : Nat) (c : Chan) : (d.setChan a c).applied = d.applied := rfl
@[simp] theorem TileSt.setChan_tres (d : TileSt) (a : Nat) (c : Chan) : (d.setChan a c).tres = d.tres := rfl
@[simp] theorem TileSt.setChan_tmask (d : TileSt) (a : Nat) (c : Chan) : (d.setChan a c).tmask = d.tmask := rfl
@[simp] theorem TileSt.setChan_toA (d : TileSt) (a : Nat) (c : Chan) : (d.setChan a c).toA = d.toA := rfl
@[simp] theorem TileSt.setChan_toB (d : TileSt) (a : Nat) (c : Chan) : (d.setChan a c).toB = d.toB := rfl
@[simp] theorem TileSt.setChan_free (d : TileSt) (a : Nat) (c : Chan) : (d.setChan a c).free = d.free := rfl
@[simp] theorem TileSt.setMon_regs (d : TileSt) (m : Nat) (c : Mon) : (d.setMon m c).regs = d.regs := rfl
@[simp] theorem TileSt.setMon_chans (d : TileSt) (m : Nat) (c : Mon) : (d.setMon m c).chans = d.chans := rfl
@[simp] theorem TileSt.setMon_thmSticky (d : TileSt) (m : Nat) (c : Mon) : (d.setMon m c).thmSticky = d.thmSticky := rfl
@[simp] theorem TileSt.setMon_bufs (d : TileSt) (m : Nat) (c : Mon) : (d.setMon m c).bufs = d.bufs := rfl
@[simp] theorem TileSt.setMon_time (d : TileSt) (m : Nat) (c : Mon) : (d.setMon m c).time = d.time := rfl
@[simp] theorem TileSt.setMon_freeRun (d : TileSt) (m : Nat) (c : Mon) : (d.setMon m c).freeRun = d.freeRun := rfl
@[simp] theorem TileSt.setMon_stepAt (d : TileSt) (m : Nat) (c : Mon) : (d.setMon m c).stepAt = d.stepAt := rfl
@[simp] theorem TileSt.setMon_timeAt (d : TileSt) (m : Nat) (c : Mon) : (d.setMon m c).timeAt = d.timeAt := rfl
@[simp] theorem TileSt.setMon_rate (d : TileSt) (m : Nat) (c : Mon) : (d.setMon m c).rate = d.rate := rfl
@[simp] theorem TileSt.setMon_capoA (d : TileSt) (m : Nat) (c : Mon) : (d.setMon m c).capoA = d.capoA := rfl
@[simp] theorem TileSt.setMon_capoB (d : TileSt) (m : Nat) (c : Mon) : (d.setMon m c).capoB = d.capoB := rfl
@[simp] theorem TileSt.setMon_master (d : TileSt) (m : Nat) (c : Mon) : (d.setMon m c).master = d.master := rfl
@[simp] theorem TileSt.setMon_slave (d : TileSt) (m : Nat) (c : Mon) : (d.setMon m c).slave = d.slave := rfl
@[simp] theorem TileSt.setMon_slaveAt (d : TileSt) (m : Nat) (c : Mon) : (d.setMon m c).slaveAt = d.slaveAt := rfl
@[simp] theorem TileSt.setMon_hold (d : TileSt) (m : Nat) (c : Mon) : (d.setMon m c).hold = d.hold := rfl
@[simp] theorem TileSt.setMon_missRun (d : TileSt) (m : Nat) (c : Mon) : (d.setMon m c).missRun = d.missRun := rfl
@[simp] theorem TileSt.setMon_missed (d : TileSt) (m : Nat) (c : Mon) : (d.setMon m c).missed = d.missed := rfl
@[simp] theorem TileSt.setMon_codesA (d : TileSt) (m : Nat) (c : Mon) : (d.setMon m c).codesA = d.codesA := rfl
@[simp] theorem TileSt.setMon_codesB (d : TileSt) (m : Nat) (c : Mon) : (d.setMon m c).codesB = d.codesB := rfl
@[simp] theorem TileSt.setMon_cmpFrom (d : TileSt) (m : Nat) (c : Mon) : (d.setMon m c).cmpFrom = d.cmpFrom := rfl
@[simp] theorem TileSt.setMon_cmpOff (d : TileSt) (m : Nat) (c : Mon) : (d.setMon m c).cmpOff = d.cmpOff := rfl
@[simp] theorem TileSt.setMon_mmLast (d : TileSt) (m : Nat) (c : Mon) : (d.setMon m c).mmLast = d.mmLast := rfl
@[simp] theorem TileSt.setMon_adopted (d : TileSt) (m : Nat) (c : Mon) : (d.setMon m c).adopted = d.adopted := rfl
@[simp] theorem TileSt.setMon_mirror (d : TileSt) (m : Nat) (c : Mon) : (d.setMon m c).mirror = d.mirror := rfl
@[simp] theorem TileSt.setMon_mirrored (d : TileSt) (m : Nat) (c : Mon) : (d.setMon m c).mirrored = d.mirrored := rfl
@[simp] theorem TileSt.setMon_restart (d : TileSt) (m : Nat) (c : Mon) : (d.setMon m c).restart = d.restart := rfl
@[simp] theorem TileSt.setMon_restart0 (d : TileSt) (m : Nat) (c : Mon) : (d.setMon m c).restart0 = d.restart0 := rfl
@[simp] theorem TileSt.setMon_restart1 (d : TileSt) (m : Nat) (c : Mon) : (d.setMon m c).restart1 = d.restart1 := rfl
@[simp] theorem TileSt.setMon_nul (d : TileSt) (m : Nat) (c : Mon) : (d.setMon m c).nul = d.nul := rfl
@[simp] theorem TileSt.setMon_nulOn (d : TileSt) (m : Nat) (c : Mon) : (d.setMon m c).nulOn = d.nulOn := rfl
@[simp] theorem TileSt.setMon_settle0 (d : TileSt) (m : Nat) (c : Mon) : (d.setMon m c).settle0 = d.settle0 := rfl
@[simp] theorem TileSt.setMon_settle1 (d : TileSt) (m : Nat) (c : Mon) : (d.setMon m c).settle1 = d.settle1 := rfl
@[simp] theorem TileSt.setMon_trig (d : TileSt) (m : Nat) (c : Mon) : (d.setMon m c).trig = d.trig := rfl
@[simp] theorem TileSt.setMon_calRes (d : TileSt) (m : Nat) (c : Mon) : (d.setMon m c).calRes = d.calRes := rfl
@[simp] theorem TileSt.setMon_sent (d : TileSt) (m : Nat) (c : Mon) : (d.setMon m c).sent = d.sent := rfl
@[simp] theorem TileSt.setMon_vis (d : TileSt) (m : Nat) (c : Mon) : (d.setMon m c).vis = d.vis := rfl
@[simp] theorem TileSt.setMon_power (d : TileSt) (m : Nat) (c : Mon) : (d.setMon m c).power = d.power := rfl
@[simp] theorem TileSt.setMon_pwrHold (d : TileSt) (m : Nat) (c : Mon) : (d.setMon m c).pwrHold = d.pwrHold := rfl
@[simp] theorem TileSt.setMon_throttle (d : TileSt) (m : Nat) (c : Mon) : (d.setMon m c).throttle = d.throttle := rfl
@[simp] theorem TileSt.setMon_applied (d : TileSt) (m : Nat) (c : Mon) : (d.setMon m c).applied = d.applied := rfl
@[simp] theorem TileSt.setMon_tres (d : TileSt) (m : Nat) (c : Mon) : (d.setMon m c).tres = d.tres := rfl
@[simp] theorem TileSt.setMon_tmask (d : TileSt) (m : Nat) (c : Mon) : (d.setMon m c).tmask = d.tmask := rfl
@[simp] theorem TileSt.setMon_toA (d : TileSt) (m : Nat) (c : Mon) : (d.setMon m c).toA = d.toA := rfl
@[simp] theorem TileSt.setMon_toB (d : TileSt) (m : Nat) (c : Mon) : (d.setMon m c).toB = d.toB := rfl
@[simp] theorem TileSt.setMon_free (d : TileSt) (m : Nat) (c : Mon) : (d.setMon m c).free = d.free := rfl
@[simp] theorem TileSt.setBuf_regs (d : TileSt) (k : Nat) (b : Buf) : (d.setBuf k b).regs = d.regs := rfl
@[simp] theorem TileSt.setBuf_chans (d : TileSt) (k : Nat) (b : Buf) : (d.setBuf k b).chans = d.chans := rfl
@[simp] theorem TileSt.setBuf_mons (d : TileSt) (k : Nat) (b : Buf) : (d.setBuf k b).mons = d.mons := rfl
@[simp] theorem TileSt.setBuf_thmSticky (d : TileSt) (k : Nat) (b : Buf) : (d.setBuf k b).thmSticky = d.thmSticky := rfl
@[simp] theorem TileSt.setBuf_time (d : TileSt) (k : Nat) (b : Buf) : (d.setBuf k b).time = d.time := rfl
@[simp] theorem TileSt.setBuf_freeRun (d : TileSt) (k : Nat) (b : Buf) : (d.setBuf k b).freeRun = d.freeRun := rfl
@[simp] theorem TileSt.setBuf_stepAt (d : TileSt) (k : Nat) (b : Buf) : (d.setBuf k b).stepAt = d.stepAt := rfl
@[simp] theorem TileSt.setBuf_timeAt (d : TileSt) (k : Nat) (b : Buf) : (d.setBuf k b).timeAt = d.timeAt := rfl
@[simp] theorem TileSt.setBuf_rate (d : TileSt) (k : Nat) (b : Buf) : (d.setBuf k b).rate = d.rate := rfl
@[simp] theorem TileSt.setBuf_capoA (d : TileSt) (k : Nat) (b : Buf) : (d.setBuf k b).capoA = d.capoA := rfl
@[simp] theorem TileSt.setBuf_capoB (d : TileSt) (k : Nat) (b : Buf) : (d.setBuf k b).capoB = d.capoB := rfl
@[simp] theorem TileSt.setBuf_master (d : TileSt) (k : Nat) (b : Buf) : (d.setBuf k b).master = d.master := rfl
@[simp] theorem TileSt.setBuf_slave (d : TileSt) (k : Nat) (b : Buf) : (d.setBuf k b).slave = d.slave := rfl
@[simp] theorem TileSt.setBuf_slaveAt (d : TileSt) (k : Nat) (b : Buf) : (d.setBuf k b).slaveAt = d.slaveAt := rfl
@[simp] theorem TileSt.setBuf_hold (d : TileSt) (k : Nat) (b : Buf) : (d.setBuf k b).hold = d.hold := rfl
@[simp] theorem TileSt.setBuf_missRun (d : TileSt) (k : Nat) (b : Buf) : (d.setBuf k b).missRun = d.missRun := rfl
@[simp] theorem TileSt.setBuf_missed (d : TileSt) (k : Nat) (b : Buf) : (d.setBuf k b).missed = d.missed := rfl
@[simp] theorem TileSt.setBuf_codesA (d : TileSt) (k : Nat) (b : Buf) : (d.setBuf k b).codesA = d.codesA := rfl
@[simp] theorem TileSt.setBuf_codesB (d : TileSt) (k : Nat) (b : Buf) : (d.setBuf k b).codesB = d.codesB := rfl
@[simp] theorem TileSt.setBuf_cmpFrom (d : TileSt) (k : Nat) (b : Buf) : (d.setBuf k b).cmpFrom = d.cmpFrom := rfl
@[simp] theorem TileSt.setBuf_cmpOff (d : TileSt) (k : Nat) (b : Buf) : (d.setBuf k b).cmpOff = d.cmpOff := rfl
@[simp] theorem TileSt.setBuf_mmLast (d : TileSt) (k : Nat) (b : Buf) : (d.setBuf k b).mmLast = d.mmLast := rfl
@[simp] theorem TileSt.setBuf_adopted (d : TileSt) (k : Nat) (b : Buf) : (d.setBuf k b).adopted = d.adopted := rfl
@[simp] theorem TileSt.setBuf_mirror (d : TileSt) (k : Nat) (b : Buf) : (d.setBuf k b).mirror = d.mirror := rfl
@[simp] theorem TileSt.setBuf_mirrored (d : TileSt) (k : Nat) (b : Buf) : (d.setBuf k b).mirrored = d.mirrored := rfl
@[simp] theorem TileSt.setBuf_restart (d : TileSt) (k : Nat) (b : Buf) : (d.setBuf k b).restart = d.restart := rfl
@[simp] theorem TileSt.setBuf_restart0 (d : TileSt) (k : Nat) (b : Buf) : (d.setBuf k b).restart0 = d.restart0 := rfl
@[simp] theorem TileSt.setBuf_restart1 (d : TileSt) (k : Nat) (b : Buf) : (d.setBuf k b).restart1 = d.restart1 := rfl
@[simp] theorem TileSt.setBuf_nul (d : TileSt) (k : Nat) (b : Buf) : (d.setBuf k b).nul = d.nul := rfl
@[simp] theorem TileSt.setBuf_nulOn (d : TileSt) (k : Nat) (b : Buf) : (d.setBuf k b).nulOn = d.nulOn := rfl
@[simp] theorem TileSt.setBuf_settle0 (d : TileSt) (k : Nat) (b : Buf) : (d.setBuf k b).settle0 = d.settle0 := rfl
@[simp] theorem TileSt.setBuf_settle1 (d : TileSt) (k : Nat) (b : Buf) : (d.setBuf k b).settle1 = d.settle1 := rfl
@[simp] theorem TileSt.setBuf_trig (d : TileSt) (k : Nat) (b : Buf) : (d.setBuf k b).trig = d.trig := rfl
@[simp] theorem TileSt.setBuf_calRes (d : TileSt) (k : Nat) (b : Buf) : (d.setBuf k b).calRes = d.calRes := rfl
@[simp] theorem TileSt.setBuf_sent (d : TileSt) (k : Nat) (b : Buf) : (d.setBuf k b).sent = d.sent := rfl
@[simp] theorem TileSt.setBuf_vis (d : TileSt) (k : Nat) (b : Buf) : (d.setBuf k b).vis = d.vis := rfl
@[simp] theorem TileSt.setBuf_power (d : TileSt) (k : Nat) (b : Buf) : (d.setBuf k b).power = d.power := rfl
@[simp] theorem TileSt.setBuf_pwrHold (d : TileSt) (k : Nat) (b : Buf) : (d.setBuf k b).pwrHold = d.pwrHold := rfl
@[simp] theorem TileSt.setBuf_throttle (d : TileSt) (k : Nat) (b : Buf) : (d.setBuf k b).throttle = d.throttle := rfl
@[simp] theorem TileSt.setBuf_applied (d : TileSt) (k : Nat) (b : Buf) : (d.setBuf k b).applied = d.applied := rfl
@[simp] theorem TileSt.setBuf_tres (d : TileSt) (k : Nat) (b : Buf) : (d.setBuf k b).tres = d.tres := rfl
@[simp] theorem TileSt.setBuf_tmask (d : TileSt) (k : Nat) (b : Buf) : (d.setBuf k b).tmask = d.tmask := rfl
@[simp] theorem TileSt.setBuf_toA (d : TileSt) (k : Nat) (b : Buf) : (d.setBuf k b).toA = d.toA := rfl
@[simp] theorem TileSt.setBuf_toB (d : TileSt) (k : Nat) (b : Buf) : (d.setBuf k b).toB = d.toB := rfl
@[simp] theorem TileSt.setBuf_free (d : TileSt) (k : Nat) (b : Buf) : (d.setBuf k b).free = d.free := rfl
@[simp] theorem TileSt.report_regs (d : TileSt) (r : TRep) : (d.report r).regs = d.regs := rfl
@[simp] theorem TileSt.report_chans (d : TileSt) (r : TRep) : (d.report r).chans = d.chans := rfl
@[simp] theorem TileSt.report_mons (d : TileSt) (r : TRep) : (d.report r).mons = d.mons := rfl
@[simp] theorem TileSt.report_thmSticky (d : TileSt) (r : TRep) : (d.report r).thmSticky = d.thmSticky := rfl
@[simp] theorem TileSt.report_bufs (d : TileSt) (r : TRep) : (d.report r).bufs = d.bufs := rfl
@[simp] theorem TileSt.report_time (d : TileSt) (r : TRep) : (d.report r).time = d.time := rfl
@[simp] theorem TileSt.report_freeRun (d : TileSt) (r : TRep) : (d.report r).freeRun = d.freeRun := rfl
@[simp] theorem TileSt.report_stepAt (d : TileSt) (r : TRep) : (d.report r).stepAt = d.stepAt := rfl
@[simp] theorem TileSt.report_timeAt (d : TileSt) (r : TRep) : (d.report r).timeAt = d.timeAt := rfl
@[simp] theorem TileSt.report_rate (d : TileSt) (r : TRep) : (d.report r).rate = d.rate := rfl
@[simp] theorem TileSt.report_capoA (d : TileSt) (r : TRep) : (d.report r).capoA = d.capoA := rfl
@[simp] theorem TileSt.report_capoB (d : TileSt) (r : TRep) : (d.report r).capoB = d.capoB := rfl
@[simp] theorem TileSt.report_master (d : TileSt) (r : TRep) : (d.report r).master = d.master := rfl
@[simp] theorem TileSt.report_slave (d : TileSt) (r : TRep) : (d.report r).slave = d.slave := rfl
@[simp] theorem TileSt.report_slaveAt (d : TileSt) (r : TRep) : (d.report r).slaveAt = d.slaveAt := rfl
@[simp] theorem TileSt.report_hold (d : TileSt) (r : TRep) : (d.report r).hold = d.hold := rfl
@[simp] theorem TileSt.report_missRun (d : TileSt) (r : TRep) : (d.report r).missRun = d.missRun := rfl
@[simp] theorem TileSt.report_missed (d : TileSt) (r : TRep) : (d.report r).missed = d.missed := rfl
@[simp] theorem TileSt.report_codesA (d : TileSt) (r : TRep) : (d.report r).codesA = d.codesA := rfl
@[simp] theorem TileSt.report_codesB (d : TileSt) (r : TRep) : (d.report r).codesB = d.codesB := rfl
@[simp] theorem TileSt.report_cmpFrom (d : TileSt) (r : TRep) : (d.report r).cmpFrom = d.cmpFrom := rfl
@[simp] theorem TileSt.report_cmpOff (d : TileSt) (r : TRep) : (d.report r).cmpOff = d.cmpOff := rfl
@[simp] theorem TileSt.report_mmLast (d : TileSt) (r : TRep) : (d.report r).mmLast = d.mmLast := rfl
@[simp] theorem TileSt.report_adopted (d : TileSt) (r : TRep) : (d.report r).adopted = d.adopted := rfl
@[simp] theorem TileSt.report_mirror (d : TileSt) (r : TRep) : (d.report r).mirror = d.mirror := rfl
@[simp] theorem TileSt.report_mirrored (d : TileSt) (r : TRep) : (d.report r).mirrored = d.mirrored := rfl
@[simp] theorem TileSt.report_restart (d : TileSt) (r : TRep) : (d.report r).restart = d.restart := rfl
@[simp] theorem TileSt.report_restart0 (d : TileSt) (r : TRep) : (d.report r).restart0 = d.restart0 := rfl
@[simp] theorem TileSt.report_restart1 (d : TileSt) (r : TRep) : (d.report r).restart1 = d.restart1 := rfl
@[simp] theorem TileSt.report_nul (d : TileSt) (r : TRep) : (d.report r).nul = d.nul := rfl
@[simp] theorem TileSt.report_nulOn (d : TileSt) (r : TRep) : (d.report r).nulOn = d.nulOn := rfl
@[simp] theorem TileSt.report_settle0 (d : TileSt) (r : TRep) : (d.report r).settle0 = d.settle0 := rfl
@[simp] theorem TileSt.report_settle1 (d : TileSt) (r : TRep) : (d.report r).settle1 = d.settle1 := rfl
@[simp] theorem TileSt.report_trig (d : TileSt) (r : TRep) : (d.report r).trig = d.trig := rfl
@[simp] theorem TileSt.report_calRes (d : TileSt) (r : TRep) : (d.report r).calRes = d.calRes := rfl
@[simp] theorem TileSt.report_sent (d : TileSt) (r : TRep) : (d.report r).sent = d.sent := rfl
@[simp] theorem TileSt.report_vis (d : TileSt) (r : TRep) : (d.report r).vis = d.vis := rfl
@[simp] theorem TileSt.report_power (d : TileSt) (r : TRep) : (d.report r).power = d.power := rfl
@[simp] theorem TileSt.report_pwrHold (d : TileSt) (r : TRep) : (d.report r).pwrHold = d.pwrHold := rfl
@[simp] theorem TileSt.report_throttle (d : TileSt) (r : TRep) : (d.report r).throttle = d.throttle := rfl
@[simp] theorem TileSt.report_applied (d : TileSt) (r : TRep) : (d.report r).applied = d.applied := rfl
@[simp] theorem TileSt.report_tres (d : TileSt) (r : TRep) : (d.report r).tres = d.tres := rfl
@[simp] theorem TileSt.report_tmask (d : TileSt) (r : TRep) : (d.report r).tmask = d.tmask := rfl
@[simp] theorem TileSt.report_free (d : TileSt) (r : TRep) : (d.report r).free = d.free := rfl

end Sys2Proof.Machine
end

