-- ==== Sys2Proof/Laws/Quinli.lean ====
section
/-! SUPPORT. What the shared operations of the cores do, said once: a core that is ready runs the instruction on the fetched state, and a
completion changes its core and nothing else. -/

namespace Sys2Proof.Machine

/-- A change of one core is read back there, and nowhere else. -/
theorem StringSt.core_updCore (c : StringSt) (i n : Nat) (f : CoreSt → CoreSt) :
    (c.updCore i f).core n = if n = i then f (c.core i) else c.core n := by
  unfold StringSt.updCore StringSt.setCore StringSt.core
  split
  · subst_vars; simp
  · rename_i h; simp [h]

/-- Counting an instruction changes no core. -/
@[simp] theorem StringSt.core_countInsn (c : StringSt) (i n : Nat) : (c.countInsn i).core n = c.core n := by
  unfold StringSt.countInsn
  dsimp only
  split
  · unfold StringSt.updFlight
    split <;> rfl
  · rfl

/-- A ready core runs the instruction that it fetches on the fetched state, or takes ILLEGAL where a field that must be zero is not. -/
theorem State.runInsn_ready {s : State} {x : Str} {i : Nat} {fe : Ecc} (h : s.ready x i fe) (de : Ecc) (n : Insn) :
    s.runInsn x i false fe de n =
      let u := s.fetched x i fe
      let r : Run := ⟨x, i, (u.str x).core i, n.op.toNat⟩
      if n.legal then u.runOp r de n else u.raise r tILLEGAL 0 := by
  obtain ⟨h1, h2, h3, h4⟩ := h
  unfold State.runInsn State.fetch State.fetched
  by_cases lt : ((s.str x).core i).pc.toNat < 0x02000000
  · simp [h1, h2, h3, h4 lt, lt]
  · simp [h1, h2, h3, lt]

theorem CoreSt.pl_lt (k : CoreSt) : k.pl < 4 := by unfold CoreSt.pl bits; omega
theorem putBits_word_lt (w : Word) (lo n f : Nat) (h : lo + n ≤ 32) : putBits w.toNat lo n f < 2 ^ 32 := putBits_lt _ _ _ _ _ w.isLt h

/-- What trap entry does, said once (R69, R71). -/
theorem CoreSt.entered_takeTrap (k : CoreSt) (t : Trap) (nf : Bool) (epc : Nat) :
    k.entered (k.takeTrap t nf epc) t.code t.info t.bad nf (BitVec.ofNat 32 epc) := by
  have hpl := CoreSt.pl_lt k
  unfold CoreSt.entered CoreSt.takeTrap
  have e : (k.toMonitor t.code = true) ↔ (t.code = tMCALL ∨ k.pl = 0 ∨ (k.pl = 1 ∧ k.tf = true)) := by
    unfold CoreSt.toMonitor; simp [or_assoc]
  by_cases m : (t.code = tMCALL ∨ k.pl = 0 ∨ (k.pl = 1 ∧ k.tf = true))
  · have hm := e.2 m
    have b1 : putBits k.status.toNat 8 2 k.pl < 2 ^ 32 := putBits_word_lt _ _ _ _ (by omega)
    have b2 : putBits (putBits k.status.toNat 8 2 k.pl) 0 2 0 < 2 ^ 32 := putBits_lt _ _ _ _ _ b1 (by omega)
    have b3 : putBit (putBits (putBits k.status.toNat 8 2 k.pl) 0 2 0) 2 true < 2 ^ 32 := putBits_lt _ _ _ _ _ b2 (by omega)
    have b4 : putBit (putBit (putBits (putBits k.status.toNat 8 2 k.pl) 0 2 0) 2 true) 5 true < 2 ^ 32 := putBits_lt _ _ _ _ _ b3 (by omega)
    have b5 : putBit (putBit (putBit (putBits (putBits k.status.toNat 8 2 k.pl) 0 2 0) 2 true) 5 true) 3 false < 2 ^ 32 := putBits_lt _ _ _ _ _ b4 (by omega)
    simp only [hm, if_true, CoreSt.cause]
    simp only [CoreSt.ie, CoreSt.pl, CoreSt.sec, CoreSt.ts, CoreSt.tf, CoreSt.ppl]
    simp only [CoreSt.pl] at *
    simp only [BitVec.toNat_ofNat, Nat.mod_eq_of_lt b5]
    refine ⟨by trivial, by trivial, ?_, fun _ => ?_, fun h => absurd m h⟩
    · simp
    · refine ⟨by trivial, by trivial, by trivial, by trivial, ?_, ?_, ?_, ?_, ?_, ?_, by trivial⟩
      · rw [bits_putBit_ne, bits_putBit_ne, bits_putBit_ne, bits_putBits_self] <;> omega
      · rw [bit_putBit_ne, bit_putBit_ne, bit_putBit_self] <;> omega
      · rw [bit_putBit_ne, bit_putBit_self]; omega
      · simp only [if_true]
        rw [bits_putBit_ne, bits_putBit_ne, bits_putBit_ne, bits_putBits_ne, bits_putBits_self] <;> omega
      · rw [bit_putBit_ne, bit_putBit_ne, bit_putBit_ne, bit_putBits_ne, bit_putBits_ne] <;> omega
      · simp only [Bool.false_eq_true, if_false]
        rw [bits_putBit_ne, bits_putBit_ne, bits_putBit_ne, bits_putBits_ne, bits_putBits_ne] <;> omega
  · have hm : k.toMonitor t.code = false := by rw [Bool.eq_false_iff]; intro h; exact m (e.1 h)
    have b1 : putBits k.status.toNat 6 2 k.pl < 2 ^ 32 := putBits_word_lt _ _ _ _ (by omega)
    have b2 : putBits (putBits k.status.toNat 6 2 k.pl) 0 2 1 < 2 ^ 32 := putBits_lt _ _ _ _ _ b1 (by omega)
    have b3 : putBit (putBits (putBits k.status.toNat 6 2 k.pl) 0 2 1) 2 false < 2 ^ 32 := putBits_lt _ _ _ _ _ b2 (by omega)
    have b4 : putBit (putBit (putBits (putBits k.status.toNat 6 2 k.pl) 0 2 1) 2 false) 4 true < 2 ^ 32 := putBits_lt _ _ _ _ _ b3 (by omega)
    have b5 : putBit (putBit (putBit (putBits (putBits k.status.toNat 6 2 k.pl) 0 2 1) 2 false) 4 true) 3 false < 2 ^ 32 := putBits_lt _ _ _ _ _ b4 (by omega)
    simp only [hm, Bool.false_eq_true, if_false, CoreSt.cause]
    simp only [CoreSt.ie, CoreSt.pl, CoreSt.sec, CoreSt.ts, CoreSt.tf, CoreSt.ppl]
    simp only [CoreSt.pl] at *
    simp only [BitVec.toNat_ofNat, Nat.mod_eq_of_lt b5]
    refine ⟨by trivial, by trivial, ?_, fun h => absurd h m, fun _ => ?_⟩
    · simp
    · refine ⟨by trivial, by trivial, by trivial, by trivial, ?_, ?_, ?_, ?_, ?_, ?_, by trivial⟩
      · rw [bits_putBit_ne, bits_putBit_ne, bits_putBit_ne, bits_putBits_self] <;> omega
      · rw [bit_putBit_ne, bit_putBit_ne, bit_putBit_self] <;> omega
      · rw [bit_putBit_ne, bit_putBit_self]; omega
      · simp only [Bool.false_eq_true, if_false]
        rw [bits_putBit_ne, bits_putBit_ne, bits_putBit_ne, bits_putBits_ne, bits_putBits_self] <;> omega
      · rw [bit_putBit_ne, bit_putBit_ne, bit_putBit_ne, bit_putBits_ne, bit_putBits_ne] <;> omega
      · simp only [if_true]
        rw [bits_putBit_ne, bits_putBit_ne, bits_putBit_ne, bits_putBits_ne, bits_putBits_ne] <;> omega

/-- A completion with a number is one with its low 32 bits. -/
theorem StringSt.finish_word (c : StringSt) (i gd v : Nat) : c.finish i gd ((BitVec.ofNat 32 v).toNat) = c.finish i gd v := by
  unfold StringSt.finish
  congr 1
  funext k
  unfold CoreSt.setReg
  rw [BitVec.ofNat_toNat, BitVec.setWidth_eq]

end Sys2Proof.Machine
end

