-- ==== Sys2Proof/Laws/Time.lean ====
section
/-! SUPPORT. What the passing of time does, said once (00_scope.md R22; log entry 12): the clock of the module comes to the instant,
each string and each tile runs for what has passed, and nothing else of the module changes. -/

namespace Sys2Proof.Machine

@[simp] theorem State.tile_setTile_self (s : State) (n : Nat) (d : TileSt) : (s.setTile n d).tile n = d := by
  simp [State.tile, State.setTile]

theorem State.tile_setTile_ne (s : State) {n m : Nat} (d : TileSt) (h : m ≠ n) : (s.setTile n d).tile m = s.tile m := by
  simp [State.tile, State.setTile, h]

/-- A change of every tile in turn. -/
theorem State.eachTile_updTile (s : State) (f : Nat → TileSt → TileSt) :
    let t := s.eachTile fun n w => w.updTile n (f n)
    { t with tiles := s.tiles } = s ∧ ∀ n, t.tile n = if n < 8 then f n (s.tile n) else s.tile n := by
  have key : ∀ (l : List Nat) (s : State), l.Nodup → let t := l.foldl (fun w n => w.updTile n (f n)) s
      { t with tiles := s.tiles } = s ∧ ∀ n, t.tile n = if n ∈ l then f n (s.tile n) else s.tile n := by
    intro l
    induction l with
    | nil => exact fun s _ => ⟨rfl, fun _ => by simp⟩
    | cons a l ih =>
      intro s hl
      obtain ⟨ha, hl⟩ := List.nodup_cons.mp hl
      obtain ⟨h1, h2⟩ := ih (s.updTile a (f a)) hl
      refine ⟨?_, fun n => ?_⟩
      · exact congrArg (fun w : State => { w with tiles := s.tiles }) h1
      · rw [List.foldl_cons, h2 n]
        by_cases hn : n = a
        · subst hn
          simp [ha, State.updTile]
        · simp [hn, State.updTile, State.tile_setTile_ne s _ hn]
  obtain ⟨h1, h2⟩ := key (List.range 8) s (by decide)
  refine ⟨h1, fun n => ?_⟩
  refine (h2 n).trans ?_
  simp only [List.mem_range]

/-- Time does not run back: an instant that has passed changes nothing. -/
theorem State.advance_past (s : State) (t : Nat) (h : t ≤ s.now) : s.advance t = s := by
  unfold State.advance
  simp [h]

/-- What an instant that comes changes. -/
theorem State.advance_to (s : State) (t : Nat) (h : s.now < t) :
    let u := s.advance t
    u.now = t ∧ (∀ x, u.str x = (s.str x).runTime (t - s.now)) ∧ (∀ n, u.tile n = if n < 8 then (s.tile n).runTime (t - s.now) else s.tile n) ∧
      u.stage = s.stage ∧ u.capoForceN = s.capoForceN ∧ u.evtIn = s.evtIn ∧ u.hostMem = s.hostMem ∧ u.pending = s.pending := by
  obtain ⟨h1, h2⟩ := ({ s with now := t }.updBoth fun c => c.runTime (t - s.now)).eachTile_updTile fun _ e => e.runTime (t - s.now)
  have e : s.advance t = ({ s with now := t }.updBoth fun c => c.runTime (t - s.now)).eachTile fun n w => w.updTile n fun e => e.runTime (t - s.now) := by
    unfold State.advance
    simp [Nat.not_le.mpr h]
  dsimp only at h1 h2 ⊢
  rw [e]
  generalize State.eachTile _ _ = v at h1 h2 ⊢
  cases v
  simp only [State.updBoth, State.mk.injEq] at h1
  obtain ⟨rfl, rfl, rfl, -, rfl, rfl, rfl, rfl, rfl⟩ := h1
  refine ⟨rfl, fun x => by cases x <;> rfl, fun n => ?_, rfl, rfl, rfl, rfl, rfl⟩
  rw [h2 n]
  rfl

/-- What time changes of a string: its clock, the end of a forced leave (12_redundancy.md R292), and what its producer of frame boundaries
fires (R343). -/
theorem StringSt.runTime_frame (c : StringSt) (d : Nat) :
    StringSt.EvFrame { c with time := c.time + elapsed d c.rate }.leaveForced (c.runTime d) := by
  unfold StringSt.runTime StringSt.slowFrames
  split
  · exact StringSt.evFrame_foldl _ (fun _ _ => StringSt.evFrame_fire _ _) _ _
  · exact .refl _

/-- No command moves time back. -/
theorem State.now_advance (s : State) (t : Nat) : (s.advance t).now = max s.now t := by
  by_cases h : t ≤ s.now
  · rw [s.advance_past t h]; omega
  · rw [(s.advance_to t (by omega)).1]; omega

@[simp] theorem State.pending_advance (s : State) (t : Nat) : (s.advance t).pending = s.pending := by
  by_cases h : t ≤ s.now
  · rw [s.advance_past t h]
  · exact (s.advance_to t (by omega)).2.2.2.2.2.2.2

@[simp] theorem State.hostMem_advance (s : State) (t : Nat) : (s.advance t).hostMem = s.hostMem := by
  by_cases h : t ≤ s.now
  · rw [s.advance_past t h]
  · exact (s.advance_to t (by omega)).2.2.2.2.2.2.1

end Sys2Proof.Machine
end

