-- ==== Sys2Proof/Machine/Pins.lean ====
section
/-! DEFINITION. The levels that the block drives on its lands (19_pins_electrical.md R430, R431), as the state gives them. -/

namespace Sys2Proof.Machine
namespace State

/-- CAPO_A or CAPO_B is high: the buffered copy of the string's line (R283, R430). -/
def capoLand (s : State) (x : Str) : Bool := (s.str x).red.line

/-- EVT_OUT is high: the pulse of consumer 84 of the string that holds the capo line (15_events_mailboxes.md R352). -/
def evtOutLand (s : State) : Bool :=
  match s.capo with
  | some x => (s.str x).evf.outEnd.any fun e => decide ((s.str x).time < e)
  | none => false

/-- TOUT `i` of string `x` is high: active level during a pulse, by POL (14_time.md R337, R341). -/
def toutLand (s : State) (x : Str) (i : Nat) : Bool :=
  let c := s.str x
  (c.tout i).pulseEnd.any (fun e => decide (c.time < e)) != c.flag (Reg.TIME_TOUTCFG i) F.TIME_TOUTCFG.POL

/-- ALIVE is high (16_faults.md R375). -/
def aliveLand (s : State) (x : Str) : Bool := (s.str x).alv.alive

/-- THERM_N is pulled low (R430): rails tripped, or a factor of the string that holds the capo line below 16. -/
def thermLow (s : State) : Bool :=
  s.a.flag Reg.PWR_STAT F.PWR_STAT.TRIP || s.b.flag Reg.PWR_STAT F.PWR_STAT.TRIP ||
    (match s.capo with
     | some x => (List.range 8).any fun n => decide ((s.str x).fld (Reg.THM_TILE n) F.THM_TILE.F < 16)
     | none => false)

end State

/-- The identity that string `x`'s PCIe endpoint presents (20_register_map.md R448): Vendor ID, Device ID, Revision ID (GEN_REV.SILREV), class
code, Subsystem Vendor ID, Subsystem ID, Interrupt Pin; bytes of BAR0 and BAR2. -/
def pciIdentity (x : Str) : List Nat := [0x1E96, 0x4B16, 0x21, 0x118000, 0x1E96, x.idx, 0, 0x40000, 0x2000000]

end Sys2Proof.Machine
end

