-- ==== Sys2Proof/Tests/Slice0.lean ====
section
/-! SUPPORT. Tests: ill-formed commands, words of the Quinli encoding, values worked out in the spec, and for each statement of
Certificates/Slice0/Obligations.lean that has hypotheses a state that meets them. Each is about one step on a small state. -/

namespace Sys2Proof.Machine.Tests

set_option Elab.async false

/-! ## Small states -/

/-- The state after reset with one string changed. -/
def withA (f : StringSt → StringSt) : State := State.reset.updStr .a f

/-- String A is ACTIVE and string B its joined standby. -/
def pair : State :=
  (State.reset.updStr .a fun c => (((c.setFld Reg.RED_CAPOSTAT F.RED_CAPOSTAT.ROLE rACTIVE).setFld Reg.RED_CAPOSTAT
    F.RED_CAPOSTAT.PJOINED 1).setFld Reg.BRG_STAT F.BRG_STAT.UP 1)).updStr .b fun c =>
      ((c.setFld Reg.RED_CAPOSTAT F.RED_CAPOSTAT.ROLE rSTANDBY).setFld Reg.BRG_STAT F.BRG_STAT.UP 1)

/-- String A is ACTIVE without a partner. -/
def alone : State := withA fun c => c.setFld Reg.RED_CAPOSTAT F.RED_CAPOSTAT.ROLE rACTIVE

/-- Core 0 of string A at firmware level, at 0x1000. -/
def firm (s : State) : State := s.updStr .a fun c => c.updCore 0 fun k => { k with status := 1, pc := 0x1000 }

/-- A phrase of 4 instructions in slot 2 of ring 5. -/
def flight5 : Flight :=
  { core := 0, det := 0, committed := true, slot := 2, nslot := 1, ninsn := 4, tag := 7, gseq := 0, lead := 0, budget := 65536, barrier := false,
    cqEn := false, cqBase := 0, oldCnt := none, count := 0, fpc := 0, effects := [], bound := false, solve := none,
    entry := none, posted := false }

/-- Core `0` of string `x` runs the phrase `flight5`. -/
def running5 (s : State) (x : Str) : State := s.updStr x fun c =>
  { c.updCore 0 fun k => { k with status := 2, phrase := 0x80000005, pc := BitVec.ofNat 32 (slotAddr 5 2 + 32) } with
    ring := { c.ring with flights := [(5, some flight5)] } }

/-- String A runs the phrase alone. -/
def ph : State := running5 alone .a

/-- Register `r` of core 0 of string A holds `v`. -/
def g (s : State) (r v : Nat) : State := s.updStr .a fun c => c.updCore 0 fun k => k.setReg r v

/-- What a command answers, where it is a next state. -/
def next (o : Out) : State := match o with
  | .next t => t
  | _ => State.reset

/-! ## Commands that are not well formed -/

theorem test_engineJob_wf : Instr.wf (.engineJob .a 0 0 0 [] 0 0 false) = false := by decide +kernel
theorem test_hkaScan_wf : Instr.wf (.hkaScan .a [] false 0) = false := by decide +kernel

/-! ## Words of the encoding (02_quinli_isa.md R46 to R48, R53, R59) -/

/-- R47, R49: op 0x00, gd 31, ga 30, gb 29, func 0x02. -/
theorem test_decode_sub : decodeInsn 0b00000011111111101110100000000010#32 = some (.alu .sub 31 30 29) := by decide +kernel
/-- R48: op 0x08, gd 1, ga 2, imm16 0xFFFC. -/
theorem test_decode_lw : decodeInsn 0b00100000001000101111111111111100#32 = some (.imm .lw 1 2 0xFFFC) := by decide +kernel
/-- R53: op 0x17, func 0x002 is AADD. -/
theorem test_decode_aadd : decodeInsn 0b01011100001000100001100000000010#32 = some (.atom .aadd 1 2 3) := by decide +kernel
/-- R54: op 0x14, BLTU. -/
theorem test_decode_bltu : decodeInsn 0b01010000001000101111111111111111#32 = some (.imm .bltu 1 2 0xFFFF) := by decide +kernel
/-- A word of an op that is not assigned. -/
theorem test_decode_none : decodeInsn 0b11111100000000000000000000000000#32 = none := by decide +kernel

/-! ## Instructions: witnesses and values (02_quinli_isa.md) -/

theorem test_wit_ready_firm : (firm alone).ready .a 0 .clean := by unfold State.ready; decide +kernel
theorem test_wit_ready_phrase : ph.ready .a 0 .single := by unfold State.ready; decide +kernel
theorem test_wit_ready_reset : State.reset.ready .a 0 .double := by unfold State.ready; decide +kernel

/-- Core 0's register `r`, and its PC, after a command. -/
def reg (o : Out) (r : Nat) : Nat := ((next o).a.core 0).reg r
def pc (o : Out) : Nat := ((next o).a.core 0).pc.toNat

/-- R49: the sum wraps; a shift uses gb[4:0]; MULH of -1 by -1 is 0. -/
theorem test_add_wraps : reg (exec (.add .a 0 1 2 3 .clean) (g (g (firm alone) 2 0xFFFFFFFF) 3 2)) 1 = 1 := by decide +kernel
theorem test_sll_count : reg (exec (.sll .a 0 1 2 3 .clean) (g (g (firm alone) 2 1) 3 33)) 1 = 2 := by decide +kernel
theorem test_mulh_signs : reg (exec (.mulh .a 0 1 2 3 .clean) (g (g (firm alone) 2 0xFFFFFFFF) 3 0xFFFFFFFF)) 1 = 0 := by decide +kernel
theorem test_sra_sign : reg (exec (.srai .a 0 1 2 4 .clean) (g (firm alone) 2 0x80000000)) 1 = 0xF8000000 := by decide +kernel
/-- R49: CLZ of 0 is 32. -/
theorem test_clz_zero : reg (exec (.clz .a 0 1 2 0 .clean) (firm alone)) 1 = 32 := by decide +kernel
/-- R39: g0 reads 0. -/
theorem test_g0 : reg (exec (.addi .a 0 0 0 5 .clean) (firm alone)) 0 = 0 := by decide +kernel
/-- R50: division by zero and the overflowing quotient. -/
theorem test_div_zero : reg (exec (.div .a 0 1 2 3 .clean) (g (firm alone) 2 7)) 1 = 0xFFFFFFFF := by decide +kernel
theorem test_div_overflow : reg (exec (.div .a 0 1 2 3 .clean) (g (g (firm alone) 2 0x80000000) 3 0xFFFFFFFF)) 1 = 0x80000000 := by decide +kernel
/-- R51: LUI, and SLTIU with a sign-extended immediate. -/
theorem test_lui : reg (exec (.lui .a 0 1 0 0x8001 .clean) (firm alone)) 1 = 0x80010000 := by decide +kernel
theorem test_sltiu : reg (exec (.sltiu .a 0 1 2 0xFFFF .clean) (g (firm alone) 2 0xFFFFFFFE)) 1 = 1 := by decide +kernel
theorem test_wit_DivisionNeverTraps : let k := (firm alone).a.core 0; k.g32 5 = 0 ∧
    (((g (g (firm alone) 2 0x80000000) 3 0xFFFFFFFF).a.core 0).g32 2 = 0x80000000 ∧
      ((g (g (firm alone) 2 0x80000000) 3 0xFFFFFFFF).a.core 0).g32 3 = 0xFFFFFFFF) := by decide +kernel

/-- An address that core 0 at firmware level may load from and store to, in SRAM and in register space. -/
theorem test_wit_LoadsComplete : let s := g (firm alone) 2 0x2000; let k := s.a.core 0
    s.meets .a k 0 0x2000 4 none = .fine ∧ s.meets .a k 0 0x40000000 4 none = .fine ∧ s.meets .a k 0 0x2000 4 (some 5) = .fine := by
  decide +kernel
/-- R52: LB extends the sign of the byte at the address; SH stores two bytes, the low one first. -/
theorem test_lb : reg (exec (.lb .a 0 1 2 1 .clean .clean)
    ((g (firm alone) 2 0x2000).updStr .a fun c => c.setWord 0x2000 0x00008000)) 1 = 0xFFFFFF80 := by decide +kernel
theorem test_sh : ((next (exec (.sh .a 0 1 2 2 .clean) (g (g (firm alone) 2 0x2000) 1 0x1234ABCD))).a.word 0x2000) = 0xABCD0000 := by decide +kernel
/-- R447: GEN_CAPS reads 0x0800_4000 at 0x4000_0018. -/
theorem test_lw_reg : reg (exec (.lw .a 0 1 2 0 .clean .clean) (g (firm alone) 2 (0x40000000 + Reg.GEN_CAPS))) 1 = 0x08004000 := by decide +kernel
/-- R52: a misaligned LW takes ALIGN (0x02) with the address in BAD_FW and no effect on gd. -/
theorem test_lw_align : let t := next (exec (.lw .a 0 1 2 1 .clean .clean) (g (firm alone) 2 0x2000))
    bits (t.a.core 0).causeFw.toNat 0 8 = tALIGN ∧ (t.a.core 0).badFw = 0x2001 ∧ (t.a.core 0).reg 1 = 0 := by decide +kernel
theorem test_wit_LoadsAndStoresTrap : let s := firm alone; let k := s.a.core 0
    s.meets .a k 0 0x3FF00000 4 none = .buserr ∧ s.meets .a k 0 (0x40000000 + Reg.SEQ_START) 4 (some 2) = .priv := by decide +kernel
theorem test_wit_AtomicsComplete : let c := (firm alone).a; let k := c.core 0
    c.buffer k.pl k.sec true 0x2000 4 = .fine ∧ (ph.a.buffer 2 false true 0x2000 4 = .priv) := by decide +kernel
/-- R53: CAS writes gb where gd held the old word, and gd takes the old word. -/
theorem test_cas : let t := next (exec (.cas .a 0 1 2 3 .clean .clean)
      ((g (g (g (firm alone) 1 7) 2 0x2000) 3 9).updStr .a fun c => c.setWord 0x2000 7))
    t.a.word 0x2000 = 9 ∧ (t.a.core 0).reg 1 = 7 := by decide +kernel
/-- R54: a taken branch goes to PC + 4 + 4 x imm16; JALR links PC + 4 and reads ga before it writes gd. -/
theorem test_beq : pc (exec (.beq .a 0 0 0 0xFFFE .clean) (firm alone)) = 0xFFC := by decide +kernel
theorem test_jalr : let o := exec (.jalr .a 0 2 2 4 .clean) (g (firm alone) 2 0x2000)
    pc o = 0x2004 ∧ reg o 2 = 0x1004 := by decide +kernel
theorem test_jal : let o := exec (.jal .a 0 0x3FFFFFF .clean) (firm alone)
    pc o = 0x1000 ∧ reg o 31 = 0x1004 := by decide +kernel
/-- The clauses of FaultEntersHandler, TrapsWithoutFault, EretReturns and SpecialRegisters: each level, TS, a line due, a saved level. -/
theorem test_wit_FaultEntersHandler : let k := ph.a.core 0
    (¬(k.pl = 0 ∧ k.ts = true)) ∧ k.pl = 2 ∧ ph.a.flight k.ring = some flight5 ∧
      ((State.reset.updStr .a fun c => c.updCore 0 fun k => { k with status := 0x24 }).a.core 0).pl = 0 ∧
      ((State.reset.updStr .a fun c => c.updCore 0 fun k => { k with status := 0x24 }).a.core 0).ts = true := by decide +kernel
theorem test_wit_TrapsWithoutFault : (ph.a.core 0).pl = 2 ∧ (0x40 : Nat) ∈ State.services ∧ ((firm alone).a.core 0).pl = 1 ∧
    (State.reset.a.core 0).pl = 0 ∧ (State.reset.a.core 0).ts = false := by decide +kernel
/-- R73, R372: consumer 80 raises line 4 of core 0. -/
def due4 : State := (firm alone).updStr .a fun c =>
  { c.updCore 0 fun k => { k with status := 9, imask := 0x10 } with evf := { c.evf with full := [80] } }
theorem test_wit_int : let k := due4.a.core 0; k.ie = true ∧ k.tf = false ∧ k.run = .running ∧ k.wait = .idle ∧ k.pl = 1 ∧
    (due4.ipend .a 0 &&& k.imask.toNat).testBit 4 = true ∧ (List.range 4).all (fun n => !(due4.ipend .a 0 &&& k.imask.toNat).testBit n) = true := by
  decide +kernel
theorem test_int : let t := next (exec (.int .a 0) due4)
    bits (t.a.core 0).causeFw.toNat 0 8 = tINT ∧ bits (t.a.core 0).causeFw.toNat 12 10 = 4 ∧ (t.a.core 0).epcFw = 0x1000 := by decide +kernel
theorem test_wit_EretReturns : let k := (State.reset.a.core 0); k.pl = 0 ∧ k.ppl true = 0 ∧ k.epcSm.toNat % 4 = 0 := by decide +kernel
/-- R71: firmware resumes a phrase: PPL_FW 2 and PHRASE.ACTIVE, S = 0 in a ring above 3. -/
theorem test_eret : let o := exec (.eret .a 0 0 0 0 .clean) (ph.updStr .a fun c => c.updCore 0 fun k =>
      { k with status := 0x91, pc := 0x1000, epcFw := 0x00450220 })
    pc o = 0x450220 ∧ ((next o).a.core 0).pl = 2 ∧ ((next o).a.core 0).tf = false ∧ ((next o).a.core 0).sec = false := by decide +kernel
theorem test_mfs_core : reg (exec (.mfs .a 0 1 0 1 .clean) (firm alone)) 1 = 0 := by decide +kernel
theorem test_mts_epc : ((next (exec (.mts .a 0 0 2 8 .clean) (g (firm alone) 2 0x1237))).a.core 0).epcFw = 0x1234 := by decide +kernel
theorem test_wit_DoneHaltFence : (ph.a.core 0).pl = 2 ∧ ph.a.flight (ph.a.core 0).ring = some flight5 ∧ State.framesDone ph.a 0 = true := by decide +kernel
/-- R72, R93: DONE retires the phrase with its code and result. -/
theorem test_done : let t := next (exec (.done .a 0 0 2 5 .clean) (g ph 2 77))
    (t.a.ring.recs.map fun r => (r.status, r.code, r.result, r.slot)) = [(recDONE, 5, 77, 2)] ∧ (t.a.core 0).pl = 1 := by decide +kernel
theorem test_halt : ((next (exec (.halt .a 0 0 0 0 .clean) (firm alone))).a.core 0).run = .halted := by decide +kernel

/-! ## Device operations (R60 to R68) -/

/-- SRAM words of string A from `a` on. -/
def mem (s : State) (a : Nat) (l : List Nat) : State := s.updStr .a fun c => c.setWords a l

/-- The phrase on string B, the standby. -/
def follower : State := running5 pair .b

theorem test_wit_ready_follower : follower.ready .b 0 .clean ∧ follower.b.follows 0 = true := by
  unfold State.ready; decide +kernel
/-- Operand words of the three classes at the ends of their ranges, their domains on, and the values R60 admits at the ends of theirs. -/
theorem test_wit_ChannelOperations : (ph.tile 7).domOn 0 = true ∧ (ph.tile 7).domOn (1 + 16383 / 512 % 4) = true ∧
    (ph.tile 7).domOn (5 + 2047 / 128 % 2) = true ∧ bits 16383 0 14 = 16383 ∧ bits (0x10000 + 2047) 16 2 = 1 ∧ bits (0x20000 + 63) 16 2 = 2 ∧
    (ph.a.core 0).pcx = true ∧ (ph.tile 0).vmode 0 = false ∧ ph.a.follows 0 = false ∧ ((firm alone).a.core 0).pcx = false := by decide +kernel
/-- R60, R87: CHWR of OPEN_CODE is bound to the phrase's effect frame and answers OK; AMP 65 is no amplitude (R184). -/
theorem test_chwr : let t := next (exec (.chwr .a 0 1 2 4 .clean) (g (g ph 2 5) 1 1000))
    ((t.a.flight 5).elim [] (·.effects)) = [.chan 0 5 4 1000] ∧ (t.a.core 0).reg 1 = 0 := by decide +kernel
theorem test_chwr_amp : let t := next (exec (.chwr .a 0 1 2 7 .clean) (g (g ph 2 5) 1 65))
    ((t.a.flight 5).elim [] (·.effects)) = [] ∧ (t.a.core 0).reg 1 = 0x14 := by decide +kernel
/-- KCORR of a channel reads 16,384 after reset (R126). -/
theorem test_chrd : reg (exec (.chrd .a 0 1 2 2 .clean) (g ph 2 5)) 1 ≠ 0x14 := by decide +kernel
theorem test_wit_LoopOperations : let k := ph.a.core 0
    let c := (ph.a.setFab fabVALID).setWord (0x00900000 + 4 * 13) 0x100
    c.buffer k.pl k.sec false 0x00500000 64 = .fine ∧ k.pcx = true ∧ c.loopImageOk 16383 0x10 0 0xFFFF0000 0 = true ∧
      c.loopImageOk 16383 0x10 0 0x0000FFFF 0 = false := by decide +kernel
/-- R61: FRETSET binds the fret and the lock. -/
theorem test_fretset : let t := next (exec (.fretset .a 0 1 0 11 .clean) (g ph 1 9))
    ((t.a.flight 5).elim [] (·.effects)) = [.fret 9 3 true] ∧ (t.a.core 0).reg 1 = 0 := by decide +kernel
/-- A slot in each state that the clauses of PlanSlotOperations and ArmAndCancel name. -/
theorem test_wit_PlanSlotOperations : let k := ph.a.core 0
    k.pcx = true ∧ ph.a.slotState 127 ≠ slARMED ∧ (ph.a.setSlotState 3 slARMED).slotState 3 = slARMED ∧
      (ph.a.setSlotState 3 slOPEN).slotState 3 = slOPEN ∧ (ph.a.setSlotState 3 slOPEN).entriesOk 3 = false ∧
      ph.a.buffer k.pl k.sec false 0x00500000 65536 = .fine ∧
      ((ph.a.setSlotState 3 slOPEN).setSlotState 4 slSEALED).chainOk 3 4 = true ∧
      (ph.a.setSlotState 3 slOPEN).chainOk 3 4 = false := by decide +kernel
/-- R62: PLBEG opens a FREE slot; PLADD of one entry counts it; an ARMED slot answers BUSY. -/
theorem test_plbeg : let t := next (exec (.plbeg .a 0 1 0 9 .clean) ph)
    t.a.slotState 9 = slOPEN ∧ (t.a.core 0).reg 1 = 0 := by decide +kernel
theorem test_pladd : let t := next (exec (.pladd .a 0 1 2 9 .clean) (g (g (ph.updStr .a fun c => c.setSlotState 9 slOPEN) 1 1) 2 0x00500000))
    t.a.slotCount 9 = 1 ∧ (t.a.core 0).reg 1 = 0 := by decide +kernel
theorem test_plbeg_armed : reg (exec (.plbeg .a 0 1 0 9 .clean) (ph.updStr .a fun c => c.setSlotState 9 slARMED)) 1 = 0x10 := by decide +kernel
theorem test_plseal_notopen : reg (exec (.plseal .a 0 1 2 9 .clean) ph) 1 = 0x13 := by decide +kernel
/-- A SEALED slot whose time 1 s is more than 50 us off; a time that is none; an armed stroke. -/
theorem test_wit_ArmAndCancel : let s := mem (ph.updStr .a fun c => c.setSlotState 3 slSEALED) 0x00500000 [0, 1, 0]
    let c := s.a
    c.buffer 2 false false 0x00500000 12 = .fine ∧ ofTs96 (c.words 0x00500000 3) = some 65536000000000 ∧ c.slotState 3 = slSEALED ∧
      c.isSuccessor 3 = false ∧ c.time + 50 * usT ≤ 65536000000000 ∧ ofTs96 [1000000000, 0, 0] = none ∧
      (State.budget s c 65536000000000 (c.strokeEnts (c.chainOf 3) 65536000000000)).2 = false ∧ s.stageFail 0 = false ∧ c.follows 0 = false := by
  decide +kernel
theorem test_plarm_badtime : reg (exec (.plarm .a 0 1 2 3 .clean) (g (mem ph 0x00500000 [1000000000, 0, 0]) 2 0x00500000)) 1 = 0x15 := by
  decide +kernel
theorem test_plcancel_free : reg (exec (.plcancel .a 0 1 0 3 .clean) ph) 1 = 0x13 := by decide +kernel
theorem test_plcancel_sealed : let t := next (exec (.plcancel .a 0 1 0 3 .clean) (ph.updStr .a fun c => c.setSlotState 3 slSEALED))
    t.a.slotState 3 = slFREE ∧ (t.a.core 0).reg 1 = 0 := by decide +kernel
/-- CALSET: a stopped calendar, and one that runs. -/
theorem test_wit_CalendarSet : let k := ph.a.core 0
    k.pcx = true ∧ ph.a.follows 0 = false ∧ ph.a.calState < calRUNNING ∧
      (ph.a.setFld Reg.PLAN_CALSTAT F.PLAN_CALSTAT.STATE calRUNNING).calState = calRUNNING ∧ ph.a.buffer k.pl k.sec false 0x00500000 32 = .fine := by
  decide +kernel
theorem test_calset_stop : reg (exec (.calset .a 0 1 0 2 .clean) ph) 1 = 0 := by decide +kernel
/-- Clauses of EventOperations: a phrase and channel 56, an enabled and a disabled group, SEEN, a wait that ends. -/
theorem test_wit_EventOperations : let c := ph.a.wr Reg.EVF_GRP 0x80
    bit (c.rd Reg.EVF_GRP) (56 / 8) = true ∧ bit (c.rd Reg.EVF_GRP) (55 / 8) = false ∧
      (c.setFld (Reg.EVF_CH 63) F.EVF_CH.SEEN 1).flag (Reg.EVF_CH 63) F.EVF_CH.SEEN = true ∧ c.flag (Reg.EVF_CH 63) F.EVF_CH.SEEN = false ∧
      ((((ph.updStr .a fun c => c.hold 0 (.event 1 56 true (some 5))).advance 5).a.core 0).wait = .event 1 56 true (some 5)) ∧
      5 ≤ ((ph.advance 5).a).time := by decide +kernel
/-- R63: EVFIRE of a channel in a disabled group answers GATED and counts; EVWAIT with timeout 0 answers TIMEOUT. -/
theorem test_evfire_gated : let t := next (exec (.evfire .a 0 1 0 60 .clean) (ph.updStr .a fun c => c.wr Reg.EVF_GRP 0x7F))
    (t.a.core 0).reg 1 = 0x1B ∧ t.a.fld Reg.EVF_CNT F.EVF_CNT.GATED = 1 := by decide +kernel
theorem test_evwait_timeout : reg (exec (.evwait .a 0 1 2 60 .clean) ph) 1 = 0x1C := by decide +kernel
/-- R353: a phrase may not name channel 55. -/
theorem test_evfire_priv : bits ((next (exec (.evfire .a 0 1 0 55 .clean) ph)).a.core 0).causeFw.toNat 0 8 = tPRIV := by decide +kernel
theorem test_wit_MailboxOperations : let c := (firm alone).a; let k := c.core 0
    c.domOn (c.mbxDom 4) = true ∧ c.buffer k.pl k.sec false 0x2000 64 = .fine ∧ c.buffer k.pl k.sec true 0x2000 64 = .fine ∧
      c.mbxFull 4 = false ∧ (c.setFld (Reg.MBX_STAT 4) F.MBX_STAT.FULL 1).mbxFull 4 = true ∧ k.sec = false := by decide +kernel
/-- R64: a full mailbox answers FULL, an empty one EMPTY; a header of length 16 takes OPERAND. -/
theorem test_mbpost_full : reg (exec (.mbpost .a 0 1 2 4 .clean)
    (g ((firm alone).updStr .a fun c => c.setFld (Reg.MBX_STAT 4) F.MBX_STAT.FULL 1) 2 0x2000)) 1 = 0x11 := by decide +kernel
theorem test_mbtake_empty : reg (exec (.mbtake .a 0 1 2 4 .clean) (g (firm alone) 2 0x2000)) 1 = 0x12 := by decide +kernel
theorem test_mbpost_len : bits ((next (exec (.mbpost .a 0 1 2 4 .clean) (mem (g (firm alone) 2 0x2000) 0x2000 [16]))).a.core 0).causeFw.toNat 0 8
    = tOPERAND := by decide +kernel
theorem test_wit_PegsAndTime : let c := ph.a
    c.domOn 62 = true ∧ c.domOn 60 = true ∧ c.pegTempOk = true ∧ (c.setFld (Reg.THM_SENS 63) F.THM_SENS.TEMP (126 * 128)).pegTempOk = false ∧
      c.buffer 2 false true 0x00500000 12 = .fine := by decide +kernel
/-- R65: PEGWR writes the word at once and answers OK; PEGRD reads it. -/
theorem test_pegwr : let t := next (exec (.pegwr .a 0 1 2 0 .clean) (g (g ph 1 0xABCD) 2 0x70010000))
    t.a.peg 0x70010000 = 0xABCD ∧ (t.a.core 0).reg 1 = 0 := by decide +kernel
theorem test_tsread : let t := next (exec (.tsread .a 0 1 2 0 .clean) (g (ph.updStr .a fun c => { c with time := instant 3 7 0x1234 }) 2 0x00500000))
    (t.a.core 0).reg 1 = 7 ∧ t.a.words 0x00500000 3 = [7, 3, 0x12340000] := by decide +kernel

/-! ## Services (R74, R452) -/

/-- Core 0 of string A in the handler of service `n` that its phrase called; `l` is what g3 on hold. -/
def svc (n : Nat) (l : List Nat) : State :=
  let s := ph.updStr .a fun c => c.updCore 0 fun k =>
    { k with status := 0x91, pc := 0x1000, epcFw := k.pc + 4, causeFw := BitVec.ofNat 32 (tSWTRAP + 512 + n * 4096) }
  l.zipIdx.foldl (fun (s : State) (e : Nat × Nat) => g s (3 + e.2) e.1) s

/-- The phrase's g2 after a service. -/
def status (o : Out) : Nat := reg o 2

theorem test_wit_ServiceResumesPhrase : let s := svc 0x040 []; let k := s.a.core 0
    s.a.serving 0 0x040 = true ∧ k.ppl false = 2 ∧ k.epcFw.toNat % 4 = 0 := by decide +kernel
theorem test_wit_services : [0x040, 0x041, 0x042, 0x043, 0x050, 0x060, 0x061, 0x062, 0x070, 0x071, 0x080, 0x090, 0x091, 0x0A0, 0x0B0, 0x0B1, 0x0B2,
    0x0B3, 0x0B4, 0x0B5, 0x0C0].all (fun n => (svc n []).a.serving 0 n) = true := by decide +kernel
/-- The same in a phrase with BARRIER. -/
def barrier (s : State) : State := s.updStr .a fun c => c.updFlight 5 fun f => { f with barrier := true }
theorem test_wit_DescriptorServices : let c := (barrier (svc 0x040 [64])).a
    c.hasBarrier 0 = true ∧ c.fabState ≠ fabLOADING ∧ c.quiescent = true ∧
      (((c.setFab fabLOADING).setFld Reg.FAB_STAT F.FAB_STAT.RING 5).loadOpen 5 = true) ∧ c.buffer 2 false false 0x00500000 64 = .fine := by
  decide +kernel
/-- R120: DLBEGIN in a BARRIER phrase opens the load; without BARRIER it answers BUSY. -/
theorem test_dlbegin : let t := next (exec (.dlbegin .a 0) (barrier (svc 0x040 [64])))
    t.a.fabState = fabLOADING ∧ t.a.dlLen = 64 ∧ (t.a.core 0).reg 2 = 0 ∧ (t.a.core 0).pl = 2 := by decide +kernel
theorem test_dlbegin_busy : status (exec (.dlbegin .a 0) (svc 0x040 [64])) = 0x10 := by decide +kernel
theorem test_dldata_notopen : status (exec (.dldata .a 0) (svc 0x041 [0, 0x00500000, 64])) = 0x13 := by decide +kernel
theorem test_dlabort : let t := next (exec (.dlabort .a 0) ((svc 0x043 []).updStr .a fun c =>
      (c.setFab fabLOADING).setFld Reg.FAB_STAT F.FAB_STAT.RING 5))
    t.a.fabState = fabNONE ∧ (t.a.core 0).reg 2 = 0 := by decide +kernel
theorem test_dlend_short : status (exec (.dlend .a 0) ((svc 0x042 []).updStr .a fun c =>
    { (c.setFab fabLOADING).setFld Reg.FAB_STAT F.FAB_STAT.RING 5 with dlLen := 64 })) = 0x14 := by decide +kernel
theorem test_wit_LoopAndRouteServices : let c := ph.a
    c.buffer 2 false false 0x00500000 0x28000 = .fine ∧ c.buffer 2 false true 0x00500000 32768 = .fine ∧ c.csetUsed 2047 = false ∧
      c.fabValid = false ∧ (c.setFab fabVALID).fabValid = true ∧ c.quiescent = true ∧ c.rte.staged = [] := by decide +kernel
/-- R61: CSETLOAD with g4 = 0 zeroes a set that no loop uses; a set over 2,047 answers BADVAL. -/
theorem test_csetload_zero : status (exec (.csetload .a 0) (svc 0x050 [2047, 0])) = 0 := by decide +kernel
theorem test_csetload_bad : status (exec (.csetload .a 0) (svc 0x050 [2048, 0])) = 0x14 := by decide +kernel
theorem test_rtsolve_bad : status (exec (.rtsolve .a 0 5) (svc 0x060 [0x00500000, 0, 0x00500000, 64, 0])) = 0x14 := by decide +kernel
theorem test_rtbind_busy : status (exec (.rtbind .a 0) (svc 0x061 [3])) = 0x10 := by decide +kernel
theorem test_rtset_busy : status (exec (.rtset .a 0) (svc 0x062 [0x00500000])) = 0x10 := by decide +kernel
theorem test_xtload_busy : status (exec (.xtload .a 0) (svc 0x070 [0, 0x00500000, 1])) = 0x10 := by decide +kernel
theorem test_xtprop_bad : status (exec (.xtprop .a 0) (svc 0x071 [0, 1, 0x00500000])) = 0x14 := by decide +kernel
theorem test_calload_bad : status (exec (.calload .a 0) (svc 0x080 [0x00500000, 4])) = 0x14 := by decide +kernel
theorem test_wit_ControlServices : let c := (svc 0x090 [64, 1, 1]).a
    c.id = .a ∧ bit ((c.core 0).reg 5) 0 = true ∧ severity 64 ≠ none ∧ c.flag Reg.ALV_CFG F.ALV_CFG.INJEN = false ∧
      (c.setFld Reg.ALV_CFG F.ALV_CFG.INJEN 1).flag Reg.ALV_CFG F.ALV_CFG.INJEN = true ∧ c.pegTempOk = true ∧
      c.buffer 2 false false 0x00500000 65536 = .fine ∧ severity 155 ≠ none ∧ severity 159 = none := by decide +kernel
/-- R370: FLTINJ while INJEN is 0 answers BUSY; with it the source is forced. -/
theorem test_fltinj_busy : status (exec (.fltinj .a 0) (svc 0x090 [64, 1, 1])) = 0x10 := by decide +kernel
theorem test_fltinj : let t := next (exec (.fltinj .a 0) ((svc 0x090 [64, 1, 1]).updStr .a fun c => c.setFld Reg.ALV_CFG F.ALV_CFG.INJEN 1))
    t.a.flag (Reg.ALV_SRC 64) F.ALV_SRC.FORCE = true ∧ t.a.flag (Reg.ALV_SRC 64) F.ALV_SRC.FSTICKY = true ∧ (t.a.core 0).reg 2 = 0 := by
  decide +kernel
theorem test_fltclr_bad : status (exec (.fltclr .a 0) (svc 0x091 [160, 0, 1])) = 0x14 := by decide +kernel
theorem test_evgrp : let t := next (exec (.evgrp .a 0) ((svc 0x0C0 [0x81, 0x02, 1]).updStr .a fun c => c.wr Reg.EVF_GRP 3)); t.a.rd Reg.EVF_GRP = 0x81 := by decide +kernel
theorem test_ageprio : let t := next (exec (.ageprio .a 0) (svc 0x0A0 [16383, 1, 7])); t.a.word (0x00F20000 + 8 * 16383) % 32768 = 7 := by
  decide +kernel
theorem test_flprog_bad : status (exec (.flprog .a 0) (svc 0x0B0 [0x400000, 0x00500000, 1, 8192 + 4])) = 0x14 := by decide +kernel
theorem test_fwtry : let t := next (exec (.fwtry .a 0) (svc 0x0B1 [1, 0, 1])); bits (t.a.peg 0x70000014) 1 2 = 2 := by decide +kernel
theorem test_svncommit_busy : status (exec (.svncommit .a 0) (svc 0x0B2 [2])) = 0x10 := by decide +kernel
theorem test_wit_SecurityServices : let c := (svc 0x0B3 [0x00500000, 96]).a
    c.id = .a ∧ c.buffer 2 false false 0x00500000 17296 = .fine ∧ c.buffer 2 false true 0x00500000 17280 = .fine ∧
      bit ((c.core 0).reg 5) 0 = false := by decide +kernel
/-- A key bundle without its signature is bad. -/
theorem test_keyload_bad : status (exec (.keyload .a 0) (svc 0x0B3 [0x00500000, 31])) = 0x14 := by decide +kernel
theorem test_dbgunlock_other : status (exec (.dbgunlock .a 0) (svc 0x0B4 [0x00500000, 0, 2])) = 0 := by decide +kernel
theorem test_attest_bad : status (exec (.attest .a 0) (svc 0x0B5 [0x00500000, 0x00500020])) = 0x14 := by decide +kernel

/-! ## More ill-formed commands -/

theorem test_conversionDone_wf : Instr.wf (.conversionDone 0 [⟨256, 0, 0, false⟩] 0) = false := by decide +kernel
theorem test_loadFaultDetect_wf : Instr.wf (.loadFaultDetect 0 (.short 2048) true 0) = false := by decide +kernel
theorem test_selfTest_wf : Instr.wf (.selfTest .a (.signature 4 true)) = false ∧ Instr.wf (.selfTest .a (.scrub 16 0 false false)) = false := by
  decide +kernel

/-! ## Rings and records (03_rings_ordering.md): witnesses and values -/

/-- The one element of a list is the oldest that `p` accepts. -/
theorem sole {α : Type} {p : α → Prop} {l : List α} {m : α} (hl : l = [m]) (hp : p m) : oldest p l m [] :=
  ⟨[], [], hl, rfl, hp, fun _ h => absurd h (by simp)⟩

/-- String `y` has sent `m` to its partner. -/
def send (s : State) (y : Str) (m : BMsg) : State := s.updStr y fun c => { c with outbox := c.outbox ++ [m] }

/-- String A alone, ring 5 fenced with slots 0 to 2 published and none claimed. -/
def fenced5 : State := alone.updStr .a fun c =>
  (c.setFld (Reg.RING_DB 5) F.RING_DB.PROD 3).setFld (Reg.RING_STAT 5) F.RING_STAT.FENCE 1

/-- The refusals, the two ways to publish, a fence with and without a phrase in flight, slots to flush; an empty tile of messages. -/
theorem test_wit_Doorbells : let c := fenced5.a
    c.role ≠ rSTANDBY ∧ c.fenced 5 = true ∧ c.flight 5 = none ∧ ((running5 fenced5 .a).a.flight 5).isSome = true ∧ c.joined = false ∧
      cntSub 256 (c.ringCons 5) ≤ 256 ∧ ¬cntSub 257 (c.ringCons 5) ≤ 256 ∧ cntSub (c.ringProd 5) (c.ringCons 5) = 3 ∧
      (pair.a.holds = true ∧ pair.a.joined = true) ∧ pair.b.role = rSTANDBY ∧ pair.a.fenced 4 = false := by decide +kernel
/-- A mirrored doorbell that waits in string A. -/
def mirrored : State := (send pair .a (.doorbell 5 1 0 [] none)).updStr .a fun c => { c with ring := { c.ring with dbWait := [(5, 1, 0)] } }
theorem test_wit_Doorbells_mirror :
    mirrored.incoming .b (fun q => ∃ n p k l i, q = .doorbell n p k l i) (.doorbell 5 1 0 [] none) [] ∧
      oldest (fun q => q = (5, 1, 0)) (mirrored.str Str.b.other).ring.dbWait (5, 1, 0) [] :=
  ⟨sole rfl ⟨5, 1, 0, [], none, rfl⟩, sole rfl rfl⟩
/-- R82: 257 slots ahead is refused and counted; 256 is accepted. -/
theorem test_db_257 : (next (exec (.ringDbPublish .a 5 257 true) alone)).a.fld Reg.RING_DISC F.RING_DISC.DBREF = 1 := by decide +kernel
theorem test_db_256 : (next (exec (.ringDbPublish .a 5 256 true) alone)).a.ringProd 5 = 256 := by decide +kernel
/-- R82, R83: CMD 2 flushes the three slots with one record and clears the fence; CMD 1 clears it alone. -/
theorem test_db_flush : let t := next (exec (.ringDbFlush .a 5 3 true) fenced5)
    t.a.fenced 5 = false ∧ t.a.ringCons 5 = 3 := by decide +kernel
theorem test_db_continue : let t := next (exec (.ringDbContinue .a 5 5 true) fenced5)
    t.a.fenced 5 = false ∧ t.a.ringProd 5 = 5 ∧ t.a.ringCons 5 = 0 := by decide +kernel
theorem test_db_refused : (next (exec (.ringDbRefused .a 5 0 true) alone)).a.fld Reg.RING_DISC F.RING_DISC.DBREF = 1 := by decide +kernel
theorem test_db_mirror : (next (exec (.doorbellMirror .b) mirrored)).a.ringProd 5 = 1 := by decide +kernel

/-- A phrase of one slot and 4 instructions, LEAD 0, with arguments 10 to 13, published in slot 0 of ring 5 of both strings. -/
def offer (s : State) : State :=
  let f := fun (c : StringSt) => ((c.setWords (slotAddr 5 0) [0x0001005A, 0x00070004, 0, 0, 10, 11, 12, 13]).setFld (Reg.RING_DB 5)
    F.RING_DB.PROD 1).wr Reg.RING_EN 0xFFFF
  (s.updStr .a f).updStr .b f
def claimer (s : State) (x : Str) : State := s.updStr x fun c => c.updCore 0 fun k => { k with status := 1 }

/-- A core that may claim with nothing, and with a phrase alone and joined; one that may not; a phrase at its budget. -/
theorem test_wit_ClaimsAndEntries : let u := (claimer (offer alone) .a).advance 1
    (u.a.mayClaim 0 = true ∧ (u.a.nextClaim.map fun r => (r.1, r.2.1, r.2.2.2)) = some (5, 0, 0) ∧ u.a.joined = false) ∧
      (let v := (claimer (offer pair) .a).advance 1; v.a.mayClaim 0 = true ∧ v.a.nextClaim.isSome = true ∧ v.a.joined = true) ∧
      ((claimer alone .a).a.mayClaim 0 = true ∧ (claimer alone .a).a.nextClaim.isNone = true) ∧ alone.a.mayClaim 0 = false ∧
      (let k := ph.a.core 0; k.pl = 2 ∧ k.run = .running ∧ k.wait = .idle ∧
        ((ph.updStr .a fun c => c.updFlight 5 fun f => { f with count := 65536 }).a.flight k.ring).any (fun f => decide (f.budget ≤ f.count)) = true) := by
  decide +kernel
def claimed : State := send (claimer (offer pair) .b) .a (.claim ⟨1, 5, 0, 1, 0, 0⟩)
theorem test_wit_claimEntry : claimed.incoming .b (fun q => ∃ e, q = .claim e) (.claim ⟨1, 5, 0, 1, 0, 0⟩) [] ∧
    (claimed.str .b).role = rSTANDBY ∧ (claimed.str .b).mayClaim 0 = true := ⟨sole rfl ⟨_, rfl⟩, by decide +kernel⟩
theorem test_wit_retireEntry :
    let s := send (pair.updStr .b fun c => { c with ring := { c.ring with recs := [Rec.plain 5 1 0 0 1 7 9 false 0 |> fun r => { r with entry := false }] } })
      .a (.retire 9 (some 1000))
    s.incoming .b (fun q => ∃ g e, q = .retire g e ∧ (s.str .b).ring.recs.any (fun r => r.gseq == g && !r.entry) = true) (.retire 9 (some 1000)) [] :=
  sole rfl ⟨9, some 1000, rfl, by decide +kernel⟩
/-- R80, R86: the claim takes the next GSEQ and the core starts behind the header with its arguments. -/
theorem test_claim : let t := next (exec (.phraseClaim .a 0 1) (claimer (offer alone) .a)); let k := t.a.core 0
    k.pl = 2 ∧ k.pc.toNat = slotAddr 5 0 + 32 ∧ k.reg 2 = 10 ∧ k.reg 5 = 13 ∧ (t.a.flight 5).any (fun f => decide (f.tag = 7)) = true := by decide +kernel
theorem test_claimEntry : let t := next (exec (.claimEntry .b 0) claimed)
    (t.b.core 0).pl = 2 ∧ t.b.gseqNext = 2 ∧ t.a.commitSeq = 1 := by decide +kernel
/-- R100: the kill leaves a KILLED record and a fenced ring. -/
theorem test_killed : let t := next (exec (.phraseKilled .a 0 1) (ph.updStr .a fun c => c.updFlight 5 fun f => { f with count := 65536 }))
    t.a.fenced 5 = true ∧ (t.a.ring.recs.map (·.status)) = [recKILLED] ∧ (t.a.core 0).pl = 1 := by decide +kernel

/-- The corrected P2 of the worked example: record 512 of ring 5, retired by string A (R88, R89). -/
def rec512 : Rec := { Rec.plain 5 recDONE 0 3 1 0x0104 1043 true 0x10000 with
  bound := true
  eff := some (instant 1700000000 250040000 0) }
def posts : State := alone.updStr .a fun c =>
  { (c.setFld (Reg.RING_CQCFG 5) F.RING_CQCFG.EN 1).setFld (Reg.RING_CQCFG 5) F.RING_CQCFG.CNT 512 with ring := { c.ring with recs := [rec512] } }
theorem test_wit_RecordsPosted : posts.a.holds = true ∧ posts.a.ring.recs.find? (fun r => r.ring == 5 && r.sent && r.applied) = some rec512 ∧
    posts.a.pwr.dorm ≠ some rec512.gseq ∧ posts.a.ring.kept = [] ∧ State.reset.a.holds = false ∧ alone.a.ring.recs = [] := by decide +kernel
/-- 03_rings_ordering.md, worked example, step 6: words 0, 6 and 7 of record 512, at index 0 of the queue. -/
theorem test_post_words : let t := next (exec (.completionPost .a 5 false) posts)
    t.hostMem.word 0x10000 = 0x85030000 ∧ t.hostMem.word (0x10000 + 24) = 0x0EE74EC0 ∧
      t.hostMem.word (0x10000 + 28) % 65536 = 0xF100 := by decide +kernel
theorem test_post_cons : let t := next (exec (.completionPost .a 5 true) posts)
    t.a.ringCons 5 = 1 ∧ t.hostMem = [] ∧ t.a.rd (Reg.RING_LSEQ_L 5) = 1043 := by decide +kernel
def marked : State := send (pair.updStr .b fun c => { c with ring := { c.ring with recs := [rec512] } }) .a (.posted 5 1043 3 1)
theorem test_wit_postedMark : marked.incoming .b (fun q => ∃ n g k ns, q = .posted n g k ns ∧
      ((marked.str .b).ring.recs.any fun r => r.ring == n && r.gseq == g && r.slot == k) = true) (.posted 5 1043 3 1) [] ∧
    (marked.str .b).ring.recs.find? (fun q => q.ring == 5 && q.gseq == 1043 && q.slot == 3) = some rec512 :=
  ⟨sole rfl ⟨5, 1043, 3, 1, rfl, by decide +kernel⟩, by decide +kernel⟩
theorem test_postedMark : let t := next (exec (.postedMark .b) marked); t.b.ringCons 5 = 1 ∧ t.b.ring.recs = [] := by decide +kernel

/-! ## Effects and outcomes (R87, R58) -/

def due : State := alone.updStr .a fun c => { c with ring := { c.ring with recs := [{ Rec.plain 5 1 0 3 1 7 9 false 0 with
  bound := true
  eff := some 0
  effects := [.chan 0 5 4 1000]
  applied := false
  sent := false }] } }
theorem test_wit_EffectsAndOutcomes : (State.dueRecs (due.advance 1).a (fun r => !r.applied)).length = 1 ∧
    State.dueRecs (due.advance 1).b (fun r => !r.applied) = [] := by decide +kernel
theorem test_effectFrame : (next (exec (.effectFrameApply 1) due)).a.word (actRec 5) % 65536 = 1000 := by decide +kernel
/-- Core 0 of the standby waits for the value of its own phrase, whose own status was 3. -/
def awaits (f : Follow) : State := send (pair.updStr .b fun c => c.updCore 0 fun k => { k with wait := .outcome 1 f }) .a (.outcome 0 ⟨5, 0, 0, false⟩)
theorem test_wit_outcome : ∀ f, (awaits f).incoming .b (fun q => ∃ g o, q = BMsg.outcome g o ∧ ∃ i gd h, i < 4 ∧
    (((awaits f).str .b).core i).wait = .outcome gd h ∧ (((awaits f).str .b).core i).gseq = g) (.outcome 0 ⟨5, 0, 0, false⟩) [] :=
  fun f => sole rfl ⟨0, _, rfl, 0, 1, f, by decide, rfl, rfl⟩
theorem test_outcome : let t := next (exec (.operationOutcome .b) (awaits (.plain (some 3))))
    (t.b.core 0).reg 1 = 5 ∧ (t.b.core 0).wait = .idle ∧ t.a.outbox = [] := by decide +kernel

/-! ## Registers and the debug block -/

theorem test_wit_RegistersAndDebug : let c := alone.a
    ((regAt 0).isNone = true ∨ alone.regOn .a Reg.PLAN_CFG = true) ∧ (regAt 0x3FFF0).isNone = true ∧
      [Reg.PLAN_CFG, Reg.CAL_CFG, Reg.CAL_CFG2, Reg.RED_CFG, Reg.RED_SWAP, Reg.RTE_CFG, Reg.AGE_CFG, Reg.AGE_THR, Reg.ALV_CFG, Reg.QSPI_CNT,
        Reg.EVF_CNT, Reg.AGE_CNT].all (fun a => alone.regOn .a a) = true ∧
      c.banksOn 0x440000 4 = true ∧ c.banksOn 0x5FFFFC 4 = true ∧ pair.b.role = rSTANDBY ∧ c.flag Reg.SEC_BOOT F.SEC_BOOT.DBGUNL = false ∧
      c.domOn 1 = true ∧ (c.core 1).run = .notReleased := by decide +kernel
/-- The debug block unlocked, core 1 halted by it, in BOOT. -/
def debugged : State := withA fun c => let c := (c.setWord 0x2000 0x04000001).setFld Reg.SEC_BOOT F.SEC_BOOT.DBGUNL 1
  c.updCore 1 fun k => { k with run := .running, dbgHalt := true, pc := 0x2000, text := c.sram }
theorem test_wit_debug : let c := debugged.a
    c.flag Reg.SEC_BOOT F.SEC_BOOT.DBGUNL = true ∧ c.domOn 1 = true ∧ c.role = rBOOT ∧ (c.core 1).dbgHalt = true ∧
      (debugged.dbgWord .a 0).isSome = true ∧ (debugged.dbgWord .a 0x30000000).isNone = true ∧ c.ramOk 0x1FFFFFC 4 = true ∧
      (decodeInsn (fetchWord c 1)).isSome = true := by decide +kernel
theorem test_dbgWrite : let t := next (exec (.dbgDataWrite .a 0x12345678) debugged)
    t.a.word 0 = 0x12345678 ∧ t.a.rd Reg.DBG_ADDR = 4 := by decide +kernel
theorem test_dbgRead : (next (exec (.dbgDataRead .a) debugged)).a.rd Reg.DBG_ADDR = 4 := by decide +kernel
theorem test_dbgHalt : ((next (exec (.dbgCtlHalt .a 0 true) debugged)).a.core 0).dbgHalt = true := by decide +kernel
theorem test_dbgStep : ((next (exec (.dbgCtlStep .a 1 true) debugged)).a.core 1).pc = 0x2004 := by decide +kernel
theorem test_regWrite : (next (exec (.registerWrite .a (BitVec.ofNat 18 Reg.PLAN_CFG) 0xFFFFFFFF .host) alone)).a.rd Reg.PLAN_CFG
    = alone.a.rd Reg.PLAN_CFG := by decide +kernel
theorem test_rcRead : (next (exec (.rcRead .a (BitVec.ofNat 18 Reg.EVF_CNT) false) (alone.updStr .a fun c => c.wr Reg.EVF_CNT 0x00050003))).a.rd
    Reg.EVF_CNT = 0 := by decide +kernel
theorem test_cqEnable : (next (exec (.ringCqcfgEnable .a 5) alone)).a.cqEn 5 = true := by decide +kernel
theorem test_seqStart : let t := next (exec (.seqStartGo .a 0xE) alone); (t.a.core 3).run = .running ∧ (t.a.core 3).pc = 0x7F000100 := by decide +kernel
theorem test_bar2 : (next (exec (.bar2HostWrite .a 0x500004 7) alone)).a.word 0x500004 = 7 := by decide +kernel

/-! ## Event fabric and mailboxes (15_events_mailboxes.md) -/

/-- A channel with its group off and on and no consumer; a pulse before and at its end; consumers that are held and not. -/
theorem test_wit_EventFabricCommands : let c := alone.a
    (c.wr Reg.EVF_GRP 0x7F).grpOn 60 = false ∧ c.grpOn 60 = true ∧ (List.range 92).all (fun j => !c.joins 60 j) = true ∧
      (List.range 4).all (fun i => decide ((c.core i).wait = .idle)) = true ∧
      (let p := alone.updStr .a fun c => { c with evf := { c.evf with outEnd := some 10 } };
        (p.advance 10).a.evf.outEnd = some 10 ∧ (p.advance 10).a.time = 10 ∧ (p.advance 9).a.time = 9) ∧
      (StringSt.consumerDom 80).any (fun n => c.domOn n) = true ∧ (StringSt.consumerDom 83).any (fun n => c.domOn n) = false ∧ (StringSt.consumerDom 85).any (fun n => c.domOn n) = true ∧ c.evf.deferred = [] := by decide +kernel
theorem test_evfFire : let t := next (exec (.evfFireWrite .a 60) alone)
    t.a.flag (Reg.EVF_CH 60) F.EVF_CH.SEEN = true ∧ t.a.fld (Reg.EVF_CH 60) F.EVF_CH.COUNT = 1 := by decide +kernel
theorem test_cstat : (next (exec (.evfCstatClear .a 1) (alone.updStr .a fun c => c.wr Reg.EVF_CSTAT 3))).a.rd Reg.EVF_CSTAT = 2 := by decide +kernel
theorem test_relay : (next (exec (.relayLatchEmpty .a 9) (alone.updStr .a fun c => { c with evf := { c.evf with full := [9, 10] } }))).a.evf.full
    = [10] := by decide +kernel
theorem test_outEnd : (next (exec (.evtOutPulseEnd .a 10) (alone.updStr .a fun c => { c with evf := { c.evf with outEnd := some 10, full := [84] } }))).a.evf.full
    = [] := by decide +kernel
theorem test_deferred : let t := next (exec (.consumerDeferredAct .a 80) (alone.updStr .a fun c => { c with evf := { c.evf with deferred := [80] } }))
    t.a.evf.deferred = [] ∧ bit (t.a.rd Reg.EVF_CSTAT) 0 = true := by decide +kernel
theorem test_evtIn : (next (exec (.evtInEdge ⟨true, 40⟩) alone)).evtIn = true := by decide +kernel

/-- The worked example of mailboxes 6 and 7: the last sequence number of mailbox 6 is 8, they pair, and 6 holds the host's message. -/
def box : StringSt := (((alone.a.setFld (Reg.MBX_STAT 6) F.MBX_STAT.LASTSEQ 8).wr (Reg.MBX_HSTAGE 0) 0x2103).wr (Reg.MBX_HSTAGE 1) 0xAAAA)
def boxes : State := State.reset.setStr .a box
theorem test_wit_MailboxCommands : let c := box
    c.mbxFull 6 = false ∧ bits (c.rd (Reg.MBX_HSTAGE 0)) 0 5 = 3 ∧ c.domOn (c.mbxDom 6) = true ∧
      (c.setFld (Reg.MBX_STAT 6) F.MBX_STAT.FULL 1).mbxFull 6 = true ∧ (c.wr (Reg.PWR_SDOM 0) 0).domOn (c.mbxDom 6) = false ∧
      (List.range 16).all (fun j => !c.mbxFull j) = true := by decide +kernel
/-- 15_events_mailboxes.md, worked example: HRES 0x0000_0600; the data of mailbox 6 before the cross is 0x0409_2103, and the marks. -/
theorem test_hpost : let t := next (exec (.mbxHpost .a 6) boxes)
    t.a.rd Reg.MBX_HRES = 0x600 ∧ t.a.rd (Reg.MBX_DATA 6 0) % 0x10000000 = 0x04092103 ∧ t.a.rd (Reg.MBX_DATA 6 1) = 0xAAAA := by decide +kernel
theorem test_htake_empty : (next (exec (.mbxHtake .a 7) boxes)).a.rd Reg.MBX_HRES = 0x1712 := by decide +kernel
theorem test_hpost_low : (next (exec (.mbxHpost .a 3) boxes)).a.rd Reg.MBX_HRES = 0x314 := by decide +kernel
theorem test_eprst : let s := next (exec (.mbxHpost .a 6) boxes)
    (next (exec (.mbxEprstWrite .a 16 true) s)).a.mbxOrphan 6 = true ∧ (next (exec (.mbxEprstWrite .a 15 true) s)).a.mbxOrphan 6 = false := by
  decide +kernel

/-! ## Recorder (16_faults.md) -/

theorem test_wit_RecorderCommands : severity 4 = some 3 ∧ severity 159 = none ∧ severity 75 = some 0 ∧
    (let s := alone.updStr .a fun c => { c with alv := { c.alv with deadline := some 5, missed := false, suspended := false } };
      let e := (s.advance 5).a; e.alv.deadline = some 5 ∧ e.time = 5 ∧ e.alv.missed = false ∧ e.alv.suspended = false) ∧
    alone.a.flag Reg.ALV_FIRSTFAULT F.ALV_FIRSTFAULT.VALID = false := by decide +kernel
/-- 16_faults.md, worked example: word 0 of records 17 and 18. -/
theorem test_record_fatal : ((alone.a.setFld Reg.ALV_SUM F.ALV_SUM.LSEQ 17).record true (4, 0, true)).word (0x00F00000 + 16 * 17) = 0x00110F04 := by
  decide +kernel
theorem test_record_note : ((alone.a.setFld Reg.ALV_SUM F.ALV_SUM.LSEQ 18).record true (75, 0xBC, false)).word (0x00F00000 + 16 * 18) = 0x0012084B := by
  decide +kernel
theorem test_force_fatal : (next (exec (.alvSrcForce .a ⟨4, []⟩) alone)).a.role = rFAILED ∧
    (next (exec (.alvSrcForce .a ⟨4, []⟩) alone)).a.flag (Reg.ALV_SRC 4) F.ALV_SRC.FORCE = true := by decide +kernel
theorem test_hbeat : (next (exec (.alvHbeat .a 9 7) alone)).a.alv.deadline = some (7 + max 1 (alone.a.fld Reg.ALV_CFG F.ALV_CFG.HBDL) * 6553600000) := by
  decide +kernel
theorem test_hbMiss : (next (exec (.heartbeatMiss .a 5) (alone.updStr .a fun c => { c with alv := { c.alv with deadline := some 5 } }))).a.alv.missed = true := by
  decide +kernel
theorem test_alive : (next (exec (.aliveToggle .a) (alone.updStr .a fun c => { c with alv := { c.alv with deadline := some 5 } }))).a.alv.alive = true := by
  decide +kernel
theorem test_tileFailed : (next (exec (.tileFailed .a ⟨2, true, 1⟩) alone)).a.flag (Reg.ALV_SRC 64) F.ALV_SRC.LIVE = true := by decide +kernel
/-- Tile 3 reports `r` to string A. -/
def reports (s : State) (r : TRep) : State := s.setTile 3 { s.tile 3 with toA := (s.tile 3).toA ++ [r] }
theorem test_wit_condition : oldest (fun r => ∃ k i p, r = .cond k i p) (((reports alone (.cond (some 3) 0 none)).tile 3).reports .a)
    (.cond (some 3) 0 none) [] := sole rfl ⟨some 3, 0, none, rfl⟩
theorem test_condition : ((next (exec (.tileConditionReport .a [3]) (reports alone (.cond none 0 (some 7))))).tile 3).toA = [] := by decide +kernel

/-! ## Plans and strokes: messages between strings and tiles (10_plans_strokes.md) -/

/-- String A has sent `m` to tile 3. -/
def tell (s : State) (m : TMsg) : State := s.updStr .a fun c => { c with toTile := c.toTile ++ [(3, m)] }
/-- A share of one entry, due at 1 ms. -/
def share1 : TMsg := .share 9 77 65536000000 false [⟨5, 1000, 131072000000, 2⟩] []
def buf1 (st : BufState) : Buf := ⟨st, false, 9, 77, 65536000000, [⟨5, 1000, 131072000000, 1, 0, 0⟩], [], false, []⟩
/-- String A holds the line, which tile 3 follows in tile hold. -/
def owned : State :=
  let s := alone.updStr .a fun c => { c with red := { c.red with line := true } }
  s.setTile 3 { s.tile 3 with hold := true, capoA := true, master := some .a }
/-- Tile 3 holds that share in buffer 0. -/
def holding (st : BufState) : State := owned.setTile 3 { owned.tile 3 with bufs := [(0, buf1 st)] }

theorem test_wit_SharesInTile : ((owned.advance 1).tile 3).domOn 0 = true ∧ ((owned.advance 1).tile 3).hold = true ∧
    (owned.tile 3).capo = some .a ∧ ((owned.tile 3).freeBufFor false).isSome = true ∧ (((holding .staged).advance 1).tile 3).bufOf 77 = some (0, buf1 .staged) := by decide +kernel
theorem test_wit_share : oldest (fun q : Nat × TMsg => q.1 = 3 ∧ ∃ k q' ts cal l g, q.2 = TMsg.share k q' ts cal l g)
    (((tell owned share1).advance 1).str .a).toTile (3, share1) [] := sole rfl ⟨rfl, _, _, _, _, _, _, rfl⟩
/-- Out of tile hold the share is staged and acknowledged; in tile hold it is refused (R246). -/
def calm (s : State) : State := s.setTile 3 { s.tile 3 with hold := false }
theorem test_stage : let t := next (exec (.shareStage 3 .a 1) (calm (tell owned share1)))
    ((t.tile 3).buf 0).state = .staged ∧ (t.tile 3).toA = [.stageAck 9 77 true] := by decide +kernel
theorem test_stage_hold : ((next (exec (.shareStage 3 .a 1) (tell owned share1))).tile 3).toA = [.stageAck 9 77 false] := by decide +kernel
theorem test_digest : ((next (exec (.shareDigest 3 .a) (tell (holding .staged) (.digest 9 77 [1#8])))).tile 3).toB = [.digest 9 77] := by decide +kernel
theorem test_withdraw : let t := next (exec (.withdrawRequest 3 .a 1) (tell (holding .staged) (.withdraw 9 77 false)))
    ((t.tile 3).buf 0).state = .suspended ∧ (t.tile 3).toA = [.withdrawReply 9 77 true] := by decide +kernel
theorem test_commit : let t := next (exec (.withdrawCommit 3 .a) (tell (holding .suspended) (.commit 9 77)))
    (t.tile 3).bufs = [] ∧ (t.tile 3).toA = [.withdrawAck 9 77] := by decide +kernel
theorem test_restore : ((next (exec (.withdrawRestore 3 .a) (tell (holding .suspended) (.restore 9 77)))).tile 3).buf 0 = buf1 .staged := by
  decide +kernel

/-- The stroke of that share, of tile 3 alone. -/
def stroke1 : Stroke := ⟨9, [9], 77, 65536000000, false, [], 8, 0, 0, false, none, false, false, false, false, false, [], [], false, []⟩
def armer (s : State) : State := s.updStr .a fun c =>
  { c.updCore 0 fun k => { k with wait := .arm 1 9, run := .waiting } with
    plan := { c.plan with arming := [⟨some 0, 1, stroke1, 0, 0, 0, 0, 0, false⟩] } }
def withdrawing (sent : Option Bool) : State := ph.updStr .a fun c =>
  { c.updCore 0 fun k => { k with wait := .cancel 1 9, run := .waiting } with
    plan := { c.plan with strokes := [stroke1], withdrawing := [⟨some 0, 1, none, 9, 77, 8, 0, 0, false, sent, 8, 0⟩] } }
theorem test_wit_ReportsOfTiles : let c := (armer ph).a
    c.plan.arming.find? (fun g => g.stroke.armSeq == 77) = some ⟨some 0, 1, stroke1, 0, 0, 0, 0, 0, false⟩ ∧ (c.core 0).wait = .arm 1 9 ∧
      (0 ||| 2 ^ 3 = stroke1.tiles) ∧ stroke1.cal = false ∧
      ((withdrawing (some true)).a.plan.withdrawing.find? fun w => decide (w.armSeq = 77) && w.sent.isSome).isSome = true ∧
      ((withdrawing none).a.core 0).wait = .cancel 1 9 ∧ c.role ≠ rJOINING ∧ pair.b.role = rSTANDBY ∧ c.holds = true ∧
      bit stroke1.tiles 3 = true := by decide +kernel
theorem test_wit_ack : oldest (fun r => ∃ k q ok, r = TRep.stageAck k q ok) (((reports (armer ph) (.stageAck 9 77 true)).tile 3).reports .a)
    (.stageAck 9 77 true) [] := sole rfl ⟨_, _, _, rfl⟩
theorem test_ack : let t := next (exec (.shareAck .a 3) (reports (armer ph) (.stageAck 9 77 true)))
    t.a.slotState 9 = slARMED ∧ (t.a.core 0).reg 1 = 0 ∧ t.a.plan.strokes = [stroke1] ∧ (t.a.core 0).wait = .idle := by decide +kernel
theorem test_ack_refused : ((next (exec (.shareAck .a 3) (reports (armer ph) (.stageAck 9 77 false)))).a.core 0).reg 1 = 0x19 := by decide +kernel
theorem test_reply : (next (exec (.withdrawReply .a 3) (reports (withdrawing none) (.withdrawReply 9 77 true)))).a.toTile = [(3, .commit 9 77)] := by
  decide +kernel
theorem test_wack : let t := next (exec (.withdrawAck .a 3) (reports (withdrawing (some true)) (.withdrawAck 9 77)))
    (t.a.core 0).reg 1 = 0 ∧ t.a.fld Reg.PLAN_CANCEL F.PLAN_CANCEL.LO = 1 := by decide +kernel
theorem test_played : let t := next (exec (.strokeReport .a 3) (reports (withdrawing none) (.played 9 77 false [])))
    (t.a.plan.strokes.map fun r => (r.played, r.past)) = [(8, true)] := by decide +kernel
theorem test_missed : let t := next (exec (.missedReport .a 3) (reports (withdrawing none) (.missed 9 77)))
    (t.a.plan.strokes.map (·.missed)) = [8] := by decide +kernel

/-! ## Tiles: strokes, codes, engines (01, 07, 08, 10) -/

/-- String A is ACTIVE and holds the line, which tile 3 follows; `f` changes the tile. -/
def led (f : TileSt → TileSt) : State :=
  let s := alone.updStr .a fun c => { c with red := { c.red with line := true } }
  s.setTile 3 (f { s.tile 3 with hold := false, capoA := true, master := some .a })
/-- Its channel 5 at power 30,000, with a bow from it to 1,000 that ends at 2 ms, at time `t`. -/
def bow5 : Bow := ⟨0, 77, 30000, 1000, 1, 0, 0, 65536000000, 131072000000, false⟩
def bowing (t : Nat) (d : TileSt) : TileSt :=
  { d.setChan 5 { d.chan 5 with power := 30000, bow := some bow5 } with time := t, bufs := [(0, buf1 .playing)] }
def staged (t : Nat) (d : TileSt) : TileSt := { d with time := t, bufs := [(0, buf1 .staged)] }

theorem test_wit_StrokesAndHold : let d := ((led (staged 65536000000)).advance 1).tile 3
    d.domOn 0 = true ∧ d.hold = false ∧ Tab.wf (fun _ => Chan.cold) d.chans = true ∧ d.bufs = [(0, buf1 .staged)] ∧
      (buf1 .staged).ts ≤ d.time / gridT * gridT ∧ (buf1 .staged).ents = [⟨5, 1000, 131072000000, 1, 0, 0⟩] := by decide +kernel
theorem test_wit_bow : let d := ((led (bowing 131072000000)).advance 1).tile 3
    (d.chan 5).bow = some bow5 ∧ bow5.te ≤ d.time ∧ (((led (bowing 65536100000)).advance 1).tile 3).time < bow5.te ∧
      d.capo = some .a ∧ (led id).capo = some .a ∧ State.reset.capo = none ∧
      (((led (staged 0)).setTile 3 { (led id).tile 3 with missRun := 16 }).tile 3).missRun = 16 := by decide +kernel
/-- A record of string A for the frame, no element of it, with no allowance needed. -/
theorem test_wit_frameCode : let d := ((led fun d => { d with codesA := [⟨0, [(5, 700)], none⟩] }).advance 1).tile 3
    (d.capo.bind fun y => d.codeRec y 0) = some ⟨0, [(5, 700)], none⟩ ∧ d.starting 0 = [] ∧
      d.steadyWith [] (d.frameLoads 0 [] [(5, 700)]) ≤ d.allowance := by decide +kernel
/-- A due stroke plays; at its t_e channel 5 takes P1; in tile hold it is missed (R248, R249, R251). -/
theorem test_strokeStart : let d := (next (exec (.strokeStart 3 1) (led (staged 65536000000)))).tile 3
    (d.chan 5).bow.isSome = true ∧ (d.buf 0).state = .playing := by decide +kernel
theorem test_strokeStart_hold : ((next (exec (.strokeStart 3 1) (led fun d => { staged 65536000000 d with hold := true }))).tile 3).toA
    = [.missed 9 77] := by decide +kernel
theorem test_settle : let d := (next (exec (.settleHoldEnd 3 1) (led (bowing 131072000000)))).tile 3
    (d.chan 5).openCode = 1000 ∧ d.bufs = [] := by decide +kernel
theorem test_bowStep : ((((next (exec (.bowStep 3 1) (led (bowing 98304000000)))).tile 3).chan 5).power ≠ 30000) := by decide +kernel
theorem test_missedCodes : let d := (next (exec (.missedCodesHold 3 1) (led fun d => { d with missRun := 16 }))).tile 3
    d.hold = true ∧ d.toA = [.cond none 0 (some 7), .cond (some 3) 0 none] := by decide +kernel
theorem test_capoSample : let d := (next (exec (.capoSample 3 (9 * usT)) (led fun d => { d with hold := true, capoA := false, master := none }))).tile 3
    d.master = some .a ∧ d.capo = some .a := by decide +kernel
theorem test_capoSample_none : ((next (exec (.capoSample 3 (9 * usT)) alone)).tile 3).freeRun = true := by decide +kernel
theorem test_frameCode : let d := (next (exec (.frameCodeLoad 3 1) (led fun d =>
    { d.setChan 5 { d.chan 5 with loop := some 0 } with hold := true, codesA := [⟨0, [(5, 700)], none⟩] }))).tile 3
    d.hold = false ∧ (d.chan 5).power = 700 := by decide +kernel

def coded : State := (led id).updStr .a fun c => { c with eng := { c.eng with codes := [(3, 4, (5, 700))] } }
theorem test_wit_CodesAndRecords : let c := (coded.advance 1).a
    c.holds = true ∧ State.reset.a.holds = false ∧ State.reset.a.role ≠ rSTANDBY ∧ ((coded.advance 1).tile 3).time + 500 * nsT ≤ 4 * frameT ∧
      ¬((coded.advance 1).tile 3).time + 500 * nsT ≤ 0 * frameT ∧ (c.recordOf 3 4).isNone = true ∧ c.paired = false ∧ pair.b.paired = true ∧
      pair.a.brgUp = true ∧ c.isAbsent 3 4 = false ∧ ¬(c.time < 0 * frameT) := by decide +kernel
/-- Both strings' records of a frame, differing in the code of channel 5 (R296). -/
def compared (p : Nat) : State := led fun d => { d with cmpFrom := some 0, codesA := [⟨0, [(5, 700)], none⟩, ⟨1, [(5, 700)], none⟩], codesB :=
  [⟨0, [(5, p)], none⟩, ⟨1, [(5, p)], none⟩] }
theorem test_wit_compare : let d := ((compared 701).advance 1).tile 3
    d.cmpFrom = some 0 ∧ d.capo = some .a ∧ frameOf (d.time + frameT - 1) = 1 ∧ d.codeRec .a 1 = some ⟨1, [(5, 700)], none⟩ ∧
      d.codeRec .b 1 = some ⟨1, [(5, 701)], none⟩ ∧ d.mmLast = [] := by decide +kernel
theorem test_codeRecord : let t := next (exec (.codeRecord 3 .a 4 1) coded)
    (t.tile 3).codesA.map (·.codes) = [[(5, 700)]] ∧ t.a.rd (Reg.TLK_CODES 3) = 1 := by decide +kernel
theorem test_deadline : let t := next (exec (.codeDeadline 3 1) (compared 701))
    t.a.fld (Reg.RED_CMPERR 3) F.RED_CMPERR.MM = 1 ∧ (t.tile 3).toB = [.mismatch 5 1 700 701] := by decide +kernel
theorem test_deadline_same : (next (exec (.codeDeadline 3 1) (compared 700))).a.fld (Reg.RED_CMPERR 3) F.RED_CMPERR.MM = 0 := by decide +kernel
def errRec : ErrRec := ⟨0xD5, 3, true, false, false, false, 4, 0, 9, []⟩
theorem test_wit_error : oldest (fun r => ∃ q, r = TRep.error q) (((reports alone (.error errRec)).tile 3).reports .a) (.error errRec) [] :=
  sole rfl ⟨_, rfl⟩
theorem test_errorSend : ((next (exec (.errorRecordSend 3 1) alone)).tile 3).rd Reg.TILE_DRNRSEQ = 1 := by decide +kernel
theorem test_errorReceive : let t := next (exec (.errorRecordReceive .a 3 0x3D5 true) (reports alone (.error errRec)))
    t.a.recordOf 3 4 = some errRec ∧ t.a.rd (Reg.DRN_LASTRSEQ 3) = 9 := by decide +kernel
theorem test_errorReceive_bad : (next (exec (.errorRecordReceive .a 3 0x2D5 true) (reports alone (.error errRec)))).a.fld (Reg.DRN_RXSTAT 3)
    F.DRN_RXSTAT.BADHDR = 1 := by decide +kernel
theorem test_fetch : (next (exec (.recordFetch .a 3 0 262144000) alone)).a.isAbsent 3 0 = true := by decide +kernel
def asked : State := (send pair .a (.recReq 3 4)).updStr .b fun c => { c with eng := { c.eng with hist := [(3, [errRec])] } }
theorem test_wit_recReq : asked.incoming .b (fun q => ∃ m k, q = BMsg.recReq m k) (.recReq 3 4) [] ∧ asked.b.recordOf 3 4 = some errRec :=
  ⟨sole rfl ⟨_, _, rfl⟩, by decide +kernel⟩
theorem test_recReq : (next (exec (.partnerRecordRequest .b) asked)).a.recordOf 3 4 = some errRec := by decide +kernel

/-- Block 0's next job with no record before it, on engine 0; a moving block; an unplaced one; a failed engine. -/
theorem test_wit_EnginesAndBlocks : let c := alone.a
    (List.replicate 32 0).length = 32 ∧ c.role_ 0 ≠ 2 ∧ c.role_ 0 ≠ 3 ∧ c.movingBlk 0 = false ∧ (c.setFld (Reg.ENG_ROLE 0) F.ENG_ROLE.ROLE 2).role_ 0 = 2 ∧
      c.engineOk 0 = true ∧ c.unplaced 0 = false ∧ c.blkEngine 0 ≠ 1 ∧ c.role_ 1 ≠ 2 ∧
      (c.setFld Reg.ENG_CFG F.ENG_CFG.KATEN 1).flag Reg.ENG_CFG F.ENG_CFG.KATEN = true := by decide +kernel
/-- The record of tile 3 for frame 1 is absent: block 192, where loop 6,144 runs, has a job. -/
def jobs : State := next (exec (.recordFetch .a 3 1 917504000) (alone.updStr .a fun c => c.setWord (loopRec 6144) 1))
theorem test_wit_job : jobs.a.computes = true ∧ jobs.a.jobEngine 192 1 917504000 = some 12 := by decide +kernel
theorem test_job : let t := next (exec (.engineJob .a 192 1 917504000 (List.replicate 32 (917504000 + usT)) 0 0 false) jobs)
    Tab.get (fun _ => none) t.a.eng.done 192 = some 1 ∧ t.a.fld (Reg.ENG_LOAD 12) F.ENG_LOAD.BUSY = 1 := by decide +kernel
theorem test_engmap : let t := next (exec (.engmapWrite .a 0 1 1) alone); t.a.blkEngine 0 = 1 ∧ t.a.movingBlk 0 = true := by decide +kernel
theorem test_moveRelease : let s := next (exec (.engmapWrite .a 0 1 1) alone)
    (next (exec (.blockMoveRelease .a 0) s)).a.movingBlk 0 = false := by decide +kernel
theorem test_engRole_strand : (next (exec (.engRoleWrite .a 0 3) alone)).a.role_ 0 = alone.a.role_ 0 := by decide +kernel
theorem test_engineDomainFault : (next (exec (.engineDomainFault .a 7) alone)).a.fld (Reg.ENG_ROLE 7) F.ENG_ROLE.FCAUSE = 4 := by decide +kernel
theorem test_kat : let s := alone.updStr .a fun c => (c.setFld Reg.ENG_CFG F.ENG_CFG.KATEN 1).setFld Reg.ENG_CFG F.ENG_CFG.KATPER 1
    (next (exec (.katJob .a 0 340 ⟨true, 0, usT⟩) s)).a.fld (Reg.ENG_LAT 0) F.ENG_LAT.RMIN = 85 := by decide +kernel

/-! ## Drives, pickups, drone (05, 06, 07) -/

/-- 05_actuator_drive.md, worked example: the codes of levels 65,535 and 40,959 with KCORR 15,604. -/
theorem test_codes : ((alone.tile 0).toCode 300 15604 65535).1 = 63956 ∧ ((alone.tile 0).toCode 300 15604 40959).1 = 50561 := by decide +kernel
/-- Channel 0 of tile 3 as a sense visit that is valid finds it. -/
def sensed : State := led fun d => d.setChan 0 { d.chan 0 with enable := true, code := 0xFFFF, rref := 1000 }
theorem test_wit_DrivesAndFaults : let d := (sensed.advance 1).tile 3
    d.domOn 0 = true ∧ d.domOn 1 = true ∧ d.time % sweepT / (2 * usT) = 0 ∧ d.vmode 0 = false ∧ (d.chan 0).enable = true ∧
      (d.chan 0).currentAtLeast 1 = true ∧ bit (d.chan 0).live 0 = false ∧ (d.chan 0).bow = none ∧
      d.faultMay (.short 0) = true ∧ d.faultMay (.short 1) = false ∧ LoadFault.ok (.short 2047) = true ∧ sensed.capo = some .a ∧
      d.settle 0 ≤ d.time ∧ (∀ g : Fin 32, (d.chans.any fun q => q.1 / 64 == g.val && q.2.enable) = decide (g.val = 0)) := by decide +kernel
/-- R128: KCORR = 16,384 x 1,000 x 16 / 16,800, that is 15,604. -/
theorem test_sense : let d := (next (exec (.resSenseVisit 3 0 16800 1) sensed)).tile 3
    (d.chan 0).res = 16800 ∧ (d.chan 0).kcorr = 15604 := by decide +kernel
theorem test_loadFault : let d := (next (exec (.loadFaultDetect 3 (.short 0) true 1) sensed)).tile 3
    bit (d.chan 0).live 0 = true ∧ bit (d.chan 0).flags 0 = true := by decide +kernel
theorem test_tileMode : let t := next (exec (.tileModeWrite .a 3 3) sensed)
    bits ((t.tile 3).rd Reg.TILE_MODE) 0 2 = 2 ∧ (t.tile 3).fld Reg.TILE_ASTAT F.TILE_ASTAT.MODEREF = 1 := by decide +kernel
theorem test_tileMode_other : (next (exec (.tileModeWrite .b 3 3) sensed)).b.fld (Reg.TLK_DISC 3) F.TLK_DISC.DISC = 1 := by decide +kernel
theorem test_pbias : let t := next (exec (.tilePbiasWrite .a 3 1 200 1) sensed)
    (t.tile 3).fld (Reg.TILE_PBIAS 1) F.TILE_PBIAS.SETTLING = 1 ∧ (t.tile 3).settle 1 = (t.tile 3).time + 20 * usT := by decide +kernel
theorem test_biasEnd : let s := next (exec (.tilePbiasWrite .a 3 1 200 1) sensed)
    ((next (exec (.biasSettleEnd 3 1 (21 * usT)) s)).tile 3).fld (Reg.TILE_PBIAS 1) F.TILE_PBIAS.SETTLING = 0 := by decide +kernel

/-- Group 0 of tile 3 samples by timer and group 1 by load; the test of openings is on. -/
def picks : State := led fun d => (d.wr Reg.TILE_PCFG 0xFFFFFFFF)
theorem test_wit_PickupsAndNullSlots : let d := (picks.advance 1).tile 3
    d.domOn 0 = true ∧ d.domOn 5 = true ∧ (d.mon 0).busy = none ∧ d.fld Reg.TILE_PCFG F.TILE_PCFG.OTEST = 1 ∧
      ((d.setMon 0 { d.mon 0 with busy := some 1 }).mon 0).busy ≠ none ∧ (d.mon 0).liveShort = false ∧
      ((d.wr Reg.TILE_THMEN 1).rd Reg.TILE_THMEN = 1) ∧ d.fld Reg.TILE_DRNNPER F.TILE_DRNNPER.PERIOD = 0 ∧
      ((d.wr Reg.TILE_DRNNPER 0xFFFFFFFF).fld Reg.TILE_DRNNPER F.TILE_DRNNPER.PERIOD ≠ 0) ∧ d.nulOn = false ∧
      Tab.wf (fun _ => Chan.cold) d.chans = true := by decide +kernel
theorem test_wit_trigger : (((led fun d => { d with trig := [(1, 0, false)] }).advance 1).tile 3).trig.find?
      (fun e => e.1 == 1 && !e.2.2 && decide (e.2.1 ≤ 1)) = some (1, 0, false) ∧
    (let d := ((led fun d => { d with nulOn := true, nul := (0, 1, 1) }).advance 1).tile 3; d.nulOn = true ∧ d.nul.2.1 ≤ d.time) := by decide +kernel
theorem test_conversion : let d := (next (exec (.conversionDone 3 [⟨4, 0, 2000, true⟩] 1) (led fun d => d.setMon 4 { d.mon 4 with busy := some 0 }))).tile 3
    (d.mon 4).code = 0xFFFF ∧ (d.mon 4).ovrCnt = 1 ∧ (d.mon 4).busy = none := by decide +kernel
theorem test_openTest : let d := (next (exec (.pickupOpenTest 3 0 (some 19) 1) picks)).tile 3
    (d.mon 0).capq = 19 ∧ (d.mon 0).liveOpen = true ∧ bit (d.mon 0).flags 5 = true := by decide +kernel
theorem test_cathode : ((next (exec (.cathodeLimitTrip 3 9) picks)).tile 3).toB = [.cond (some 6) 9 none] := by decide +kernel
theorem test_thm : ((next (exec (.thmConversion 3 (some 12345) 1) (led fun d => d.wr Reg.TILE_THMEN 1))).tile 3).rd (Reg.TILE_THM 0)
    = 12345 + 16777216 := by decide +kernel
theorem test_nullEnd : let t := next (exec (.nullSlotEnd 3 1) (led fun d => { d with nulOn := true, nul := (0, 1, 1) }))
    (t.tile 3).nulOn = false ∧ t.b.fld Reg.DRN_NULLCNT F.DRN_NULLCNT.SLOTS = 1 := by decide +kernel
theorem test_loadTrigger : (((next (exec (.loadTrigger 3 1 1) (led fun d => { d with trig := [(1, 0, false)] }))).tile 3).mon 15).busy = some 0 := by
  decide +kernel

/-! ## Supply, thermal, power and resets (17, 18) -/

/-- VIN out of its range since the start; TRIP with the stage cool; cores at phrase level; the margin planner on. -/
theorem test_wit_SupplyAndThermal : (List.replicate 12 (5 : Int)).length = 12 ∧
    (let e := ((alone.updStr .a fun c => { c with pwr := { c.pwr with vinOut := some 0 } }).advance msT).a;
      (0 + msT ≤ e.time) ∧ e.pwr.vinOut = some 0 ∧ e.flag Reg.PWR_STAT F.PWR_STAT.VINOK = true) ∧
    ((led id).advance 1).capo = some .a ∧ (alone.advance 1).capo = none ∧ (ph.a.core 0).pl = 2 ∧ (alone.a.core 0).pl ≠ 2 ∧
    alone.stage.drive = true ∧ (alone.a.setFld Reg.AGE_CFG F.AGE_CFG.EN 1).flag Reg.AGE_CFG F.AGE_CFG.EN = true ∧
    (alone.a.setFld Reg.PWR_STAT F.PWR_STAT.TRIP 1).flag Reg.PWR_STAT F.PWR_STAT.TRIP = true := by decide +kernel
theorem test_hka : let t := next (exec (.hkaScan .a (List.replicate 12 320) false 1) (alone.updStr .a fun c => c.setFld Reg.HKA_CFG F.HKA_CFG.EN 4))
    t.a.fld Reg.HKA_STAT F.HKA_STAT.SCANS = 1 := by decide +kernel
/-- R167: the mean of four inputs, a negative VIN, and an input beyond the range. -/
theorem test_hkaMean : StringSt.hkaMean 0 4 1 24 = (6, false) ∧ StringSt.hkaMean 0 1 1 (-3) = (0, true) ∧
    StringSt.hkaMean 1 1 1 65536 = (65535, true) := by decide +kernel
theorem test_hkaSettled : (next (exec (.hkaSettled .a) alone)).a.flag Reg.HKA_STAT F.HKA_STAT.SETTLED = true := by decide +kernel
theorem test_vin : (next (exec (.vinOutOfRange .a msT) (alone.updStr .a fun c => { c with pwr := { c.pwr with vinOut := some 0 } }))).a.flag
    Reg.PWR_STAT F.PWR_STAT.VINOK = false := by decide +kernel
theorem test_rail : (next (exec (.railWindowFault .a 7 true) alone)).a.flag (Reg.ALV_SRC 27) F.ALV_SRC.LIVE = true := by decide +kernel
theorem test_stage_fault : (next (exec (.powerStageFault ⟨1, 1⟩) alone)).b.fld Reg.PWR_STAGE F.PWR_STAGE.FAULTS = 1 ∧
    (next (exec (.powerStageFault ⟨1, 1⟩) alone)).a.fld Reg.PSTG_LINK F.PSTG_LINK.VAL = 1 := by decide +kernel
theorem test_avs : (next (exec (.avsTick 1) (led id))).a.fld Reg.PWR_AVS F.PWR_AVS.OWN = 800 := by decide +kernel
/-- R389: 118.000 C is 0x3B00. -/
theorem test_sensor : (next (exec (.sensorConversion .a 17 0x3B00) alone)).a.sensor 17 = 118 * 128 := by decide +kernel
/-- 17_power_thermal_ageing.md, worked example: F 15 at the first tick with a condition, then 14, COND 1, DOWNS 2. -/
theorem test_throttle : let s := led fun d => { d with throttle := 16 }
    let hot := s.updStr .a fun c => (c.setFld Reg.THM_CFG F.THM_CFG.EN 1).setFld (Reg.THM_SENS 17) F.THM_SENS.TEMP (140 * 128)
    let t := next (exec (.throttleTick .a 0 (msT + 1)) (next (exec (.throttleTick .a 0 1) hot)))
    t.a.rd (Reg.THM_TILE 3) = 0x2004E ∧ (t.tile 3).throttle = 14 := by decide +kernel
theorem test_trip : let t := next (exec (.thermalTrip (BitVec.ofNat 16 (140 * 128))) alone)
    t.stage.drive = false ∧ t.b.flag Reg.PWR_STAT F.PWR_STAT.TRIP = true := by decide +kernel
theorem test_trip_below : (next (exec (.thermalTrip (BitVec.ofNat 16 (140 * 128 - 1))) alone)).stage.drive = true := by decide +kernel
theorem test_railon : (next (exec (.pwrCtlRailon .a) (next (exec (.thermalTrip (BitVec.ofNat 16 (119 * 128)))
    (next (exec (.thermalTrip (BitVec.ofNat 16 (160 * 128))) alone)))))).stage.drive = true := by decide +kernel
theorem test_pwrReq : (next (exec (.pwrReqWrite .a 0 2) ph)).a.flag Reg.PWR_STAT F.PWR_STAT.PEND = true := by decide +kernel

def offStage : State := { alone with stage := { alone.stage with off := true } }
theorem test_wit_PowerAndResets : offStage.stage.off = true ∧ alone.stage.off = false ∧
    (let e := ((alone.updStr .a fun c => { c with alv := { c.alv with wdAt := some 5 } }).advance 5).a; e.alv.wdAt = some 5 ∧ e.time = 5) ∧
    ((alone.updStr .b fun c => c.setFld Reg.RED_CAPOSTAT F.RED_CAPOSTAT.PRQ 1).str (Str.other .a)).flag Reg.RED_CAPOSTAT F.RED_CAPOSTAT.PRQ = true ∧
    (led id).capo = some .a ∧ alone.a.pegTempOk = true ∧ alone.a.net.retry = false ∧ alone.a.fld Reg.SEC_BOOT F.SEC_BOOT.STATE = 0 ∧
    (alone.tile 0).domOn 0 = true ∧ pair.a.holds = true ∧ Tab.wf (coldWord .a) alone.a.regs = true := by decide +kernel
theorem test_wit_wake : let s := (State.reset.updBoth fun c => c.setFld Reg.PWR_STAT F.PWR_STAT.STATE 2).updStr .a fun c =>
      { c with evf := { c.evf with hostWake := true } }
    (State.wakeSources (s.advance 1).a ||| State.wakeSources (s.advance 1).b) ≠ 0 ∧ (s.advance 1).b.fld Reg.PWR_STAT F.PWR_STAT.STATE = 2 := by
  decide +kernel
theorem test_powerUp : let t := next (exec (.powerUp (10 * msT)) offStage); t.stage.off = false ∧ t.a.role = rBOOT := by decide +kernel
theorem test_brownOut : let t := next (exec (.brownOut 1) alone)
    t.stage.off = true ∧ t.a.flag Reg.GEN_RSTCAUSE F.GEN_RSTCAUSE.BROWN = true := by decide +kernel
theorem test_warm : let t := next (exec (.warmReset .a false 1) alone)
    t.a.flag Reg.GEN_RSTCAUSE F.GEN_RSTCAUSE.RSTN = true ∧ t.a.fld Reg.GEN_RSTCAUSE F.GEN_RSTCAUSE.NRST = 1 ∧ t.a.role = rBOOT := by decide +kernel
theorem test_watchdog : (next (exec (.watchdogReset .a 5) (alone.updStr .a fun c => { c with alv := { c.alv with wdAt := some 5 } }))).a.flag
    Reg.GEN_RSTCAUSE F.GEN_RSTCAUSE.WDOG = true := by decide +kernel
theorem test_hours : (next (exec (.hoursIncrement .a) (alone.updStr .a fun c => c.setFld (Reg.THM_SENS 63) F.THM_SENS.TEMP (126 * 128)))).a.fld
    Reg.PEG_STAT F.PEG_STAT.TBLKCNT = 1 := by decide +kernel
theorem test_epoch : let t := next (exec (.epochRetry .a 1) (alone.updStr .a fun c => { c with net := { c.net with retry := true } }))
    t.a.peg 0x7000000C = (alone.a.peg 0x7000000C + 1) % 4294967296 ∧ t.a.net.retry = false := by decide +kernel

/-! ## Time (14_time.md) -/

/-- The states of the time unit, both edges of a step, pulses and captures. -/
def timed (st : Nat) : State := alone.updStr .a fun c => c.setFld Reg.TIME_STAT F.TIME_STAT.STATE st
theorem test_wit_TimeUnitCommands : (timed 2).a.timeState = 2 ∧ (timed 3).a.timeState = 3 ∧ alone.a.timeState < 2 ∧ pair.a.brgUp = true ∧
    alone.a.brgUp = false ∧ alone.a.stepAllowed = false ∧ State.reset.a.stepAllowed = true ∧ ((timed 2).advance (200 * secT)).a.tim.lastSample + max 1
      ((timed 2).a.fld Reg.TIME_CFG F.TIME_CFG.HOLDTO) * 10 * msT ≤ 200 * secT ∧ (alone.a.txq 0).length < 16 ∧
    (((led id).advance 1).tile 3).capo = some .a ∧ ((led fun d => { d with stepAt := some 0 }).tile 3).stepAt = some 0 ∧
    ((led id).tile 3).stepAt = none ∧ alone.a.domOn 60 = true := by decide +kernel
theorem test_refLoss : let t := next (exec (.refclkLoss .a 1) (alone.updStr .a fun c => c.setFld Reg.TIME_STAT F.TIME_STAT.REFOK 1))
    t.a.flag Reg.TIME_STAT F.TIME_STAT.REFOK = false ∧ t.a.flag Reg.TIME_STAT F.TIME_STAT.REFLOSS = true := by decide +kernel
theorem test_offs : let t := next (exec (.timeOffsWrite .a 0xFFFFFFFF 1) alone); t.a.rd Reg.TIME_MON = 0xFFFFFFFF := by decide +kernel
theorem test_holdover : let t := next (exec (.timeCtlMchg .a 1) (timed 2))
    t.a.timeState = 3 ∧ t.a.fld Reg.TIME_STAT F.TIME_STAT.HOLDS = 1 := by decide +kernel
theorem test_nsWrite_bad : (next (exec (.timeNsWrite .a 1000000000 1) alone)).a.time = 1 := by decide +kernel
theorem test_nsWrite : (next (exec (.timeNsWrite .a 999999999 1) State.reset)).a.time = 999999999 * 65536 := by decide +kernel
theorem test_nsRead : (next (exec (.timeNsRead .a 1) (alone.updStr .a fun c => { c with time := instant 5 0 7 }))).a.rd Reg.TIME_SEC_L = 5 := by
  decide +kernel
theorem test_txq : (next (exec (.ptpTxTimestamp .a 1 9 1) alone)).a.txq 1 = [(9, 1 + alone.a.fld (Reg.TIME_LAT 1) F.TIME_LAT.EGRESS * 4096)] := by
  decide +kernel
theorem test_txid : (next (exec (.timeTxidRead .a 1) (next (exec (.ptpTxTimestamp .a 1 9 1) alone)))).a.txq 1 = [] := by decide +kernel
theorem test_slew : ((next (exec (.tileTimeUpdate 3 usT) ((led id).updStr .a fun c => { c with time := 100000 }))).tile 3).time = usT + 6553 := by
  decide +kernel
/-- 14_time.md, worked example: TOUT0 as a 1PPS, TOUTCFG 0x0002_7102; a start long past of one pulse is LATE. -/
def pps : State := alone.updStr .a fun c => { ((c.wr (Reg.TIME_TOUTPER 0) 1000000000).wr (Reg.TIME_TOUTSL 0) 0x6553F101) with
  time := instant 1700000000 0 0 }
theorem test_toutArm : let t := next (exec (.toutArm .a 0 0x00027102 1) pps)
    (t.a.tout 0).next = some (instant 1700000001 0 0) ∧ (t.a.tout 0).width = 100000 * 65536 ∧ t.a.fld (Reg.TIME_TOUTCFG 0) F.TIME_TOUTCFG.MODE = 2 := by
  decide +kernel
theorem test_tout_late : (next (exec (.toutArm .a 1 0x00000641 1) pps)).a.flag (Reg.TIME_TOUTCFG 1) F.TIME_TOUTCFG.LATE = true := by decide +kernel
theorem test_toutPulse : let s := next (exec (.toutArm .a 0 0x00027102 1) pps)
    let t := next (exec (.toutPulse .a 0 secT) s)
    (t.a.tout 0).pulseEnd = some (instant 1700000001 100000 0) ∧ (t.a.tout 0).next = some (instant 1700000002 0 0) ∧
      ((next (exec (.toutPulseEnd .a 0 (2 * secT)) t)).a.tout 0).pulseEnd = none := by decide +kernel
theorem test_tcap : let t := next (exec (.tcapEdge .a 1 ⟨true, 20 * nsT⟩ 300000) (alone.updStr .a fun c => c.setFld (Reg.TIME_TCAPCFG 1) F.TIME_TCAPCFG.EDGE 1))
    (t.a.tcap 1).at_ = 300000 - 262144 ∧ (t.a.tcap 1).unread = true ∧
      ((next (exec (.timeTcapnsRead .a 1) t)).a.tcap 1).unread = false := by decide +kernel

/-! ## Calendar, crosstalk, calibration (09, 10, 11) -/

def calendar (st : Nat) (sw : Option Nat) : State := alone.updStr .a fun c =>
  { ((c.setFld Reg.PLAN_CALSTAT F.PLAN_CALSTAT.STATE st).setWords StringSt.calRun [1, 0, 0, 0, 1000000]).setSlotState 9 slSEALED with
    plan := { c.plan with switchAt := sw, cycle := 1, next := (1, 0) } }
theorem test_wit_CalendarCrosstalkCalibration : let e := ((calendar 2 none).advance 1).a
    2 ≤ StringSt.calState e ∧ e.plan.cycle ≤ e.time ∧ e.plan.switchAt ≠ some e.plan.cycle ∧ StringSt.calState ((calendar 3 none).advance 1).a = 3 ∧
      ((calendar 2 (some 1)).advance 1).a.plan.switchAt = some 1 ∧ (e.eng.snaps.any fun q => decide (0 ≤ q.1)) = false ∧
      e.plan.next.1 + e.word (StringSt.calRun + 32) * 65536 ≤ e.time + e.plan.lead ∧ e.calOn = false := by decide +kernel
theorem test_wit_stroke : let k : Stroke := { stroke1 with past := true, ts := 0 }
    k.past = true ∧ k.withdrawn = false ∧ k.xtDone = false ∧ State.windowsEnd k ≤ secT ∧ k.missed = 0 ∧ StringSt.ffInstant k ≤ secT ∧
      StringSt.ffCancelled k = false := by decide +kernel
theorem test_cycle : let t := next (exec (.calendarCycleBoundary .a 1) (calendar 2 none))
    t.a.fld Reg.PLAN_CALSTAT F.PLAN_CALSTAT.CYCLES = 1 ∧ t.a.plan.cycle = 1 + 1000000 * 65536 := by decide +kernel
theorem test_cycle_stop : StringSt.calState (next (exec (.calendarCycleBoundary .a 1) (calendar 3 none))).a = 0 := by decide +kernel
theorem test_occurrence : let t := next (exec (.calendarOccurrenceStage .a 1) (calendar 3 none))
    t.a.fld Reg.PLAN_CALSKIP F.PLAN_CALSKIP.CNT = 1 ∧ t.a.plan.next = (1 + 1000000 * 65536, 0) := by decide +kernel
theorem test_msel : (next (exec (.xtMselWrite .a 0x10003FFF) alone)).a.rd Reg.XT_MSEL = 0x3FFF + 65536 := by decide +kernel
/-- Calibration on in the second interval; a commit that is due, and one that can close. -/
def calibrating (m : Option CalCommit) : StringSt := ((alone.updStr .a fun c => { (c.setFld Reg.CAL_CFG F.CAL_CFG.EN 1).setFab fabVALID with
  cal := { c.cal with commit := m } }).advance (100 * secT)).a
theorem test_wit_commit : let e := calibrating none; let m : CalCommit := ⟨5, [(calHdr 20, 7)], [], 0, 0⟩
    (calibrating (some m)).cal.commit = some m ∧ 5 ≤ (calibrating (some m)).time ∧ e.cal.commit = none ∧ e.cal.shut = none ∧
    e.calOn = true ∧ e.cal.closed < e.time / (max 1 (e.fld Reg.CAL_CFG F.CAL_CFG.CPER) * 10 * msT) *
      (max 1 (e.fld Reg.CAL_CFG F.CAL_CFG.CPER) * 10 * msT) ∧ State.loadPending e = false ∧ e.red.joinHeld = false ∧ e.cal.judged < e.time / sweepT := by
  decide +kernel

/-! ## Redundancy (12_redundancy.md) -/

/-- Instants in the take windows of the even boundary 20 us and of the odd boundary 10 us. -/
def even : Nat := 16 * usT
def odd : Nat := 6 * usT
def idle : State := withA fun c => { (c.setFld Reg.RED_CAPOSTAT F.RED_CAPOSTAT.ROLE rIDLE) with red := { c.red with takeReq := true } }
/-- String A gives the line to string B, joined, at 20 us or 10 us. -/
def giving (ft : Nat) (ok : Bool) : State := (pair.updStr .a fun c =>
  { c.setFld Reg.RED_CAPOSTAT F.RED_CAPOSTAT.ROLE rHANDOVER with red := { c.red with line := true, xfer := some ⟨ft, 2, ok, true, false, 0⟩ } }).updStr .b
    fun c => { c with red := { c.red with xfer := some ⟨ft, 2, true, false, false, 0⟩ } }
theorem test_wit_CapoAndRoles : let e := ((idle.updStr .a fun c => c.setFld Reg.RED_CFG F.RED_CFG.TAKEDLY 0).advance even).a
    e.role = rIDLE ∧ e.red.takeReq = true ∧ e.red.idleSince + e.fld Reg.RED_CFG F.RED_CFG.TAKEDLY * 10 * msT ≤ e.time ∧
      e.takeWindow = some (20 * usT) ∧ (idle.advance even).b.red.line = false ∧ (idle.advance even).b.lineSeen = false ∧
      e.brgUp = false ∧ ((idle.advance odd).a).takeWindow = none ∧ idle.capoForceN = true := by decide +kernel
theorem test_wit_seize : let e := ((pair.updStr .b fun c => c.setFld Reg.RED_CFG F.RED_CFG.SEIZE 1).advance odd).b
    e.role = rSTANDBY ∧ e.flag Reg.RED_CFG F.RED_CFG.SEIZE = true ∧ e.impaired = false ∧ e.red.xfer = none ∧ e.takeWindow = some (10 * usT) ∧
      (pair.advance odd).a.outbox = [] ∧ (pair.advance odd).a.red.line = false := by decide +kernel
theorem test_wit_transfer : let e := ((giving (20 * usT) true).advance even).a
    e.red.xfer = some ⟨20 * usT, 2, true, true, false, 0⟩ ∧ e.role = rHANDOVER ∧ 20 * usT ≤ e.time + 5 * usT ∧
      (let p := ((giving (10 * usT) true).advance odd).b;
        p.takeWindow = some (10 * usT) ∧ p.time + 3 * usT ≤ 10 * usT ∧ p.role = rSTANDBY) ∧
      (pair.a.role = rACTIVE ∧ pair.a.joined = true ∧ pair.a.red.xfer = none) ∧
      (let q := (((giving (10 * usT) true).updStr .a fun c => { c with red := { c.red with line := false } }).advance (9 * usT));
        q.a.red.line = false ∧ 10 * usT ≤ q.a.time + 2 * usT + 500 * nsT ∧ q.b.red.line = false) := by decide +kernel
theorem test_wit_transferRequest : (send pair .a (.transfer (40 * usT) 2)).incoming .b (fun m => ∃ a b, m = .transfer a b) (.transfer (40 * usT) 2) [] ∧
    (send (giving (20 * usT) false) .b (.accept (20 * usT))).incoming .a (fun m => ∃ a, m = .accept a ∨ m = .refuse a ∨ m = .abort a) (.accept (20 * usT)) [] :=
  ⟨sole rfl ⟨_, _, rfl⟩, sole rfl ⟨_, .inl rfl⟩⟩
theorem test_transferRequest : let t := next (exec (.transferRequest .b 1) (send pair .a (.transfer (40 * usT) 2)))
    t.b.outbox = [.accept (40 * usT)] ∧ t.b.red.xfer = some ⟨40 * usT, 2, true, false, false, 1⟩ := by decide +kernel
theorem test_transferAccept : (next (exec (.transferAccept .a) (send (giving (20 * usT) false) .b (.accept (20 * usT))))).a.red.xfer.any (·.accepted) = true := by
  decide +kernel
theorem test_deassert : (next (exec (.transferDeassert .a even) (giving (20 * usT) true))).a.red.line = false := by decide +kernel
theorem test_deassert_abort : let t := next (exec (.transferDeassert .a even) (giving (20 * usT) false))
    t.a.role = rACTIVE ∧ t.a.fld Reg.RED_CNT F.RED_CNT.C3 = 1 := by decide +kernel
theorem test_reassert : let t := next (exec (.transferReassertCheck .a (19 * usT)) ((giving (20 * usT) true).updStr .a fun c =>
      { c with red := { c.red with line := false } }))
    t.a.red.line = true ∧ t.a.role = rACTIVE ∧ t.a.red.xfer = none := by decide +kernel
theorem test_assert : (next (exec (.transferAssert .b odd) ((giving (10 * usT) true).updStr .a fun c => { c with red := { c.red with line := false } }))).b.red.line
    = true := by decide +kernel
theorem test_complete : let t := next (exec (.transferComplete .b (10 * usT)) (((giving (10 * usT) true).updStr .a fun c =>
      { c with red := { c.red with line := false } }).updStr .b fun c => { c with red := { c.red with line := true } }))
    t.b.role = rACTIVE ∧ t.a.role = rSTANDBY := by decide +kernel
theorem test_force : let t := next (exec (.capoForceFall 1) pair)
    t.a.role = rHANDOVER ∧ t.capoForceN = false ∧ (next (exec .capoForceRise t)).capoForceN = true := by decide +kernel
theorem test_ready : (next (exec (.redCtlReady .a 1) State.reset)).a.role = rIDLE := by decide +kernel
theorem test_takeReq : (next (exec (.redCtlTake .a) (withA fun c => c.setFld Reg.RED_CAPOSTAT F.RED_CAPOSTAT.ROLE rIDLE))).a.red.takeReq = true := by
  decide +kernel
theorem test_swap : (next (exec (.redCtlSwap .a 1) pair)).a.role = rHANDOVER ∧ (next (exec (.redCtlSwap .a 1) alone)).a.fld Reg.RED_CNT F.RED_CNT.C2 = 1 := by
  decide +kernel
theorem test_drop : (next (exec (.redCtlDrop .a) pair)).b.role = rIDLE := by decide +kernel

/-- String B is JOINING at a step of the join, string A ACTIVE with the link up. -/
def joiner (step : Nat) : State := (pair.updStr .a fun c => (c.setFld Reg.RED_CAPOSTAT F.RED_CAPOSTAT.PJOINED 0).setFld Reg.RED_JOIN F.RED_JOIN.STEP step).updStr .b
  fun c => (c.setFld Reg.RED_CAPOSTAT F.RED_CAPOSTAT.ROLE rJOINING).setFld Reg.RED_JOIN F.RED_JOIN.STEP step
def zeros : List Nat := List.replicate 8 0
theorem test_wit_Joining : let d := ((joiner 0).updStr .b fun c => (c.setFld Reg.RED_CAPOSTAT F.RED_CAPOSTAT.ROLE rIDLE).setFld Reg.RED_CAPOSTAT
      F.RED_CAPOSTAT.PROLE rACTIVE).b;
    (d.role = rIDLE ∧ d.brgUp = true ∧ d.fld Reg.RED_CAPOSTAT F.RED_CAPOSTAT.PROLE = rACTIVE) ∧ (joiner 3).b.role = rJOINING ∧
      (joiner 5).a.holds = true ∧ (joiner 5).b.fld Reg.RED_JOIN F.RED_JOIN.STEP = 5 ∧ (joiner 6).b.impaired = false ∧ (joiner 5).b.pegTempOk = true ∧
      (joiner 4).a.inFlight = [] ∧ (joiner 4).a.ring.recs = [] ∧ (joiner 6).a.blkLoops 0 = [] := by decide +kernel
theorem test_wit_joinReq : (send (joiner 1) .b (.joinReq zeros zeros)).incoming .a (fun m => ∃ a b, m = .joinReq a b) (.joinReq zeros zeros) [] ∧
    (send (joiner 3) .a (.joinReply 0 zeros none)).incoming .b (fun m => ∃ a b l, m = .joinReply a b l) (.joinReply 0 zeros none) [] :=
  ⟨sole rfl ⟨_, _, rfl⟩, sole rfl ⟨_, _, _, rfl⟩⟩
theorem test_joinCtl : (next (exec (.redCtlJoin .b) ((joiner 0).updStr .b fun c => (c.setFld Reg.RED_CAPOSTAT F.RED_CAPOSTAT.ROLE rIDLE).setFld
    Reg.RED_CAPOSTAT F.RED_CAPOSTAT.PROLE rACTIVE))).b.role = rJOINING := by decide +kernel
theorem test_joinreq : (next (exec (.joinreq .a) (send (joiner 0) .b (.joinReq (zeros.map fun _ => 1) zeros)))).a.outbox = [.joinReply 1 zeros none] := by
  decide +kernel
theorem test_joinReply : let t := next (exec (.joinReply .b) (send (joiner 3) .a (.joinReply 0 zeros none)))
    t.b.fld Reg.RED_JOIN F.RED_JOIN.STEP = 4 ∧ t.a.red.joinHeld = true := by decide +kernel
theorem test_joinReply_fail : let t := next (exec (.joinReply .b) (send (joiner 3) .a (.joinReply 1 zeros none)))
    t.b.role = rIDLE ∧ t.b.fld Reg.RED_JOIN F.RED_JOIN.JCAUSE = 1 := by decide +kernel
theorem test_drain : (next (exec (.joinClaimDrain .a) ((joiner 4).updStr .a fun c => { c with red := { c.red with joinHeld := true } }))).b.fld
    Reg.RED_JOIN F.RED_JOIN.STEP = 5 := by decide +kernel
theorem test_loopCut : let t := next (exec (.joinLoopCut .b 0) (joiner 6)); t.b.red.cut = [0] ∧ t.b.fld Reg.RED_JOIN F.RED_JOIN.STEP = 8 := by
  decide +kernel

/-! ## Health and the bridge (12_redundancy.md) -/

/-- Tile 3 reports `r` to both strings. -/
def reportsBoth (s : State) (r : TRep) : State := s.setTile 3 { s.tile 3 with toA := [r], toB := [r] }
def blamed : State := pair.updStr .b fun c => { c with red := { c.red with blamedAt := some 0 } }
theorem test_wit_HealthAndBridge : let s := ((reportsBoth pair (.mismatch 5 4 700 701)).advance 1)
    s.active = some .a ∧ (s.a.loopVal (2048 * 3 + 5)).lost = false ∧ pair.a.red.verdict = false ∧ pair.a.impaired = false ∧
      (joiner 3).a.joined = false ∧ State.reset.active = none ∧
      (let e := (blamed.advance (50 * usT)).b; e.role = rSTANDBY ∧ e.red.blamedAt = some 0 ∧ 0 + 50 * usT ≤ e.time) ∧ pair.b.brgUp = true ∧
      (pair.a.core 1).pcx = false ∧ (pair.a.core 1).run = .notReleased := by decide +kernel
theorem test_wit_mismatch : ∃ (l : List TRep), oldest (fun r : TRep => (∃ a f k l, r = .mismatch a f k l) ∨ (∃ k q, r = .digest k q) ∨ ∃ f o, r = .missCapo f o)
    (((reportsBoth pair (.mismatch 5 4 700 701)).advance 1).tile 3).toA (.mismatch 5 4 700 701) l :=
  ⟨[], sole rfl (.inl ⟨_, _, _, _, rfl⟩)⟩
/-- R296, R298: RED_MM names loop 6,149 and VALID; neither string impaired, the standby is dropped without a verdict against it (C2). -/
theorem test_mismatch : let t := next (exec (.mismatchReport 3 1) (reportsBoth pair (.mismatch 5 4 700 701)))
    t.b.rd Reg.RED_MM = 2048 * 3 + 5 + 32768 ∧ t.a.rd Reg.RED_MMCODE = 700 + 65536 * 701 ∧ t.b.role = rIDLE ∧
      t.a.fld Reg.RED_VERD F.RED_VERD.C2 = 1 := by decide +kernel
theorem test_verdictTimeout : (next (exec (.verdictTimeout .b (50 * usT)) blamed)).b.role = rIDLE := by decide +kernel
theorem test_health : let t := next (exec (.healthReport .a 1) pair)
    bits (t.a.rd Reg.RED_HEALTH) 24 8 = 1 ∧ t.b.rd Reg.RED_PHEALTH = t.a.rd Reg.RED_HEALTH := by decide +kernel
theorem test_linkDown : let t := next (exec (.bridgeLinkDown 1) pair); t.a.rd Reg.BRG_STAT = 0 ∧ t.b.role = rIDLE ∧ t.a.joined = false := by
  decide +kernel
theorem test_linkUp : (next (exec (.bridgeLinkUp 2) alone)).b.rd Reg.BRG_STAT = 9 := by decide +kernel
theorem test_heartbeat : (next (exec (.bridgeHeartbeat .b ⟨2, 3, 1⟩) pair)).b.fld Reg.RED_CAPOSTAT F.RED_CAPOSTAT.PROLE = rACTIVE := by decide +kernel
theorem test_scrub : let t := next (exec (.selfTest .a (.scrub 2 524287 true false)) alone)
    t.a.fld (Reg.SRB_SCRUB 2) F.SRB_SCRUB.SCRUB = 0 ∧ t.a.fld (Reg.SRB_CNT 2) F.SRB_CNT.CORR = 1 := by decide +kernel

/-! ## Egress, telemetry and reception (13_network.md) -/

/-- Port 0 of string A is up, with an ARP reply waiting in Q7. -/
def linked : State := alone.updStr .a fun c => c.setFld (Reg.ETH_STAT 0) F.ETH_STAT.LINK 1
def frame0 : OutFrame := ⟨64, 0, .arp [] [], none, [], []⟩
def queued (q : Nat) : State := linked.updStr .a fun c => c.updPort 0 fun p => { p with queues := [(q, [frame0])], drr := if q < 6 then [q] else [] }
theorem test_wit_EgressAndTelemetry : let e := ((queued 7).advance 1).a
    e.linkUp 0 = true ∧ (e.port 0).inflight e.time = 0 ∧ (e.port 0).queue 7 = [frame0] ∧ e.headReady 0 7 frame0 = true ∧ (e.port 0).op = none ∧
      linked.a.hasRoom 0 6 64 = true ∧ linked.a.hasRoom 0 6 3000000 = false ∧ alone.a.linkUp 0 = false ∧
      (let f := ((queued 3).advance 1).a; (f.port 0).drr = [3] ∧ f.headReady 0 3 frame0 = true ∧ (f.port 0).served = false) ∧
      (alone.a.setFld (Reg.ETH_SAMPCFG 0) F.ETH_SAMPCFG.INTV 1).fld (Reg.ETH_SAMPCFG 0) F.ETH_SAMPCFG.INTV ≠ 0 := by decide +kernel
/-- 13_network.md, worked example: ICT_TSTR[3] reads 0x0000_A053. -/
def streaming : State := linked.updStr .a fun c => ((((c.wr (Reg.ICT_TSTR 3) 0xA053).wr (Reg.ICT_TSRC 3) 0x00200280).setFld Reg.ICT_CFG F.ICT_CFG.EN 1) |>
  fun c => { c with pegs := [(0x70002000, 0x1001)] })
theorem test_wit_snapshot : let e := (streaming.advance 1).a
    e.flag (Reg.ICT_TSTR 3) F.ICT_TSTR.EN = true ∧ e.fld (Reg.ICT_TSTR 3) F.ICT_TSTR.PERIOD = 10 ∧ e.fld (Reg.ICT_TSTR 3) F.ICT_TSTR.PORTS = 1 ∧
      e.fld (Reg.ICT_TSTR 3) F.ICT_TSTR.QUEUE = 2 ∧ e.fld (Reg.ICT_TSTR 3) F.ICT_TSTR.KIND = 1 ∧ e.flag Reg.ICT_CFG F.ICT_CFG.EN = true ∧
      (Tab.get (fun _ => none) e.net.snapAt 3).isNone = true := by decide +kernel
theorem test_wit_telem : (send pair .a (.telem 3 9 5)).incoming .b (fun m => ∃ k q b, m = .telem k q b) (.telem 3 9 5) [] :=
  sole rfl ⟨_, _, _, rfl⟩
theorem test_pick : let t := next (exec (.egressPick .a 0 ⟨none, 1⟩) (queued 7))
    (t.a.port 0).flying.any (fun f => f.1 == 7) = true ∧ (t.a.port 0).queue 7 = [] := by decide +kernel
theorem test_pick_drr : ((next (exec (.egressPick .a 0 ⟨none, 1⟩) (queued 3))).a.port 0).flying.any (fun f => f.1 == 3) = true := by decide +kernel
theorem test_gcl : let t := next (exec (.gclEnable .a 0 0 1) linked)
    t.a.flag (Reg.ETH_GCLCFG 0) F.ETH_GCLCFG.ERR = true ∧ (next (exec (.gclDisable .a 0 0) t)).a.flag (Reg.ETH_GCLCFG 0) F.ETH_GCLCFG.EN = false := by
  decide +kernel
theorem test_gclSwitch : let s := linked.updStr .a fun c => c.updPort 0 fun p => { p with next := some (⟨0, 100000, [(255, 100000)]⟩, 1) }
    ((next (exec (.gclSwitch .a 0 1) s)).a.port 0).op = some ⟨0, 100000, [(255, 100000)]⟩ := by decide +kernel
theorem test_sample : (next (exec (.queueSample .a 0 usT) ((queued 3).updStr .a fun c => c.setFld (Reg.ETH_SAMPCFG 0) F.ETH_SAMPCFG.INTV 1))).a.rd
    (Reg.ETH_QSAMP 0 3) = 1 + 8192 * 10 := by decide +kernel
theorem test_linkLoss : let t := next (exec (.ethLinkLoss .a 0 1) (queued 3))
    t.a.linkUp 0 = false ∧ t.a.fld (Reg.ETH_QDROP 0 3) F.ETH_QDROP.TAIL = 1 := by decide +kernel
theorem test_ethUp : (next (exec (.ethLinkUp .a 0 1) (alone.updStr .a fun c => c.setFld (Reg.ETH_CFG 0) F.ETH_CFG.EN 1))).a.linkUp 0
    = alone.a.domOn 57 := by decide +kernel
theorem test_telem : (next (exec (.telemetrySeqMirror .b) (send pair .a (.telem 3 9 5)))).b.rd (Reg.ICT_TSEQ 3) = 10 := by decide +kernel

/-- A frame of 64 bytes with an ARP request for 10.0.0.1, broadcast. -/
def arpBody : List Byte := List.replicate 6 0xFF ++ [2, 0, 0, 0, 0, 9, 8, 6, 0, 1, 8, 0, 6, 4, 0, 1, 2, 0, 0, 0, 0, 9, 10, 0, 0, 2, 0, 0, 0, 0, 0, 0, 10, 0, 0, 1] ++
  List.replicate 18 0
def arpFrame : List Byte := arpBody ++ leBytes 4 (crc32 arpBody)
def hosted : State := linked.updStr .a fun c => c.wr (Reg.ETH_IP4 0) 0x0100000A
theorem test_wit_NetworkReception : let e := (hosted.advance 1).a
    e.linkUp 0 = true ∧ arpFrame.length = 64 ∧ arpFrame.length ≤ e.maxLen 0 ∧ leNat (arpFrame.drop 60) = crc32 (arpFrame.take 60) ∧
      (e.filter 0 arpBody).any (fun f => decide (f.1.kind = some .arp) && f.1.sound) = true ∧ (e.police 0 2 64 none).1 = true ∧
      e.rxCells + 1 ≤ 4096 ∧ e.flag Reg.ICT_CFG F.ICT_CFG.EN = false := by decide +kernel
theorem test_arp : let t := next (exec (.ethFrameReceive .a 0 arpFrame 1) hosted)
    t.a.net.rx.map (·.kind) = [.arp] ∧ (((next (exec (.arpRequest .a) t)).a.port 0).queue 6).length = 1 := by decide +kernel
theorem test_fcs : (next (exec (.ethFrameReceive .a 0 (arpBody ++ [0, 0, 0, 0]) 1) hosted)).a.fld (Reg.ETH_RXCNT 0) F.ETH_RXCNT.FCS = 1 := by decide +kernel
theorem test_policer : let t := next (exec (.policerConfigWrite .a 0 1 0 5) hosted)
    t.a.fld (Reg.ETH_POLCFG 0 1) F.ETH_POLCFG.RATE = 5 ∧ t.a.flag (Reg.ETH_POLPIR 0 1) F.ETH_POLPIR.CFGERR = true := by decide +kernel
/-- An ICT message of type `typ` for ring 12, key 0, epoch 2, number `seq`, that waits in string A; ring 12 is enabled for the key. -/
def ict (typ seq : Nat) (load : List Byte) : Rx :=
  ⟨.ict, ⟨0, false, [], [10, 0, 0, 2], 9, 0⟩, 1, ([1 + 256 * typ + 65536 * 12, 2, seq, load.length, 0, 0, 0, 0].map (leBytes 4)).flatten ++ load, [0]⟩
def netted (r : Rx) : State := hosted.updStr .a fun c => { ((c.wr Reg.ICT_EPOCH 2).wr Reg.RING_EN 0x1000) with
  pegs := [(0x70002000, 0x101)]
  net := { c.net with rx := [r] } }
def load1 : List Byte := (([0x0001005A, 0x00070001, 0, 0, 0, 0, 0, 0, 0x04000001].map (leBytes 4)).flatten)
theorem test_wit_ict : oldest (fun q : Rx => q.kind = .ict) ((netted (ict 1 0 load1)).advance 1).a.net.rx (ict 1 0 load1) [] ∧
    (let r := ict 1 0 load1
      let b := ((netted r).advance 1).a
      StringSt.Rx.typ r = 1 ∧ b.cmdCheck r = 0 ∧ b.cmdCheck (ict 1 1 load1) = 2 ∧ State.reset.a.cmdCheck r = 6 ∧ alone.a.cmdCheck r = 4 ∧
        (b.wr Reg.RING_EN 0).cmdCheck r = 7 ∧ (b.wr (Reg.ICT_NEXT 0) 1).cmdCheck r = 1 ∧ (b.wr (Reg.ICT_NEXT 0) 66).cmdCheck r = 3) :=
  ⟨sole rfl rfl, by decide +kernel⟩
theorem test_phrase : let t := next (exec (.phrase .a 1) (netted (ict 1 0 load1)))
    t.a.ringProd 12 = 1 ∧ t.a.rd (Reg.ICT_NEXT 0) = 1 := by decide +kernel
theorem test_phrase_idle : (next (exec (.phrase .a 1) (netted (ict 4 0 [])))).a.net.rx.length = 1 := by decide +kernel

/-! ## The queue -/

theorem test_wit_StepRunsFrontCommand : ({ State.reset with pending := [.redCtlReady .a 1, .aliveToggle .a] } : State).pending =
    .redCtlReady .a 1 :: [.aliveToggle .a] ∧ State.reset.pending = [] := by decide +kernel
theorem test_wit_StepKeepsMemoryForm_StepKeepsTableForm : State.reset.memWf = true ∧ State.reset.tabWf = true ∧ (∃ t, step State.reset = .next t) :=
  ⟨by decide +kernel, by decide +kernel, _, rfl⟩
theorem test_wit_CommandsKeepQueue : ∃ t, exec (.aliveToggle .a) State.reset = .next t := ⟨_, rfl⟩
theorem test_wit_WellFormed : (Instr.aliveToggle .a).wf = true ∧ (Instr.hkaScan .a [] false 0).wf = false := by decide +kernel
theorem test_step : ∃ t, step { State.reset with pending := [.redCtlReady .a 1, .aliveToggle .a] } = .next t ∧ t.a.role = rIDLE ∧
    t.pending = [.aliveToggle .a] := ⟨_, rfl, by decide +kernel, by decide +kernel⟩
/-- Key slot 0 is provisioned as shipped (R418). -/
theorem test_shipped : State.reset.b.keySlot 0 = 0x301 ∧ State.reset.b.secKeys = 1 := by decide +kernel

theorem test_idle : ∃ t, step State.reset = .next t ∧ t.now = 5242880000 := ⟨_, rfl, by decide +kernel⟩

/-! ## The statements about instructions whose other hypotheses are `ready` (its witnesses stand above) -/

theorem test_wit_StoresComplete : let k := (firm alone).a.core 0
    (firm alone).meets .a k 0 0x2000 4 (some 5) = .fine ∧ (firm alone).meets .a k 0 0x2002 2 (some 5) = .fine ∧
      (firm alone).meets .a k 0 (0x40000000 + Reg.PLAN_CFG) 4 (some 5) = .fine := by decide +kernel
theorem test_wit_AluGroupResults_ImmediateGroupResults_BranchesAndJumpsGo : (firm alone).ready .a 0 .clean ∧
    (((firm alone).a.core 0).g32 0 + BitVec.ofInt 32 ((4 : BitVec 16)).toInt).toNat % 4 = 0 ∧
      (((firm alone).a.core 0).g32 0 + BitVec.ofInt 32 ((2 : BitVec 16)).toInt).toNat % 4 ≠ 0 := by
  unfold State.ready; decide +kernel
theorem test_wit_SpecialRegisters : ((firm alone).a.core 0).pl = 1 ∧ (ph.a.core 0).pl = 2 ∧ (State.reset.a.core 0).pl = 0 ∧
    (5 : BitVec 10).toNat ∉ ([0, 1, 2, 3, 4, 8, 9, 10, 11, 12, 13, 14, 16, 17, 18, 19, 20] : List Nat) := by decide +kernel
theorem test_wit_CompletionFrame : (ph.a.core 0).pl = 2 ∧ ph.a.flight (ph.a.core 0).ring = some flight5 ∧ (1 : Nat) < 32 := by decide +kernel
end Sys2Proof.Machine.Tests
end

/-! SUPPORT. The computing and branching instructions of Quinli (02_quinli_isa.md R49 to R51, R54): the command of each instruction runs it
on the fetched state, its result is the integer arithmetic of its rule, and so each statement about these groups is settled. -/

namespace Sys2Proof.Machine

/-! ## From a command to the instruction it runs -/

/-- The command that runs an instruction of the ALU group. -/
def Alu.command (f : Alu) : Str → Fin 4 → BitVec 5 → BitVec 5 → BitVec 5 → Ecc → Instr :=
  match f with
  | .add => .add
  | .sub => .sub
  | .and => .and
  | .or => .or
  | .xor => .xor
  | .sll => .sll
  | .srl => .srl
  | .sra => .sra
  | .slt => .slt
  | .sltu => .sltu
  | .mul => .mul
  | .mulh => .mulh
  | .mulhu => .mulhu
  | .div => .div
  | .divu => .divu
  | .rem => .rem
  | .remu => .remu
  | .slli => .slli
  | .srli => .srli
  | .srai => .srai
  | .min => .min
  | .max => .max
  | .clz => .clz

/-- The command that runs an instruction of format I; only a load has a use for `de`, what the ECC of the loaded word meets. -/
def ImmOp.command (f : ImmOp) (de : Ecc) (x : Str) (i : Fin 4) (gd ga : BitVec 5) (v : BitVec 16) (fe : Ecc) : Instr :=
  match f with
  | .addi => .addi x i gd ga v fe
  | .andi => .andi x i gd ga v fe
  | .ori => .ori x i gd ga v fe
  | .xori => .xori x i gd ga v fe
  | .lui => .lui x i gd ga v fe
  | .slti => .slti x i gd ga v fe
  | .sltiu => .sltiu x i gd ga v fe
  | .lw => .lw x i gd ga v fe de
  | .lh => .lh x i gd ga v fe de
  | .lhu => .lhu x i gd ga v fe de
  | .lb => .lb x i gd ga v fe de
  | .lbu => .lbu x i gd ga v fe de
  | .sw => .sw x i gd ga v fe
  | .sh => .sh x i gd ga v fe
  | .sb => .sb x i gd ga v fe
  | .beq => .beq x i gd ga v fe
  | .bne => .bne x i gd ga v fe
  | .blt => .blt x i gd ga v fe
  | .bge => .bge x i gd ga v fe
  | .bltu => .bltu x i gd ga v fe
  | .bgeu => .bgeu x i gd ga v fe
  | .jalr => .jalr x i gd ga v fe

theorem exec_alu_command (f : Alu) (x : Str) (i : Fin 4) (gd ga gb : BitVec 5) (fe : Ecc) (s : State) :
    exec (f.command x i gd ga gb fe) s = .next (s.runInsn x i false fe .clean (.alu f gd ga gb)) := by
  cases f <;> rfl

theorem exec_imm_command (f : ImmOp) (de : Ecc) (x : Str) (i : Fin 4) (gd ga : BitVec 5) (v : BitVec 16) (fe : Ecc) (s : State) :
    exec (f.command de x i gd ga v fe) s =
      .next (s.runInsn x i false fe (if (loadForm f).isSome then de else .clean) (.imm f gd ga v)) := by
  cases f <;> rfl

theorem exec_j (x : Str) (i : Fin 4) (v : BitVec 26) (fe : Ecc) (s : State) :
    exec (.j x i v fe) s = .next (s.runInsn x i false fe .clean (.jump false v)) := rfl

theorem exec_jal (x : Str) (i : Fin 4) (v : BitVec 26) (fe : Ecc) (s : State) :
    exec (.jal x i v fe) s = .next (s.runInsn x i false fe .clean (.jump true v)) := rfl

/-! ## Where an instruction goes -/

/-- An instruction that falls through goes to the word after its own. -/
theorem StringSt.stepCore_eq_jumpTo (c : StringSt) (i : Nat) : c.stepCore i = c.jumpTo i ((c.core i).pc + 4).toNat := by
  unfold StringSt.stepCore StringSt.jumpTo StringSt.updCore
  rw [BitVec.ofNat_toNat, BitVec.setWidth_eq, StringSt.core_countInsn]

theorem State.stepCore_eq_goes (u : State) (x : Str) (i : Nat) :
    (u.updStr x fun c => c.stepCore i) = u.goes x i (((u.str x).core i).pc + 4) :=
  u.updStr_congr x _ _ (StringSt.stepCore_eq_jumpTo _ _)

/-- The offset of a branch or jump counts words. -/
theorem signExtend_mul_four {n : Nat} (v : BitVec n) : v.signExtend 32 * 4 = BitVec.ofInt 32 (4 * v.toInt) := by
  rw [BitVec.ofInt_mul, BitVec.mul_comm]
  rfl

/-- BNE asks for what BEQ denies. -/
theorem branchTaken_bne (d a : Word) : branchTaken .bne d a = some (decide (d ≠ a)) :=
  congrArg some (Bool.eq_iff_iff.mpr (by simp only [bne_iff_ne, decide_eq_true_eq]))

/-! ## What a ready core makes of these instructions -/

/-- The core as the instruction that it has fetched finds it. -/
abbrev State.fetchedCore (s : State) (x : Str) (i : Nat) (fe : Ecc) : CoreSt := ((s.fetched x i fe).str x).core i

section Ready

variable {s : State} {x : Str} {i : Fin 4} {fe : Ecc}

/-- A core that runs an instruction whose fields are legal. -/
theorem State.runInsn_ready_legal (h : s.ready x i fe) (de : Ecc) {n : Insn} (hn : n.legal = true) :
    s.runInsn x i false fe de n =
      (s.fetched x i fe).runOp ⟨x, i, s.fetchedCore x i fe, n.op.toNat⟩ de n := by
  rw [State.runInsn_ready h]
  simp only [hn, if_true]

/-- A core that meets a field that must be zero and is not takes ILLEGAL. -/
theorem State.runInsn_ready_illegal (h : s.ready x i fe) (de : Ecc) {n : Insn} (hn : n.legal = false) :
    s.runInsn x i false fe de n = (s.fetched x i fe).fault x i ⟨tILLEGAL, n.op.toNat, 0⟩ := by
  rw [State.runInsn_ready h]
  simp only [hn, Bool.false_eq_true, if_false, State.raise]

/-- A legal instruction of the ALU group completes with its value in gd. -/
theorem exec_alu_completes (h : s.ready x i fe) (f : Alu) (gd ga gb : BitVec 5) (legal : (Insn.alu f gd ga gb).legal = true) {v : Word}
    (hv : aluVal f ((s.fetchedCore x i fe).g32 ga) ((s.fetchedCore x i fe).g32 gb) gb.toNat = v) :
    exec (f.command x i gd ga gb fe) s = .next ((s.fetched x i fe).completes x i gd v) := by
  rw [exec_alu_command, State.runInsn_ready_legal h _ legal, ← hv]
  rfl

theorem exec_alu_illegal (h : s.ready x i fe) (f : Alu) (gd ga gb : BitVec 5) (illegal : (Insn.alu f gd ga gb).legal = false) :
    exec (f.command x i gd ga gb fe) s = .next ((s.fetched x i fe).fault x i ⟨tILLEGAL, 0, 0⟩) := by
  rw [exec_alu_command, State.runInsn_ready_illegal h _ illegal]
  rfl

theorem exec_imm_illegal (h : s.ready x i fe) (f : ImmOp) (gd ga : BitVec 5) (v : BitVec 16)
    (illegal : (Insn.imm f gd ga v).legal = false) :
    exec (f.command .clean x i gd ga v fe) s = .next ((s.fetched x i fe).fault x i ⟨tILLEGAL, f.op.toNat, 0⟩) := by
  rw [exec_imm_command, State.runInsn_ready_illegal h _ illegal]
  rfl

/-- A legal instruction of format I runs on the fetched state. -/
theorem exec_imm_runs (h : s.ready x i fe) (f : ImmOp) (de : Ecc) (gd ga : BitVec 5) (v : BitVec 16)
    (legal : (Insn.imm f gd ga v).legal = true) :
    exec (f.command de x i gd ga v fe) s = .next ((s.fetched x i fe).runImm ⟨x, i, s.fetchedCore x i fe, f.op.toNat⟩
      (if (loadForm f).isSome then de else .clean) f gd ga v) := by
  rw [exec_imm_command, State.runInsn_ready_legal h _ legal]
  rfl

/-- A legal instruction of the immediate group completes with its value in gd. -/
theorem exec_imm_completes (h : s.ready x i fe) (f : ImmOp) (gd ga : BitVec 5) (v : BitVec 16)
    (legal : (Insn.imm f gd ga v).legal = true) {w : Word}
    (hw : immVal f ((s.fetchedCore x i fe).g32 ga) v = some w) :
    exec (f.command .clean x i gd ga v fe) s = .next ((s.fetched x i fe).completes x i gd w) := by
  rw [exec_imm_runs h f _ gd ga v legal]
  simp only [State.runImm, hw]
  rfl

/-- A branch goes to its target where its condition holds, and falls through where it does not. -/
theorem exec_branch_goes (h : s.ready x i fe) (f : ImmOp) (gd ga : BitVec 5) (v : BitVec 16)
    (legal : (Insn.imm f gd ga v).legal = true) (noVal : immVal f ((s.fetchedCore x i fe).g32 ga) v = none) {t : Bool}
    (ht : branchTaken f ((s.fetchedCore x i fe).g32 gd) ((s.fetchedCore x i fe).g32 ga) = some t) :
    exec (f.command .clean x i gd ga v fe) s = .next ((s.fetched x i fe).goes x i
      (if t then (s.fetchedCore x i fe).pc + 4 + BitVec.ofInt 32 (4 * v.toInt)
        else (s.fetchedCore x i fe).pc + 4)) := by
  rw [exec_imm_runs h f _ gd ga v legal, ← signExtend_mul_four]
  cases t with
  | true => simp only [State.runImm, noVal, ht, State.goes, if_true]
  | false => simp only [State.runImm, noVal, ht, State.stepCore_eq_goes, Bool.false_eq_true, if_false]

/-- J goes to its target. -/
theorem exec_j_goes (h : s.ready x i fe) (v : BitVec 26) :
    exec (.j x i v fe) s =
      .next ((s.fetched x i fe).goes x i ((s.fetchedCore x i fe).pc + 4 + BitVec.ofInt 32 (4 * v.toInt))) := by
  rw [exec_j, State.runInsn_ready_legal h _ rfl, ← signExtend_mul_four]
  rfl

/-- JAL goes to its target and leaves the address of the next instruction in g31. -/
theorem exec_jal_goes (h : s.ready x i fe) (v : BitVec 26) :
    exec (.jal x i v fe) s =
      .next (((s.fetched x i fe).goes x i ((s.fetchedCore x i fe).pc + 4 + BitVec.ofInt 32 (4 * v.toInt))).updStr x fun c =>
        c.updCore i fun j => j.setReg 31 ((s.fetchedCore x i fe).pc + 4).toNat) := by
  rw [exec_jal, State.runInsn_ready_legal h _ rfl, ← signExtend_mul_four, State.goes, State.updStr_updStr]
  rfl

/-- What JALR does: it traps at a target that is not aligned, and else goes there and links. -/
theorem State.runImm_jalr (u : State) (r : Run) (de : Ecc) (gd ga : BitVec 5) (v : BitVec 16) :
    let t := r.k.g32 ga + BitVec.ofInt 32 v.toInt
    u.runImm r de .jalr gd ga v =
      if t.toNat % 4 ≠ 0 then u.fault r.x r.i ⟨tALIGN, r.info, t.toNat⟩
      else (u.goes r.x r.i t).updStr r.x fun c => c.updCore r.i fun j => j.setReg gd.toNat (r.k.pc + 4).toNat := by
  intro t
  rw [State.goes, State.updStr_updStr]
  rfl

end Ready

/-! ## The results of R49, R50 and R51 as integer arithmetic -/

theorem sub_eq_ofInt (a b : Word) : a - b = BitVec.ofInt 32 ((a.toNat : Int) - (b.toNat : Int)) := by
  rw [Int.sub_eq_add_neg, BitVec.ofInt_add, BitVec.ofInt_neg]
  simp only [BitVec.ofInt_natCast, BitVec.ofNat_toNat, BitVec.setWidth_eq, BitVec.sub_eq_add_neg]

theorem shiftLeft_eq_ofNat (a : Word) (n : Nat) : a <<< n = BitVec.ofNat 32 (a.toNat * 2 ^ n) := by
  apply BitVec.eq_of_toNat_eq
  rw [BitVec.toNat_shiftLeft, BitVec.toNat_ofNat, Nat.shiftLeft_eq]

theorem ushiftRight_eq_ofNat (a : Word) (n : Nat) : a >>> n = BitVec.ofNat 32 (a.toNat / 2 ^ n) := by
  rw [← Nat.shiftRight_eq_div_pow, ← BitVec.toNat_ushiftRight, BitVec.ofNat_toNat, BitVec.setWidth_eq]

theorem sshiftRight_eq_ofInt (a : Word) (n : Nat) : a.sshiftRight n = BitVec.ofInt 32 (a.toInt / 2 ^ n) := by
  rw [← BitVec.ofInt_toInt (x := a.sshiftRight n), BitVec.toInt_sshiftRight, Int.shiftRight_eq_div_pow]
  simp only [Int.natCast_pow, Int.cast_ofNat_Int]

theorem add_eq_ofNat (a b : Word) : a + b = BitVec.ofNat 32 (a.toNat + b.toNat) := by
  rw [BitVec.ofNat_add, BitVec.ofNat_toNat, BitVec.ofNat_toNat, BitVec.setWidth_eq, BitVec.setWidth_eq]

theorem mul_eq_ofNat (a b : Word) : a * b = BitVec.ofNat 32 (a.toNat * b.toNat) := by
  rw [BitVec.ofNat_mul, BitVec.ofNat_toNat, BitVec.ofNat_toNat, BitVec.setWidth_eq, BitVec.setWidth_eq]

theorem min_eq_ofInt (a b : Word) : (if a.toInt < b.toInt then a else b) = BitVec.ofInt 32 (min a.toInt b.toInt) := by
  split
  case isTrue lt => exact BitVec.ofInt_toInt.symm.trans (congrArg (BitVec.ofInt 32) (Int.min_eq_left (Int.le_of_lt lt)).symm)
  case isFalse ge => exact BitVec.ofInt_toInt.symm.trans (congrArg (BitVec.ofInt 32) (Int.min_eq_right (Int.not_lt.mp ge)).symm)

theorem max_eq_ofInt (a b : Word) : (if a.toInt < b.toInt then b else a) = BitVec.ofInt 32 (max a.toInt b.toInt) := by
  split
  case isTrue lt => exact BitVec.ofInt_toInt.symm.trans (congrArg (BitVec.ofInt 32) (Int.max_eq_right (Int.le_of_lt lt)).symm)
  case isFalse ge => exact BitVec.ofInt_toInt.symm.trans (congrArg (BitVec.ofInt 32) (Int.max_eq_left (Int.not_lt.mp ge)).symm)

theorem clz_zero : clz 0 = 32 := by decide

/-- The leading zeros of a word end at its highest set bit. -/
theorem clz_of_ne_zero {a : Word} (ha : a ≠ 0) : clz a = 31 - Nat.log2 a.toNat := by
  have hn : a.toNat ≠ 0 := fun h => ha (BitVec.eq_of_toNat_eq h)
  have top : Nat.log2 a.toNat < 32 := (Nat.log2_lt hn).mpr a.isLt
  have first : (List.range 32).findIdx (fun j => a.getLsbD (31 - j)) = 31 - Nat.log2 a.toNat := by
    rw [List.findIdx_eq (by rw [List.length_range]; omega)]
    constructor
    · have at_log : 31 - (31 - Nat.log2 a.toNat) = Nat.log2 a.toNat := by omega
      rw [List.getElem_range, at_log]
      exact Nat.testBit_log2 hn
    · intro j hj
      have above : a.toNat < 2 ^ (31 - j) := (Nat.log2_lt hn).mp (by omega)
      rw [List.getElem_range]
      exact Nat.testBit_lt_two_pow above
  unfold clz
  simp only [List.takeWhile_eq_take_findIdx_not, Bool.not_not, first, List.length_take, List.length_range]
  omega

theorem clz_eq (a : Word) : clz a = if a = 0 then 32 else 31 - Nat.log2 a.toNat := by
  split
  case isTrue h => rw [h, clz_zero]
  case isFalse h => exact clz_of_ne_zero h

theorem divS_eq_ofInt {a b : Word} (hb : b ≠ 0) : divS a b = BitVec.ofInt 32 (a.toInt.tdiv b.toInt) := by
  rw [divS, if_neg hb]
  apply BitVec.eq_of_toInt_eq
  rw [BitVec.toInt_sdiv, BitVec.toInt_ofInt]

theorem remS_eq_ofInt {a b : Word} (hb : b ≠ 0) : remS a b = BitVec.ofInt 32 (a.toInt.tmod b.toInt) := by
  rw [remS, if_neg hb, ← BitVec.toInt_srem, BitVec.ofInt_toInt]

theorem divU_eq_ofNat {a b : Word} (hb : b ≠ 0) : divU a b = BitVec.ofNat 32 (a.toNat / b.toNat) := by
  rw [divU, if_neg hb, BitVec.udiv_def]

theorem remU_eq_ofNat {a b : Word} (hb : b ≠ 0) : remU a b = BitVec.ofNat 32 (a.toNat % b.toNat) := by
  rw [remU, if_neg hb, BitVec.umod_def]

theorem divS_zero (a : Word) : divS a 0 = 0xFFFFFFFF := if_pos rfl
theorem divU_zero (a : Word) : divU a 0 = 0xFFFFFFFF := if_pos rfl
theorem remS_zero (a : Word) : remS a 0 = a := if_pos rfl
theorem remU_zero (a : Word) : remU a 0 = a := if_pos rfl

/-- The one quotient that a word cannot hold. -/
theorem divS_overflow : divS 0x80000000 0xFFFFFFFF = 0x80000000 := by decide
theorem remS_overflow : remS 0x80000000 0xFFFFFFFF = 0 := by decide

theorem addi_eq_ofInt (a : Word) (v : BitVec 16) : a + v.signExtend 32 = BitVec.ofInt 32 (a.toInt + v.toInt) := by
  rw [BitVec.ofInt_add, BitVec.ofInt_toInt]
  rfl

theorem zeroExtend_eq_ofNat (v : BitVec 16) : v.zeroExtend 32 = BitVec.ofNat 32 v.toNat := (BitVec.ofNat_toNat 32 v).symm

theorem lui_eq_ofNat (v : BitVec 16) : v.zeroExtend 32 <<< 16 = BitVec.ofNat 32 (v.toNat * 65536) := by
  have fits : (v.zeroExtend 32).toNat = v.toNat := BitVec.toNat_setWidth_of_le (by decide)
  exact (shiftLeft_eq_ofNat _ 16).trans (congrArg (fun n => BitVec.ofNat 32 (n * 65536)) fits)

/-! ## The statements -/

/-- Settles O11: each instruction completes with its value, which is the integer arithmetic of R49. -/
theorem aluGroupResults : Obligations.AluGroupResults := by
  intro s x i gd ga gb fe h u k A B n gives
  have run (f : Alu) (v : Word) (legal : (Insn.alu f gd ga gb).legal = true) (hv : aluVal f A B n = v) :
      gives (f.command x i gd ga gb fe) v := exec_alu_completes h f gd ga gb legal hv
  refine ⟨run .add _ rfl (add_eq_ofNat A B), run .sub _ rfl (sub_eq_ofInt A B), run .and _ rfl rfl, run .or _ rfl rfl,
    run .xor _ rfl rfl, run .sll _ rfl (shiftLeft_eq_ofNat A _), run .srl _ rfl (ushiftRight_eq_ofNat A _),
    run .sra _ rfl (sshiftRight_eq_ofInt A _), run .slt _ rfl rfl, run .sltu _ rfl rfl, run .mul _ rfl (mul_eq_ofNat A B),
    run .mulh _ rfl rfl, run .mulhu _ rfl rfl, run .slli _ rfl (shiftLeft_eq_ofNat A n), run .srli _ rfl (ushiftRight_eq_ofNat A n),
    run .srai _ rfl (sshiftRight_eq_ofInt A n), run .min _ rfl (min_eq_ofInt A B), run .max _ rfl (max_eq_ofInt A B), ?_, ?_, ?_⟩
  · intro hgb
    exact run .clz _ (decide_eq_true hgb) (congrArg (BitVec.ofNat 32) (clz_eq A))
  · intro hgb
    exact exec_alu_illegal h .clz gd ga gb (decide_eq_false hgb)
  · intro hB
    exact ⟨run .div _ rfl (divS_eq_ofInt hB), run .divu _ rfl (divU_eq_ofNat hB), run .rem _ rfl (remS_eq_ofInt hB),
      run .remu _ rfl (remU_eq_ofNat hB)⟩

/-- Settles O12: the divisions complete like the rest of their group, and R50 fixes their values where integers have none. -/
theorem divisionNeverTraps : Obligations.DivisionNeverTraps := by
  intro s x i gd ga gb fe h u k gives
  have run (f : Alu) (v : Word) (legal : (Insn.alu f gd ga gb).legal = true) (hv : aluVal f (k.g32 ga) (k.g32 gb) gb.toNat = v) :
      gives (f.command x i gd ga gb fe) v := exec_alu_completes h f gd ga gb legal hv
  refine ⟨fun hb => ?_, fun ha hb => ?_, _, _, _, _, run .div _ rfl rfl, run .divu _ rfl rfl, run .rem _ rfl rfl, run .remu _ rfl rfl⟩
  · rw [hb] at run
    exact ⟨run .div _ rfl (divS_zero _), run .divu _ rfl (divU_zero _), run .rem _ rfl (remS_zero _), run .remu _ rfl (remU_zero _)⟩
  · rw [ha, hb] at run
    exact ⟨run .div _ rfl divS_overflow, run .rem _ rfl remS_overflow⟩

/-- Settles O13: each instruction completes with its value, which is that of R51. -/
theorem immediateGroupResults : Obligations.ImmediateGroupResults := by
  intro s x i gd ga imm fe h u A gives
  have run (f : ImmOp) (w : Word) (legal : (Insn.imm f gd ga imm).legal = true) (hw : immVal f A imm = some w) :
      gives (f.command .clean x i gd ga imm fe) w := exec_imm_completes h f gd ga imm legal hw
  have signed : (imm.signExtend 32).toInt = imm.toInt := BitVec.toInt_signExtend_of_le (by decide)
  refine ⟨run .addi _ rfl (congrArg some (addi_eq_ofInt A imm)), run .andi _ rfl (by rw [← zeroExtend_eq_ofNat]; rfl),
    run .ori _ rfl (by rw [← zeroExtend_eq_ofNat]; rfl), run .xori _ rfl (by rw [← zeroExtend_eq_ofNat]; rfl),
    run .slti _ rfl (by rw [← signed]; rfl), run .sltiu _ rfl rfl, ?_, ?_⟩
  · intro hga
    exact run .lui _ (decide_eq_true hga) (congrArg some (lui_eq_ofNat imm))
  · intro hga
    exact exec_imm_illegal h .lui gd ga imm (decide_eq_false hga)

/-- Settles O17: a branch by the one lemma about branches, J, JAL and JALR by what they do to the core. -/
theorem branchesAndJumpsGo : Obligations.BranchesAndJumpsGo := by
  intro s x i gd ga imm im fe h u k D A t r link
  have run (f : ImmOp) (legal : (Insn.imm f gd ga imm).legal = true) (noVal : immVal f A imm = none) (b : Bool)
      (hb : branchTaken f D A = some b) := exec_branch_goes h f gd ga imm legal noVal hb
  refine ⟨?_, ?_, ?_, ?_, ?_⟩
  · simp only [List.forall_mem_cons]
    exact ⟨run .beq rfl rfl _ rfl, run .bne rfl rfl _ (branchTaken_bne D A), run .blt rfl rfl _ rfl,
      run .bge rfl rfl _ rfl, run .bltu rfl rfl _ rfl, run .bgeu rfl rfl _ rfl, fun _ none => absurd none List.not_mem_nil⟩
  · exact exec_j_goes h im
  · exact exec_jal_goes h im
  · intro aligned
    refine (exec_imm_runs h .jalr .clean gd ga imm rfl).trans (congrArg _ ?_)
    exact (State.runImm_jalr u _ _ gd ga imm).trans (if_neg (not_not_intro aligned))
  · intro misaligned
    refine (exec_imm_runs h .jalr .clean gd ga imm rfl).trans (congrArg _ ?_)
    exact (State.runImm_jalr u _ _ gd ga imm).trans (if_pos misaligned)

end Sys2Proof.Machine
